-- ==== Sys2Proof/Word.lean ====
section
/-! DEFINITION. The word types of the model: the byte of a memory cell and the register widths the spec names (R14),
the element formats (R52) and the exact values that the reading rules give them (R59). -/

namespace Sys2Proof

/-- One byte of an HBM4E extent, a scratchpad, a store or a message. -/
abbrev Byte := BitVec 8
/-- A 16-bit field. -/
abbrev W16 := BitVec 16
/-- A 32-bit status word, record word or FP32 code. -/
abbrev W32 := BitVec 32
/-- A 64-bit record word. -/
abbrev W64 := BitVec 64

/-- The thirteen element formats of R52. -/
inductive Fmt
  | fp32 | bf16 | fp16 | e5m2 | e4m3 | fp4
  | int32 | int8 | uint8 | int4 | uint4 | int2 | uint2
  deriving DecidableEq, Repr

/-- An exact value after the reading rules of R59: NaN, an infinity, or the dyadic number `m * 2 ^ e`. -/
inductive FVal
  | nan
  | inf (neg : Bool)
  | fin (m : Int) (e : Int)
  deriving DecidableEq, Repr

/-- The kind an accumulator slot holds (R67, R79). -/
inductive AccKind
  | fp32 | int32
  deriving DecidableEq, Repr

/-- The rate classes of R68. -/
inductive RateClass
  | fp4 | int4 | fp8 | int8 | bf16 | fp16
  deriving DecidableEq, Repr

end Sys2Proof
end

