-- ==== Sys2Proof/Syntax.lean ====
section
/-! DEFINITION. The commands of the block: one constructor per row of the command table, with the operands that its rule
names. A host command carries the connection it came on and the 32-bit words of its SEND message (R373). A device event
carries what the environment decides: the unit or port it happens at, a check's result, a measured value. -/

namespace Sys2Proof

/-- Who makes a dictionary request: the EtherCAT master or a host (R402). -/
inductive Requester
  | master
  | host (h : Nat)
  deriving DecidableEq, Repr

/-- The EtherCAT states of R397. -/
inductive AlState
  | init | preop | safeop | op
  deriving DecidableEq, Repr

/-- What a receiver's error-correcting code finds (R179, R207, R242). -/
inductive Ecc
  | clean | corrected | uncorrectable
  deriving DecidableEq, Repr

/-- What the error correction of the stores that a unit's step reads finds: nothing, a corrected word, or an uncorrectable word
of a store at an address (R418, R419). Store 0 is the scratchpad of an MU and the accumulator memory of a CU; the other codes
are those of R258. -/
inductive Sram
  | clean | corrected | bad (store addr : Nat)
  deriving DecidableEq, Repr

/-- What the receiver of a word or packet finds: in its own code (R179, R242), or in the circuit or route table and the FIFO control
that it needs (R418). -/
inductive WordCheck
  | clean | corrected | uncorrectable
  | table (sram : Sram)
  deriving DecidableEq, Repr

/-- A unit whose step reads its stores, and what their error correction finds there (R418). -/
structure At where
  site : Nat
  sram : Sram
  deriving DecidableEq, Repr

/-- What the controllers meet in a read of HBM4E: addresses of words that they correct, of marked words whose second read is clean,
and of words that they now find uncorrectable in both reads (R206, R207). -/
structure HbmReads where
  fixed : List Nat
  clean : List Nat
  bad : List Nat
  deriving DecidableEq, Repr

/-- A CU whose drain ends, and what the reads of its stores and of a per-channel table in HBM4E find (R101, R418, R206). -/
structure DrainEnd where
  site : Nat
  sram : Sram
  reads : HbmReads
  deriving DecidableEq, Repr

/-- A Report Card whose held step is released, and what the reads of its calibration buffer find (R97, R206). -/
structure CardRead where
  card : Nat
  reads : HbmReads
  deriving DecidableEq, Repr

/-- A SEND message: its words, whether the packet's ICRC is right, and whether it finds no receive buffer (R368, R373). -/
structure Send where
  words : List W32
  icrc : Bool
  rnr : Bool
  deriving DecidableEq, Repr

/-- A packet on a connection, and whether its ICRC is right (R368). -/
structure ConnPkt where
  conn : Nat
  icrc : Bool
  deriving DecidableEq, Repr

/-- The data of a packet that opens a connection or answers a read of the device, and whether its ICRC is right (R368). -/
structure PktData where
  icrc : Bool
  bytes : List Byte
  deriving DecidableEq, Repr

/-- A connection whose host does not acknowledge a packet in time, or says that it has no receive buffer (R368). -/
structure Unacked where
  conn : Nat
  rnr : Bool
  deriving DecidableEq, Repr

/-- A DHCP offer: the address it gives, the server of option 66 or siaddr, and the boot file of option 67, empty where it names none
(R441). -/
structure DhcpOffer where
  addr : Nat
  server : Nat
  file : List Byte
  deriving DecidableEq, Repr

/-- An SDO download: whether it asks for complete access, and its data (R397). -/
structure SdoDown where
  complete : Bool
  bytes : List Byte
  deriving DecidableEq, Repr

/-- A codeword as a Trien port receives it: whether it is clean or corrected, its CWIDX, and the 640 bytes of its frame (R332, R333,
R335). -/
structure Codeword where
  fec : Bool
  idx : Nat
  frame : List Byte
  deriving DecidableEq, Repr

/-- The data of an RDMA write, whether the packet's ICRC is right, and what the controllers meet in the words it writes in part (R385,
R396, R206). -/
structure WriteData where
  icrc : Bool
  bytes : List Byte
  reads : HbmReads
  deriving DecidableEq, Repr

/-- What an RDMA read asks for: its length, whether the packet's ICRC is right, and what the controllers meet (R385, R396, R207). -/
structure ReadAsk where
  len : Nat
  icrc : Bool
  reads : HbmReads
  deriving DecidableEq, Repr

/-- A datagram: its destination address (an IPv4 one as its IPv4-mapped address) and UDP port, its source UDP port, its bytes, and the
number of requests that wait at MC0 when it comes (R400, R401, R403). -/
structure Datagram where
  dst : Nat
  dport : Nat
  sport : Nat
  bytes : List Byte
  waiting : Nat
  deriving DecidableEq, Repr

/-- The queue whose oldest EAD has moved its data, and the addresses of words that the controllers corrected for it (R206, R210). -/
structure EadEnd where
  queue : Nat
  fixed : List Nat
  deriving DecidableEq, Repr

/-- A port, and whether the direction it sends, or the one it receives, changes its lanes (R341). -/
structure LaneTurn where
  port : Nat
  sent : Bool
  deriving DecidableEq, Repr

/-- A channel whose next block is sent, and what the read of it finds in HBM4E or in the scratchpad (R349, R207, R418). -/
structure BlockRead where
  chan : Nat
  reads : HbmReads
  sram : Sram
  deriving DecidableEq, Repr

/-- What a comparison of twins waits for at the shadow: the CRC of a channel's block, or an increment that a context makes to an object
(R433). -/
inductive TwinValue
  | block (chan : Nat)
  | increment (ctx obj : Nat)
  deriving DecidableEq, Repr

/-- The commands. -/
inductive Instr
  /-- NOP, R375. -/
  | nop (conn : Nat) (msg : Send)
  /-- QUEUE_CREATE, R380. -/
  | queueCreate (conn : Nat) (msg : Send)
  /-- QUEUE_DESTROY, R382. -/
  | queueDestroy (conn : Nat) (msg : Send)
  /-- QUEUE_ACK, R382. -/
  | queueAck (conn : Nat) (msg : Send)
  /-- QUEUE_MODIFY, R380. -/
  | queueModify (conn : Nat) (msg : Send)
  /-- LEASE_ACQUIRE, R387. -/
  | leaseAcquire (conn : Nat) (msg : Send)
  /-- LEASE_RENEW, R387. -/
  | leaseRenew (conn : Nat) (msg : Send)
  /-- LEASE_RELEASE, R387. -/
  | leaseRelease (conn : Nat) (msg : Send)
  /-- OPEN, R376. -/
  | openCtx (conn : Nat) (msg : Send)
  /-- EXTENT_ADD, R282. -/
  | extentAdd (conn : Nat) (msg : Send)
  /-- EXTENT_FREE, R282. -/
  | extentFree (conn : Nat) (msg : Send)
  /-- EXTENT_GRANT_COMPLETE, R282. -/
  | extentGrantComplete (ctx : Nat)
  /-- LOAD, R262. -/
  | load (conn : Nat) (msg : Send)
  /-- LOAD_FETCH_COMPLETE, R262. -/
  | loadFetchComplete (ctx : Nat) (file : PktData)
  /-- UNLOAD, R280. -/
  | unload (conn : Nat) (msg : Send)
  /-- LAUNCH, R272. -/
  | launch (conn : Nat) (msg : Send)
  /-- RECESS, R294. -/
  | recess (conn : Nat) (msg : Send)
  /-- RESUME, R286. -/
  | resume (conn : Nat) (msg : Send)
  /-- RELEASE, R297. -/
  | release (conn : Nat) (msg : Send)
  /-- CLOSE, R298. -/
  | close (conn : Nat) (msg : Send)
  /-- MW_OPEN, R384. -/
  | mwOpen (conn : Nat) (msg : Send)
  /-- MW_CLOSE, R386. -/
  | mwClose (conn : Nat) (msg : Send)
  /-- MW_CLOSE_COMPLETE, R386. -/
  | mwCloseComplete (win : Nat)
  /-- SW_OPEN, R343. -/
  | swOpen (conn : Nat) (msg : Send)
  /-- SW_CLOSE, R358. -/
  | swClose (conn : Nat) (msg : Send)
  /-- OBJ_CREATE, R245. -/
  | objCreate (conn : Nat) (msg : Send)
  /-- OBJ_DESTROY, R250. -/
  | objDestroy (conn : Nat) (msg : Send)
  /-- OBJ_GRANT, R245. -/
  | objGrant (conn : Nat) (msg : Send)
  /-- OBJ_SIGNAL, R247. -/
  | objSignal (conn : Nat) (msg : Send)
  /-- OBJ_WAIT, R247. -/
  | objWait (conn : Nat) (msg : Send)
  /-- RC_READ, R378. -/
  | rcRead (conn : Nat) (msg : Send)
  /-- RC_RESET, R109. -/
  | rcReset (conn : Nat) (msg : Send)
  /-- ROLL_CALL, R378. -/
  | rollCall (conn : Nat) (msg : Send)
  /-- CTX_READ, R378. -/
  | ctxRead (conn : Nat) (msg : Send)
  /-- DBG_READ, R393. -/
  | dbgRead (conn : Nat) (msg : Send)
  /-- RDMA_WRITE_ACKED, R378. -/
  | rdmaWriteAcked (pkt : ConnPkt)
  /-- REMOTE_ACCESS_ERROR, R378. -/
  | remoteAccessError (pkt : ConnPkt)
  /-- CM_REQ, R370. -/
  | cmReq (port gid : Nat) (priv : PktData)
  /-- CM_DREQ, R372. -/
  | cmDreq (pkt : ConnPkt)
  /-- ACK_TIMEOUT, R368. -/
  | ackTimeout (lost : Unacked)
  /-- LIVENESS_TIMEOUT, R372. -/
  | livenessTimeout (conn : Nat)
  /-- HOST_GRACE_EXPIRY, R372. -/
  | hostGraceExpiry (host : Nat)
  /-- RDMA_WRITE_REQUEST, R385. -/
  | rdmaWriteRequest (conn rkey off : Nat) (data : WriteData)
  /-- RDMA_READ_REQUEST, R385. -/
  | rdmaReadRequest (conn rkey off : Nat) (ask : ReadAsk)
  /-- UNSUPPORTED_REQUEST, R369. -/
  | unsupportedRequest (pkt : ConnPkt)
  /-- ECN_MARKED_PACKET, R368. -/
  | ecnMarkedPacket (pkt : ConnPkt)
  /-- CNP_RECEIVED, R368. -/
  | cnpReceived (pkt : ConnPkt)
  /-- SEND_RATE_RAISE, R368. -/
  | sendRateRaise (conn : Nat)
  /-- LEASE_EXPIRY, R387. -/
  | leaseExpiry
  /-- PTP_SYNC, R390. -/
  | ptpSync (port time : Nat) (offset : Int)
  /-- PTP_SYNC_LOSS, R390. -/
  | ptpSyncLoss (port : Nat)
  /-- SDO_UDP_DATAGRAM, R401. -/
  | sdoUdpDatagram (port src : Nat) (data : Datagram)
  /-- COE_SDO_UPLOAD, R397. -/
  | coeSdoUpload (index sub : Nat) (complete : Bool)
  /-- COE_SDO_DOWNLOAD, R397. -/
  | coeSdoDownload (index sub : Nat) (data : SdoDown)
  /-- SDO_INFORMATION, R397. -/
  | sdoInformation
  /-- AL_STATE_REQUEST, R397. -/
  | alStateRequest (target : AlState)
  /-- ECAT_SUPERVISION_TIMEOUT, R411. -/
  | ecatSupervisionTimeout
  /-- SYNC0_EVENT, R309. -/
  | sync0Event
  /-- INPUT_REFRESH, R398. -/
  | inputRefresh
  /-- DICT_WRITE, R402. -/
  | dictWrite (req : Requester) (term : Nat) (index sub : Nat) (data : List Byte)
  /-- POWER_CAP_WRITE, R51. -/
  | powerCapWrite (req : Requester) (term : Nat) (value : Nat)
  /-- ACLK_CEILING_WRITE, R51. -/
  | aclkCeilingWrite (req : Requester) (term : Nat) (value : Nat)
  /-- REPORT_CARD_RESET, R109. -/
  | reportCardReset (req : Requester) (term : Nat) (value : Nat)
  /-- WATCHDOG_PERIOD_WRITE, R243. -/
  | watchdogPeriodWrite (req : Requester) (term : Nat) (sub value : Nat)
  /-- ROLL_CALL_TRIGGER, R253. -/
  | rollCallTrigger (req : Requester) (term : Nat)
  /-- ROLL_CALL_DONE, R253. -/
  | rollCallDone
  /-- REJOIN_THRESHOLD_WRITE, R202. -/
  | rejoinThresholdWrite (req : Requester) (term : Nat) (value : Nat)
  /-- FORCE_CLOSE, R298. -/
  | forceClose (req : Requester) (term : Nat) (value : Nat)
  /-- DEBUG_PERMITTED_WRITE, R269. -/
  | debugPermittedWrite (req : Requester) (term : Nat) (value : Nat)
  /-- TIMETABLE_ENTRY_WRITE, R318. -/
  | timetableEntryWrite (req : Requester) (term : Nat) (entry : List Byte)
  /-- TIMETABLE_ENABLE, R318. -/
  | timetableEnable (req : Requester) (term : Nat) (tt : Nat)
  /-- TIMETABLE_DISABLE, R329. -/
  | timetableDisable (req : Requester) (term : Nat) (tt : Nat)
  /-- TIMETABLE_RANGE_WRITE, R318. -/
  | timetableRangeWrite (req : Requester) (term : Nat) (tt sub value : Nat)
  /-- TIMETABLE_QUIESCE_TIMEOUT, R329. -/
  | timetableQuiesceTimeout (tt : Nat)
  /-- TRIEN_PORT_ENABLE, R339. -/
  | trienPortEnable (req : Requester) (term : Nat) (port : Nat)
  /-- TRIEN_PORT_DISABLE, R339. -/
  | trienPortDisable (req : Requester) (term : Nat) (port : Nat)
  /-- HOST_PORT_ENABLE_WRITE, R396. -/
  | hostPortEnableWrite (req : Requester) (term : Nat) (port value : Nat)
  /-- HOST_PORT_ADDRESS_WRITE, R396. -/
  | hostPortAddressWrite (req : Requester) (term : Nat) (port sub value : Nat)
  /-- HOST_GID_WRITE, R370. -/
  | hostGidWrite (req : Requester) (term : Nat) (host value : Nat)
  /-- HOST_ENABLE_WRITE, R370. -/
  | hostEnableWrite (req : Requester) (term : Nat) (host value : Nat)
  /-- LEASE_REVOKE, R388. -/
  | leaseRevoke (req : Requester) (term : Nat)
  /-- SERVICE_WRITE, R411. -/
  | serviceWrite (req : Requester) (term : Nat) (value : Nat)
  /-- GATE_DISABLE, R413. -/
  | gateDisable (req : Requester) (term : Nat) (gate : Nat)
  /-- GATE_ENABLE, R413. -/
  | gateEnable (req : Requester) (term : Nat) (gate : Nat)
  /-- QUIESCE_TIMEOUT, R414. -/
  | quiesceTimeout (gate : Nat)
  /-- ERROR_HISTORY_CLEAR, R409. -/
  | errorHistoryClear (req : Requester) (term : Nat) (value : Nat)
  /-- SM3_SYNC_MODE_WRITE, R398. -/
  | sm3SyncModeWrite (req : Requester) (term : Nat) (value : Nat)
  /-- TWIN_MODE_WRITE, R431. -/
  | twinModeWrite (req : Requester) (term : Nat) (pair value : Nat)
  /-- WING_FENCE, R436. -/
  | wingFence (req : Requester) (term : Nat) (wing : Nat)
  /-- WING_UNFENCE, R436. -/
  | wingUnfence (req : Requester) (term : Nat) (wing : Nat)
  /-- FULL_RESET_REQUEST, R455. -/
  | fullResetRequest (req : Requester) (term : Nat)
  /-- PLANE_RESET_REQUEST, R456. -/
  | planeResetRequest (req : Requester) (term : Nat)
  /-- COMMIT, R447. -/
  | commit (req : Requester) (term : Nat)
  /-- COMMIT_COMPLETE, R447. -/
  | commitComplete (readBack : Bool)
  /-- SYLLABUS_POLICY_WRITE, R450. -/
  | syllabusPolicyWrite (req : Requester) (term : Nat) (value : Nat)
  /-- SYLLABUS_KEY_HASH_WRITE, R450. -/
  | syllabusKeyHashWrite (req : Requester) (term : Nat) (slot value : Nat)
  /-- ATTESTATION_TRIGGER, R454. -/
  | attestationTrigger (req : Requester) (term : Nat)
  /-- ATTESTATION_SIGNED, R454. -/
  | attestationSigned
  /-- DEBUG_DATA_READ, R394. -/
  | debugDataRead (req : Requester)
  /-- POWER_WINDOW_END, R48. -/
  | powerWindowEnd (mean : Nat)
  /-- THERMAL_READING, R479. -/
  | thermalReading (compute base stack optic : List Int)
  /-- COOLANT_FLOW_LOW, R479. -/
  | coolantFlowLow (flow : Nat) (inlet outlet : Int) (glycol : Bool)
  /-- COOLANT_FLOW_SHUTDOWN, R479. -/
  | coolantFlowShutdown
  /-- PWR_EN_RISE, R467. -/
  | pwrEnRise
  /-- PWR_EN_FALL, R467. -/
  | pwrEnFall
  /-- RESET_N_ASSERT, R467. -/
  | resetNAssert
  /-- RESET_N_RELEASE, R467. -/
  | resetNRelease
  /-- INPUT_UNDERVOLTAGE, R464. -/
  | inputUndervoltage
  /-- INPUT_OVERVOLTAGE, R464. -/
  | inputOvervoltage
  /-- RAIL_FAULT, R464. -/
  | railFault
  /-- VCMP_FAULT, R464. -/
  | vcmpFault (wing : Nat)
  /-- VOPT_FAULT, R464. -/
  | voptFault (wing : Nat)
  /-- RAIL_ENABLE, R462. -/
  | railEnable
  /-- ROM_START, R438. -/
  | romStart (mc0Ok mc1Ok : Bool)
  /-- DHCP_OFFER, R441. -/
  | dhcpOffer (port : Nat) (offer : DhcpOffer)
  /-- DHCP_RETRY, R441. -/
  | dhcpRetry (port : Nat)
  /-- TFTP_RETRY, R441. -/
  | tftpRetry (port : Nat)
  /-- TFTP_BLOCK, R441. -/
  | tftpBlock (port : Nat) (data : List Byte)
  /-- FOE_WRITE, R441. -/
  | foeWrite (named : Bool) (file : List Byte)
  /-- FIRMWARE_IMAGE_RECEIVED, R444. -/
  | firmwareImageReceived (path : Nat)
  /-- MC1_IMAGE_CHECK, R445. -/
  | mc1ImageCheck (pathOk : Bool)
  /-- HBM_TRAINING, R438. -/
  | hbmTraining (failing : List Nat)
  /-- SITE_SELF_TEST, R438. -/
  | siteSelfTest (failing : List Nat) (dead : List Nat)
  /-- LINK_TRAINING, R438. -/
  | linkTraining (bridges : List Nat)
  /-- DICTIONARY_ONLINE, R438. -/
  | dictionaryOnline
  /-- CONTEXTS_MAY_OPEN, R457. -/
  | contextsMayOpen
  /-- BELL_EDGE, R303. -/
  | bellEdge (a b : Bool)
  /-- BELL_INDEX_EDGE, R305. -/
  | bellIndexEdge (forward : Bool)
  /-- INTERVAL_TIMEOUT, R307. -/
  | intervalTimeout (source : Nat)
  /-- SOURCE_LOSS_TIMEOUT, R307. -/
  | sourceLossTimeout (source : Nat)
  /-- TIMETABLE_RELEASE, R321. -/
  | timetableRelease (tt : Nat)
  /-- TIMETABLE_SIGNAL, R315. -/
  | timetableSignal (tt : Nat)
  /-- TIMETABLE_CHECK, R315. -/
  | timetableCheck (tt : Nat)
  /-- PHASE_DEADLINE_PASS, R322. -/
  | phaseDeadlinePass (tt : Nat)
  /-- TIME_DEADLINE_EXPIRY, R322. -/
  | timeDeadlineExpiry (tt : Nat)
  /-- STAGING_START, R320. -/
  | stagingStart (ctx : Nat)
  /-- STAGING_COMPLETE, R320. -/
  | stagingComplete (ctx : Nat)
  /-- LEND_RECESS_REQUEST, R288. -/
  | lendRecessRequest (ctx : Nat)
  /-- BE_QUANTUM_EXPIRY, R286. -/
  | beQuantumExpiry (ctx : Nat)
  /-- SCHEDULER_START, R286. -/
  | schedulerStart
  /-- RECESS_POINT_REACHED, R290. -/
  | recessPointReached (ctx : Nat)
  /-- SAVE_COMPLETE, R292. -/
  | saveComplete (ctx : Nat)
  /-- RESTORE_COMPLETE, R295. -/
  | restoreComplete (ctx : Nat)
  /-- PREEMPT_TIMEOUT, R294. -/
  | preemptTimeout (ctx : Nat)
  /-- RECESS_PARTNER_SILENCE, R357. -/
  | recessPartnerSilence (chan : Nat)
  /-- TEARDOWN_COMPLETE, R296. -/
  | teardownComplete (ctx : Nat)
  /-- CLOSE_TIMEOUT, R298. -/
  | closeTimeout (ctx : Nat)
  /-- CLOSE_COMPLETE, R298. -/
  | closeComplete (ctx : Nat)
  /-- TURN_COMPLETE, R284. -/
  | turnComplete (ctx : Nat)
  /-- ZERO_EXTENT_COMPLETE, R273. -/
  | zeroExtentComplete (ctx : Nat)
  /-- TERM_COOLED, R193. -/
  | termCooled
  /-- PASS_DESCRIPTOR, R113. -/
  | passDescriptor (unit : At)
  /-- COLUMN_TABLE_LOAD, R113. -/
  | columnTableLoad (unit : At)
  /-- FREE_HANDLE, R122. -/
  | freeHandle (unit : At)
  /-- DRAIN_HANDLE, R122. -/
  | drainHandle (unit : At)
  /-- CU_GATE_RELEASE, R238. -/
  | cuGateRelease (unit : At)
  /-- PASS_FIRE, R123. -/
  | passFire (unit : At) (k : Nat)
  /-- WEIGHT_TILE_COMPLETE, R116. -/
  | weightTileComplete (site : Nat)
  /-- SLOT_READY, R136. -/
  | slotReady (site slot : Nat)
  /-- STEERING_TOKEN, R127. -/
  | steeringToken (site word : Nat)
  /-- DRAIN_START, R128. -/
  | drainStart (site : Nat) (sram : Sram)
  /-- SLOT_RELEASE, R137. -/
  | slotRelease (unit : At)
  /-- DRAIN_COMPLETE, R134. -/
  | drainComplete (drain : DrainEnd)
  /-- TILE_INDEX_TAKE, R114. -/
  | tileIndexTake (unit : At)
  /-- STEP_MERGE, R95. -/
  | stepMerge (ctx card : Nat)
  /-- HELD_STEP_RELEASE, R97. -/
  | heldStepRelease (ctx : Nat) (card : CardRead)
  /-- ISSUE_ENTRY, R238. -/
  | issueEntry (unit : At) (list : Nat)
  /-- TILE_DESCRIPTOR, R154. -/
  | tileDescriptor (site gen : Nat) (sram : Sram)
  /-- GATHER_SCATTER_DESCRIPTOR, R168. -/
  | gatherScatterDescriptor (unit : At) (gen : Nat)
  /-- LAYOUT_COPY_DESCRIPTOR, R172. -/
  | layoutCopyDescriptor (unit : At) (gen : Nat)
  /-- EXTERNAL_ACCESS_DESCRIPTOR, R213. -/
  | externalAccessDescriptor (unit : At) (queue : Nat)
  /-- ACCESS_UNBLOCK, R166. -/
  | accessUnblock (unit : At) (list : Nat)
  /-- NARROW_STARVATION, R147. -/
  | narrowStarvation (site : Nat)
  /-- DESCRIPTOR_COMPLETE, R148. -/
  | descriptorComplete (site gen : Nat)
  /-- EAD_COMPLETE, R210. -/
  | eadComplete (site : Nat) (done : EadEnd)
  /-- HBM_ECC_RETRY, R207. -/
  | hbmEccRetry (site queue addr : Nat) (clean : Bool)
  /-- SCRUB_PATROL, R207. -/
  | scrubPatrol (addr : Nat) (ecc : Ecc)
  /-- HBM_REFRESH, R208. -/
  | hbmRefresh (stack pc : Nat)
  /-- PSEUDO_CHANNEL_FAILING, R424. -/
  | pseudoChannelFailing (stack pc : Nat) (cause : W16)
  /-- PSEUDO_CHANNEL_SWITCH, R424. -/
  | pseudoChannelSwitch (stack pc : Nat)
  /-- TILE_REQUEST, R226. -/
  | tileRequest (site group : Nat)
  /-- TILE_GRANT, R226. -/
  | tileGrant (site : Nat)
  /-- SIGNAL_PACKET, R242. -/
  | signalPacket (site route : Nat) (check : WordCheck)
  /-- WATCHDOG_EXPIRY, R243. -/
  | watchdogExpiry (site wait : Nat)
  /-- FABRIC_WORD, R194. -/
  | fabricWord (site port : Nat) (check : WordCheck)
  /-- CREDIT_RETURN, R183. -/
  | creditReturn (site port : Nat)
  /-- FORK_SEND, R186. -/
  | forkSend (unit : At) (entry : Nat)
  /-- REDUCE_FIRE, R191. -/
  | reduceFire (unit : At) (entry : Nat)
  /-- REJOIN_IMBALANCE, R192. -/
  | rejoinImbalance (site entry : Nat)
  /-- LINK_ERROR_RATE, R421. -/
  | linkErrorRate (site port : Nat)
  /-- UNIT_FAILED, R421. -/
  | unitFailed (site : Nat)
  /-- SRAM_RETEST, R419. -/
  | sramRetest (site store addr : Nat) (bad : Bool)
  /-- PAIR_RETIREMENT, R422. -/
  | pairRetirement (wing pair : Nat) (cause : W16)
  /-- PAIR_REMAP, R422. -/
  | pairRemap (wing : Nat) (testOk : Bool)
  /-- BRIDGE_LOSS, R426. -/
  | bridgeLoss (bridge : Nat)
  /-- SPLIT_FENCE, R428. -/
  | splitFence
  /-- TWIN_FAULT_WINDOW_CLOSE, R434. -/
  | twinFaultWindowClose (ctx : Nat)
  /-- TWIN_EGRESS_COMPARE, R361. -/
  | twinEgressCompare (chan : Nat) (sram : Sram)
  /-- TWIN_EGRESS_TIMEOUT, R361. -/
  | twinEgressTimeout (late : TwinValue)
  /-- PROMOTION_COMPLETE, R435. -/
  | promotionComplete (pair : Nat)
  /-- LIGHT_DETECTED, R339. -/
  | lightDetected (port lanes : Nat)
  /-- LIGHT_LOST, R339. -/
  | lightLost (port : Nat)
  /-- TRAIN_LOCK, R339. -/
  | trainLock (port : Nat)
  /-- TRAIN_TIMEOUT, R339. -/
  | trainTimeout (port : Nat)
  /-- NEGOTIATE_TIMEOUT, R339. -/
  | negotiateTimeout (port : Nat)
  /-- HELLO, R340. -/
  | hello (port : Nat) (cw : Option Codeword) (word : Nat)
  /-- ECHO, R339. -/
  | echo (port : Nat) (cw : Option Codeword) (word : Nat)
  /-- ECHO_REPLY, R339. -/
  | echoReply (port : Nat) (cw : Option Codeword) (word : Nat)
  /-- LINK_IDLE_TIMEOUT, R339. -/
  | linkIdleTimeout (port : Nat)
  /-- DATA_FRAME, R337. -/
  | dataFrame (port : Nat) (fec : Bool) (idx : Nat) (frame : List Byte)
  /-- IDLE_FRAME, R337. -/
  | idleFrame (port : Nat) (idx : Option Nat) (frame : List Byte)
  /-- REPLAY_BUFFER_FULL_TIMEOUT, R337. -/
  | replayBufferFullTimeout (port : Nat)
  /-- CREDIT, R348. -/
  | credit (port : Nat) (cw : Option Codeword) (word : Nat)
  /-- CREDIT_COALESCE, R338. -/
  | creditCoalesce (chan : Nat)
  /-- REVOKE, R347. -/
  | revoke (port : Nat) (cw : Option Codeword) (word : Nat)
  /-- REWIND, R347. -/
  | rewind (port : Nat) (cw : Option Codeword) (word : Nat)
  /-- WCLOSED, R359. -/
  | wclosed (port : Nat) (cw : Option Codeword) (word : Nat)
  /-- STEP_TOKEN, R356. -/
  | stepToken (port : Nat) (cw : Option Codeword) (word : Nat)
  /-- WINDOW_OPEN_WORD, R345. -/
  | windowOpenWord (port : Nat) (cw : Option Codeword) (word : Nat)
  /-- WINDOW_OPEN_TIMEOUT, R345. -/
  | windowOpenTimeout (chan : Nat)
  /-- WINDOW_CLOSE_WORD, R358. -/
  | windowCloseWord (port : Nat) (cw : Option Codeword) (word : Nat)
  /-- WINDOW_CLOSE_TIMEOUT, R358. -/
  | windowCloseTimeout (chan : Nat)
  /-- LANE_MAP, R341. -/
  | laneMap (port : Nat) (cw : Option Codeword) (word : Nat)
  /-- LANE_MAP_ACK, R341. -/
  | laneMapAck (port : Nat) (cw : Option Codeword) (word : Nat)
  /-- LANE_ERROR_WINDOW, R341. -/
  | laneErrorWindow (port : Nat) (errors : List Nat)
  /-- LANE_SWITCH, R341. -/
  | laneSwitch (turn : LaneTurn)
  /-- BLOCK_LAND, R350. -/
  | blockLand (chan : Nat)
  /-- HBM_BLOCK_LAND, R353. -/
  | hbmBlockLand (chan : Nat)
  /-- EGRESS_BLOCK_SEND, R351. -/
  | egressBlockSend (block : BlockRead)
  /-- STREAM_HOLD_EXPIRY, R360. -/
  | streamHoldExpiry (port : Nat)
  /-- TRAIN_RETRY_TIMER, R339. -/
  | trainRetryTimer (port : Nat)
  /-- LANE_MARKERS_LOST, R341. -/
  | laneMarkersLost (port lane : Nat)
  /-- INPUT_START_THRESHOLD, R462. -/
  | inputStartThreshold
  /-- POWER_UP_HOLDOFF_EXPIRY, R467. -/
  | powerUpHoldoffExpiry
  /-- VOLTAGE_TOLERANCE_CHANGE, R464. -/
  | voltageToleranceChange (rail : Nat) (inside : Bool)
  /-- HOST_LINK_CHANGE, R410. -/
  | hostLinkChange (port : Nat) (up : Bool)
  /-- ECAT_LINK_CHANGE, R397. -/
  | ecatLinkChange (port : Nat) (up : Bool)
  deriving DecidableEq, Repr

end Sys2Proof
end

