-- ==== Sys2Proof/Decode.lean ====
section
/-! DEFINITION. The commands of the block travel as messages, dictionary requests and events; the command table gives
none of its rows a bit pattern, so no word spells a command. -/

namespace Sys2Proof

/-- The command that a word spells by the table's bits: the table gives no row bits. -/
def decodeTableWord (_nbits _w : Nat) : Option Instr := none

end Sys2Proof
end

