-- ==== Sys2Proof/Config.lean ====
section
/-! DEFINITION. The values that the spec leaves open or takes from another standard, as constants without a body: a claim
about them holds for every value they could have. -/

namespace Sys2Proof

/-- ML-DSA-44 verification of FIPS 204: public key, message, signature and context string (R444, R448, R449). -/
opaque Config.mldsaVerify : List Byte → List Byte → List Byte → List Byte → Bool

/-- The public key that ML-DSA-44 key generation derives from a 32-byte seed (R451), 1,312 bytes as a number. -/
opaque Config.mldsaPublic : List Byte → List Byte

/-- The private key that ML-DSA-44 key generation derives from a 32-byte seed (R451). -/
opaque Config.mldsaSecret : List Byte → List Byte

/-- The ML-DSA-44 signature under a private key over a message with a context string (R451 to R453). -/
opaque Config.mldsaSign : List Byte → List Byte → List Byte → List Byte

/-- A fresh value for the `n`-th use of a detail that the spec names but whose bits it does not lay out: the unit's
fault detail of classes 4, 6, 7 and 8 in a FAULT event (R383). -/
opaque Config.freeDetail : Nat → BitVec 32

/-- The texts of 0x1009 and 0x100A, which the spec does not give: the object and what the text is of, the fused stepping or the measurement
of the running firmware (R409). -/
opaque Config.text : Nat → Nat → List Byte

/-- What a reading of a sensor is where the spec gives no value: the objects 0x2A00 and 0x2A30 (R480). -/
opaque Config.reading : Nat → Nat

/-- How a section circuit goes on beyond a grid-side port: the image of the turn, the port 0–383 (96 per wing) and the circuit's
slots there (R38, R195 to R197). The spec says that the syllabus fixes the route and gives no encoding; `ringRoute` of
Sys2Proof/Machine/Ring.lean reads the number. -/
opaque Config.ringRoute : List Byte → Nat → Nat → Nat

/-- The slots of a CU's weight lane that the token circuits of its steering units hold: the image of the turn and the site (R482). The
spec says that the syllabus binds them and gives no encoding. -/
opaque Config.tokenSlots : List Byte → Nat → BitVec 8

/-- The payload of the `n`-th word of requests that an external-access port sends: the spec puts eight requests into a fabric
word and lays out none of their bits (R211). -/
opaque Config.requestWord : Nat → BitVec 1024

/-- The slot tag with which a Trien port writes a stream block into a ring, by block number (R163, R350): the spec gives the
port's access no TAG. -/
opaque Config.streamTag : Nat → BitVec 16

end Sys2Proof
end

