-- ==== Sys2Proof/Machine/Bits.lean ====
section
/-! DEFINITION. Bit fields, sign extension and byte order (R14: least significant byte first), and small list helpers. -/

namespace Sys2Proof.Machine

/-- Bits `lo + n - 1 .. lo` of `w`. -/
def fld (w lo n : Nat) : Nat := (w >>> lo) % 2 ^ n

/-- Bit `i` of `w`. -/
def bitOf (w i : Nat) : Bool := w.testBit i

/-- `w` with bits `lo + n - 1 .. lo` replaced by the low `n` bits of `v`. -/
def setFld (w lo n v : Nat) : Nat :=
  (w >>> (lo + n)) <<< (lo + n) + (v % 2 ^ n) <<< lo + w % 2 ^ lo

/-- 1 for true, 0 for false. -/
def b2n (b : Bool) : Nat := if b then 1 else 0

/-- The two's-complement reading of the low `n` bits of `w`. -/
def signed (n w : Nat) : Int :=
  let v := w % 2 ^ n
  if v < 2 ^ (n - 1) then (v : Int) else (v : Int) - (2 ^ n : Nat)

/-- The low `n` bits of the two's-complement form of `v`. -/
def unsignedOf (n : Nat) (v : Int) : Nat := (v % ((2 ^ n : Nat) : Int)).toNat

/-- The number whose bytes, least significant first, are `bs` (R14). -/
def leNat : List Byte → Nat
  | [] => 0
  | b :: bs => b.toNat + 256 * leNat bs

/-- The `n` bytes of `w`, least significant first (R14). -/
def leBytes : Nat → Nat → List Byte
  | 0, _ => []
  | n + 1, w => BitVec.ofNat 8 w :: leBytes n (w / 256)

/-- The 32-bit words of a byte string, least significant byte first. -/
def wordsOf : Nat → List Byte → List Nat
  | 0, _ => []
  | n + 1, bs => leNat (bs.take 4) :: wordsOf n (bs.drop 4)

/-- `n` bytes of `bs` from offset `o`, as a number. -/
def leAt (bs : List Byte) (o n : Nat) : Nat := leNat ((bs.drop o).take n)

/-- `bs` cut or padded with zero bytes to `n` bytes. -/
def padTo (n : Nat) (bs : List Byte) : List Byte :=
  bs.take n ++ List.replicate (n - bs.length) 0#8

/-- Rounds `n / d` up. -/
def ceilDiv (n d : Nat) : Nat := (n + d - 1) / d

/-- `v + k`, holding at the largest `n`-bit value (a saturating counter). -/
def satAdd (n v k : Nat) : Nat := min (v + k) (2 ^ n - 1)

/-- Serial comparison modulo `2 ^ n`: how far `a` lies ahead of `b`. -/
def seqDiff (n a b : Nat) : Nat := (a + 2 ^ n - b % 2 ^ n) % 2 ^ n

/-- The list with its element `i` replaced. -/
def setAt {α : Type} (l : List α) (i : Nat) (a : α) : List α := l.set i a

/-- The list with `f` applied to its element `i`. -/
def modAt {α : Type} (l : List α) (i : Nat) (f : α → α) : List α := l.modify i f

/-- The least natural number below `n` that `p` accepts. -/
def findBelow (n : Nat) (p : Nat → Bool) : Option Nat := (List.range n).find? p

/-- The sum of a list. -/
def sumOf (l : List Nat) : Nat := l.foldl (· + ·) 0

/-- The product of a list. -/
def prodOf (l : List Nat) : Nat := l.foldl (· * ·) 1

/-- The first element that `p` accepts, with the list without it. -/
def takeFirst {α : Type} (p : α → Bool) : List α → Option (α × List α)
  | [] => none
  | a :: l => if p a then some (a, l) else (takeFirst p l).map fun r => (r.1, a :: r.2)

/-- Bits of a mask that are set. -/
def popBits (m n : Nat) : Nat := ((List.range n).filter fun i => m.testBit i).length

end Sys2Proof.Machine
end

