-- ==== Sys2Proof/Machine/Keccak.lean ====
section
/-! DEFINITION. SHA3-256 of FIPS 202, which R256, R443, R444, R449, R451 and R453 name: the Keccak-f[1600] permutation on
twenty-five 64-bit lanes, rate 136 bytes, domain bits 01. -/

namespace Sys2Proof.Machine

/-- A 64-bit lane rotated left by `n` bits. -/
def rotl64 (v n : Nat) : Nat := ((v <<< n) ||| (v >>> (64 - n))) % 2 ^ 64

/-- A number for every lane, given by its column and row; lane (x, y) stands at 5y + x. -/
def lanesOf (f : Nat → Nat → Nat) : List Nat := (List.range 25).map fun n => f (n % 5) (n / 5)

/-- Lane (x, y), with its column and row taken modulo 5. -/
def laneAt (a : List Nat) (x y : Nat) : Nat := a.getD (5 * (y % 5) + x % 5) 0

/-- Rotation counts of step ρ: the walk from lane (1, 0) by (x, y) ↦ (y, 2x + 3y) meets lane number t + 1 with the t-th
triangular number. -/
def rhoWalk : Nat → Nat → Nat → Nat → List Nat → List Nat
  | 0, _, _, _, m => m
  | n + 1, t, x, y, m => rhoWalk n (t + 1) y ((2 * x + 3 * y) % 5) (m.set (5 * y + x) ((t + 1) * (t + 2) / 2 % 64))

/-- One step of the shift register of step ι, whose polynomial is x⁸ + x⁶ + x⁵ + x⁴ + 1. -/
def iotaShift (r : Nat) : Nat := if r < 128 then 2 * r else (2 * r) ^^^ 0x171

/-- The next round's constant, seven outputs of the register, which stand at the bits 0, 1, 3, 7, 15, 31 and 63. -/
def iotaWord : Nat → Nat → Nat → Nat → Nat × Nat
  | 0, _, r, w => (w, r)
  | n + 1, p, r, w => iotaWord n (2 * p) (iotaShift r) (w + r % 2 * 2 ^ (p - 1))

/-- The constants of the rounds to come. -/
def iotaWords : Nat → Nat → List Nat
  | 0, _ => []
  | n + 1, r => let w := iotaWord 7 1 r 0
                w.1 :: iotaWords n w.2

/-- One round with its rotation counts and its constant: θ adds to every lane the parity of the column before it and that of
the column after it turned by one, ρ and π turn the lanes and move them, χ is the row-wise step, and ι alters lane (0, 0). -/
def keccakRound (rho a : List Nat) (rc : Nat) : List Nat :=
  let parity := (List.range 5).map fun x => (List.range 5).foldl (fun v y => v ^^^ laneAt a x y) 0
  let mixed := lanesOf fun x y => laneAt a x y ^^^ laneAt parity (x + 4) 0 ^^^ rotl64 (laneAt parity (x + 1) 0) 1
  let moved := lanesOf fun x y => rotl64 (laneAt mixed (x + 3 * y) x) (laneAt rho (x + 3 * y) x)
  lanesOf fun x y =>
    let keep := 2 ^ 64 - 1 - laneAt moved (x + 1) y
    (if x + y = 0 then rc else 0) ^^^ laneAt moved x y ^^^ (keep &&& laneAt moved (x + 2) y)

/-- Keccak-f[1600]. -/
def keccakF (a : List Nat) : List Nat :=
  (iotaWords 24 1).foldl (keccakRound (rhoWalk 24 0 1 0 (List.replicate 25 0))) a

/-- Adds a block of 136 bytes, the rate, to the lanes: lane n < 17 takes its eight bytes. -/
def addBlock (a : List Nat) (blk : List Byte) : List Nat :=
  lanesOf fun x y =>
    let n := 5 * y + x
    laneAt a x y ^^^ (if n < 17 then leNat ((blk.drop (8 * n)).take 8) else 0)

/-- Absorbs whole blocks of the padded message. -/
def keccakAbsorb : Nat → List Byte → List Nat → List Nat
  | 0, _, a => a
  | n + 1, bs, a => keccakAbsorb n (bs.drop 136) (keccakF (addBlock a (bs.take 136)))

/-- The padded message. -/
def sha3Pad (m : List Byte) : List Byte :=
  let n := 136 - m.length % 136
  if n = 1 then m ++ [0x86#8] else m ++ [0x06#8] ++ List.replicate (n - 2) 0#8 ++ [0x80#8]

/-- SHA3-256. -/
def sha3 (m : List Byte) : List Byte :=
  let p := sha3Pad m
  ((keccakAbsorb (p.length / 136) p (List.replicate 25 0)).take 4).flatMap (leBytes 8)

end Sys2Proof.Machine
end

