-- ==== Sys2Proof/Machine/Identity.lean ====
section
/-! DEFINITION. The identity of a module: the keys that the ROM derives and what it leaves of them to the firmware (R451, R452). -/

namespace Sys2Proof.Machine

/-- The bytes of a text (ASCII). -/
def ascii (t : String) : List Byte := t.toList.map fun c => BitVec.ofNat 8 c.toNat

/-- What the ROM leaves of its keys: the alias key's private part with its endorsement, and the device's public key, which 0x2930:04
serves (R451, R452, R454). -/
structure Ident where
  secret : List Byte
  endorse : List Byte
  device : List Byte
  deriving DecidableEq, Repr

/-- The seed of the device key. -/
def deviceSeed (uds : Nat) : List Byte := sha3 (ascii "LEROA-DEVICE" ++ leBytes 32 uds)

/-- The seed of the alias key. -/
def aliasSeed (uds measure : Nat) : List Byte := sha3 (ascii "LEROA-ALIAS" ++ leBytes 32 uds ++ leBytes 32 measure)

/-- The alias endorsement (R452): product code, serial number, and the image's measurement, version, SVN and rollback counter at boot. -/
def endorsement (uds product serial measure version svn counter : Nat) : List Byte :=
  let body := leBytes 4 0x494C4153 ++ leBytes 2 0x0100 ++ leBytes 2 0 ++ leBytes 4 product ++ leBytes 4 serial ++
    leBytes 32 measure ++ leBytes 4 version ++ leBytes 1 svn ++ leBytes 1 counter ++ leBytes 10 0 ++
    padTo 1312 (Config.mldsaPublic (aliasSeed uds measure))
  body ++ padTo 2420 (Config.mldsaSign (Config.mldsaSecret (deviceSeed uds)) (sha3 body) (ascii "SALI"))

/-- What the ROM leaves to the firmware; the private part of the device key and both seeds are erased (R451). -/
def identWith (uds product serial measure version svn counter : Nat) : Ident :=
  { secret := Config.mldsaSecret (aliasSeed uds measure), endorse := endorsement uds product serial measure version svn counter,
    device := padTo 1312 (Config.mldsaPublic (deviceSeed uds)) }

end Sys2Proof.Machine
end

