-- ==== Sys2Proof/Machine/Sparse.lean ====
section
/-! DEFINITION. Maps held as sorted lists in one canonical form: keys strictly rising and no entry equal to what an
unlisted key reads as. Memories are such maps from addresses to bytes. -/

namespace Sys2Proof.Machine

/-- A map from numbers, as its entries that differ from the default. -/
abbrev Sparse (α : Type) := List (Nat × α)

/-- A byte memory (Host.Cell); an address that is not listed reads as zero. -/
abbrev Mem := List Host.Cell

/-- The value at a key. -/
def sget {α : Type} (d : α) (m : Sparse α) (k : Nat) : α :=
  match m with
  | [] => d
  | (j, v) :: r => if j = k then v else sget d r k

/-- The entries of a run of consecutive keys that differ from the default. -/
def cellsOf {α : Type} [DecidableEq α] (d : α) : Nat → List α → Sparse α
  | _, [] => []
  | k, v :: vs => if v = d then cellsOf d (k + 1) vs else (k, v) :: cellsOf d (k + 1) vs

/-- The map with the keys from `k` on set to `vs`. -/
def splice {α : Type} [DecidableEq α] (d : α) (m : Sparse α) (k : Nat) (vs : List α) : Sparse α :=
  m.filter (fun e => decide (e.1 < k)) ++ cellsOf d k vs ++ m.filter (fun e => decide (k + vs.length ≤ e.1))

/-- The map with one key set. -/
def sset {α : Type} [DecidableEq α] (d : α) (m : Sparse α) (k : Nat) (v : α) : Sparse α := splice d m k [v]

/-- The map with one value changed. -/
def smod {α : Type} [DecidableEq α] (d : α) (m : Sparse α) (k : Nat) (f : α → α) : Sparse α :=
  sset d m k (f (sget d m k))

/-- The canonical form: keys strictly rising, no default listed. -/
def sparseWf {α : Type} [DecidableEq α] (d : α) : Sparse α → Bool
  | [] => true
  | (k, v) :: r => (v != d) && (r.all fun e => decide (k < e.1)) && sparseWf d r

/-- The bytes from `a` to `a + n - 1`. -/
def mread (m : Mem) (a n : Nat) : List Byte := (List.range n).map fun i => sget 0#8 m (a + i)

/-- Stores bytes from `a` on. -/
def mwrite (m : Mem) (a : Nat) (bs : List Byte) : Mem := splice 0#8 m a bs

/-- Sets the `n` bytes from `a` on to zero. -/
def mclear (m : Mem) (a n : Nat) : Mem := m.filter fun e => decide (e.1 < a) || decide (a + n ≤ e.1)

/-- The canonical form of a memory. -/
def memWf (m : Mem) : Bool := sparseWf 0#8 m

/-- `n` bytes from `a` as a number, least significant first (R14). -/
def mnat (m : Mem) (a n : Nat) : Nat := leNat (mread m a n)

end Sys2Proof.Machine
end

