-- ==== Sys2Proof/Machine/State.lean ====
section
/-! DEFINITION. The state of the module as plain data: the fuses, the device clock, the queue of waiting commands, and
every register, buffer, counter and mode the spec gives the block. Reset is the starting state of R457. -/

namespace Sys2Proof.Machine

/-- The fuses (R438, R446). -/
structure Fuses where
  product : W32
  serial : W32
  revision : W32
  uds : BitVec 256
  keyHash : List (BitVec 256)
  revoked : BitVec 4
  counter : BitVec 63
  pairs : List (Nat × Nat)
  mac : List (BitVec 48)
  deriving DecidableEq, Repr

/-! ## Fabric -/

/-- The traffic of an external-access port: the MU's site, the queue, the number of the EAD, and whether the word holds requests
or data (R210, R211). -/
structure PortTag where
  site : Nat
  queue : Nat
  key : Nat
  ask : Bool
  deriving DecidableEq, Repr

/-- A fabric word with the sideband fields that outlive its slot (R178). `req` marks the requests, the write data and the read
data of an external-access port, which the ring and the port tell apart from lane data. -/
structure FWord where
  data : List Byte
  term : Nat
  tag : Nat
  last : Bool
  req : Option PortTag
  deriving DecidableEq, Repr

/-- A word on a wire: the site it reaches, the switch input port 0–7 or unit lane 8 + l, and the slot it travels in. Site 2048 + G
is the ring beyond grid-side port G, where `port` is the circuit entry that the word left by; site 2432 + e is the far endpoint of
bridge direction e. -/
structure Flight where
  site : Nat
  port : Nat
  slot : Nat
  word : FWord
  deriving DecidableEq, Repr

/-- A word that a ring attachment sends into the grid: the perimeter site, its outside port and the slots of the circuit
(R195, R211). -/
structure Inbound where
  site : Nat
  port : Nat
  slots : Nat
  word : FWord
  deriving DecidableEq, Repr

/-- A section circuit beyond a grid-side port that crosses bridges (R196, R197): the entry it leaves by, the bridge directions it
crosses with the slots it holds on each, the grid-side port it leaves the far ring by with its slots there, and the words in the
buffer of each far endpoint. Bridge direction 2b leads to the later wing of bridge b, 2b + 1 back. -/
structure RingCirc where
  term : Nat
  site : Nat
  port : Nat
  entry : Nat
  hops : List (Nat × List Nat)
  far : Nat
  slots : Nat
  bufs : List (List FWord)
  deriving DecidableEq, Repr

/-- What a fault records beside its fault word and status words, with the unit's site first: LINK_UNCORRECTABLE (R179),
TERM_STALE (R194), RED_TAG_MISMATCH (R191), a rejoin (R192), a blocked access of a generator 0–3 or queue 4–11 with its ring and
slot or address (R166), an external access (R205, R207), CTR_OVERRUN (R232), a wait or block that the watchdog ends (R243), ORPHAN
(R250), a handle (R122), a lane whose head passes no tag matches (R124), and a unit store (R419). -/
inductive FaultRec
  | link (site port slot : Nat)
  | stale (site port slot term tag : Nat)
  | reduce (site tagA tagB : Nat)
  | rejoin (site full starved tag : Nat)
  | access (site gen ring at_ tag : Nat)
  | external (site queue tag addr : Nat)
  | counter (site ctr inc : Nat)
  | wait (site resource : Nat) (target : Int) (value tag : Nat)
  | orphan (site ctr obj value : Nat) (target : Int)
  | handle (site handle tag : Nat)
  | lane (site lane tag : Nat)
  | sram (site store addr : Nat)
  deriving DecidableEq, Repr

/-- A credit on its way back to the sender's site, output port and slot, with its CR_TERM (R178, R183). -/
structure Credit where
  site : Nat
  port : Nat
  slot : Nat
  term : Nat
  deriving DecidableEq, Repr

/-- A signal packet in the mesh: its route, destination, increment and the sender's Term (R240). `obj` is an object
destination, `site` and `ctr` a counter. -/
structure Packet where
  src : Nat
  route : Nat
  obj : Option Nat
  site : Nat
  ctr : Nat
  inc : Nat
  term : Nat
  deriving DecidableEq, Repr

/-- One site's switch (R180 to R201). -/
structure Switch where
  stores : Mem
  term : Nat
  bufs : Sparse (List (Flight))
  used : Sparse Nat
  lastStale : BitVec 8
  stale : W32
  ce : W32
  fault : W32
  deriving DecidableEq, Repr

/-! ## Units -/

/-- A counter and what Roll Call reports of it (R232, R251). -/
structure Ctr where
  value : Nat
  lastSrc : W32
  lastTime : Nat
  flags : W32
  deriving DecidableEq, Repr

/-- A tile grant (R226). -/
structure Grant where
  tile : Nat
  tagBase : Nat
  fin : Bool
  term : Nat
  deriving DecidableEq, Repr

/-- A decoded pass in the issue window: its descriptor's place and the repetition (R113, R114, R123). -/
structure Pass where
  desc : Nat
  rep : Nat
  handle : Nat
  tag : Nat
  alloc : Bool
  last : Bool
  loaded : Bool
  deriving DecidableEq, Repr

/-- What the weight lane's ordered stream carries next (R482): slot-load data, a tile, a column table, or the element
input of an ordered drain. -/
inductive Item
  | load (handle : Nat) (kind : AccKind)
  | tile (act wgt : Fmt) (wexp : Bool)
  | table (n : Nat)
  | elem (handle : Nat) (fmt : Fmt)
  deriving DecidableEq, Repr

/-- A weight tile in the cells (R116, R117). -/
structure Tile where
  act : Fmt
  wgt : Fmt
  wexp : Bool
  wxc : Nat
  block : List Byte
  rows : List Byte
  deriving DecidableEq, Repr

/-- The states of a handle (R118). -/
inductive HandleSt
  | unbound | accum | ready | draining
  deriving DecidableEq, Repr

/-- A handle as decode leaves it: its state, its physical slot, the kind of its passes, whether its drain has been ordered
and with which program (7: none), whether a TYPE 0x3 descriptor ordered it, and the element input that has arrived for it (R79, R118, R122, R482). -/
structure Handle where
  st : HandleSt
  slot : Option Nat
  kind : Option AccKind
  ordered : Bool
  prog : Nat
  byDesc : Bool
  elem : Option (List Byte)
  deriving DecidableEq, Repr

/-- An accumulator slot: 4,096 element codes, row by row (R112, R119 to R122). -/
structure Slot where
  bound : Bool
  elems : Sparse Nat
  kind : Option AccKind
  sat : Bool
  deriving DecidableEq, Repr

/-- A READY slot in READY order; `ready` says that its drain is ordered, `tok0` and `tok1` are the tokens it has matched (R126);
`byDesc` says that a TYPE 0x3 descriptor ordered the drain (R298). -/
structure DrainReq where
  handle : Nat
  slot : Nat
  prog : Nat
  tag : Nat
  tok0 : Option Nat
  tok1 : Option Nat
  ready : Bool
  byDesc : Bool
  deriving DecidableEq, Repr

/-- The slot the drain holds (R128). -/
structure Drain where
  req : DrainReq
  sat : Bool
  elem : List Byte
  elems : Option (Sparse Nat)
  deriving DecidableEq, Repr

/-- What a drain runs: its program's header, words and constants, and the column tables in force (R113, R129, R131). -/
structure DrainProg where
  head : Nat
  code : List Nat
  consts : List Nat
  tables : Sparse Nat
  deriving DecidableEq, Repr

/-- A slot of a held step (R97, R134): its CU, the channel and its circuit's slots, the number of its drain, the index of its first
element in the calibration buffer, and the drain that the release pass runs once more. -/
structure HeldSlot where
  site : Nat
  chan : Nat
  circ : Nat
  num : Nat
  first : Nat
  drain : Drain
  prog : DrainProg
  deriving DecidableEq, Repr

/-- A streaming pass and the next activation vector it takes (R136). -/
structure Firing where
  pass : Pass
  row : Nat
  deriving DecidableEq, Repr

/-- A Compute Unit (R111 to R139). `tokSlots` are the slots of its token circuits and `tokIn` the token words that have come in them
(R482); an entry of `outq` carries the number of the drain that sends it and its program (R239), and `drains` counts them;
`runOut` is the handle whose ordered drain runs to its end although the context is in DETENTION (R122). -/
structure CU where
  stores : Mem
  term : Nat
  ctrs : Sparse Ctr
  grantN : Nat
  grants : List Grant
  cur : Option Grant
  run : Bool
  fin : Bool
  pos : Nat
  rep : Nat
  gateOpen : Bool
  waitSince : Option Nat
  act : List Flight
  wgt : List Flight
  wgtOff : Nat
  items : List Item
  itemBuf : List Byte
  shadow : Option Tile
  active : Option Tile
  window : List Pass
  firing : Option Firing
  streamed : List Pass
  handles : Sparse Handle
  committed : Nat
  slots : Sparse Slot
  ready : List DrainReq
  drain : Option Drain
  tables : Sparse Nat
  tokens : List (Nat × Nat × Nat)
  steered : BitVec 2
  tile : Bool
  tokSlots : BitVec 8
  tokIn : List Flight
  outq : List (Nat × FWord × Option (Nat × Nat))
  drains : Nat
  runOut : Option Nat
  steerDrop : W32
  fault : W32
  deriving DecidableEq, Repr

/-- A scoreboard entry: descriptor number, read or write, footprint (R162). -/
structure SbEnt where
  id : Nat
  write : Bool
  lo : Nat
  hi : Nat
  deriving DecidableEq, Repr

/-- The states of a slot tag (R163). -/
inductive TagSt
  | empty | filling | full | draining
  deriving DecidableEq, Repr

/-- A slot tag with the accesses of its direction still in flight (R163). -/
structure SlotTag where
  st : TagSt
  tag : Nat
  open_ : Nat
  lastDue : Bool
  deriving DecidableEq, Repr

/-- The pointers of a ring (R219). -/
structure Ring where
  head : Nat
  tail : Nat
  occ : Nat
  opened : Bool
  full : BitVec 16
  deriving DecidableEq, Repr

/-- The position of an issue list (R222). -/
structure ListPos where
  pos : Nat
  rep : Nat
  fin : Bool
  waitSince : Option Nat
  deriving DecidableEq, Repr

/-- A descriptor issued with its offsets and tag (R223). -/
structure Issued where
  id : Nat
  idx : Nat
  off : List Int
  tag : Nat
  deriving DecidableEq, Repr

/-- A generator's descriptor: the ring slot of each of its accesses, its number in the scoreboard (0 before it has
entered), the lane bytes not yet stored, the elements, rows or indices done, and since when it is blocked (R154, R166). -/
structure Gen where
  iss : Option Issued
  started : Bool
  slots : List Nat
  key : Nat
  buf : List Byte
  done : Nat
  blockedSince : Option Nat
  deriving DecidableEq, Repr

/-- An EAD in a decoupling queue (R210, R213): `words` counts the data words that it moves at the controllers, `due` its outbound words
that have not reached them, `wdone` the data words they have read or written, `need` and `got` the inbound words it takes; `buf` holds
the bytes of these, and `done` counts the elements delivered. -/
structure Ead where
  iss : Issued
  slots : List Nat
  key : Nat
  sent : Bool
  blockedSince : Option Nat
  words : Nat
  due : Nat
  wdone : Nat
  need : Nat
  got : Nat
  buf : List Byte
  done : Nat
  deriving DecidableEq, Repr

/-- The requests for data word `n` of an EAD that have reached the controllers, with its bytes when it is written (R210). -/
structure CtlReq where
  site : Nat
  queue : Nat
  key : Nat
  n : Nat
  data : List Byte
  deriving DecidableEq, Repr

/-- A word that waits to leave an MU: its lane, its circuit's slots, and the counter that is signalled as it leaves (R148). -/
structure OutWord where
  lane : Nat
  slots : Nat
  word : FWord
  mark : Option Nat
  deriving DecidableEq, Repr

/-- A Memory Unit (R143 to R175, R210 to R230). -/
structure MU where
  stores : Mem
  term : Nat
  ctrs : Sparse Ctr
  grantN : Nat
  grants : List Grant
  cur : Option Grant
  run : Bool
  fin : Bool
  spad : Mem
  sb : List SbEnt
  nextId : Nat
  tags : Sparse SlotTag
  rings : Sparse Ring
  lists : Sparse ListPos
  pend : Sparse (Option Issued)
  gens : Sparse Gen
  queues : Sparse (List Ead)
  lanes : Sparse (List Flight)
  outq : List OutWord
  clampTab : Sparse Nat
  clamps : W32
  hmLog : W32
  fault : W32
  faultAt : W32
  scatSat : Bool
  tagMode : Bool
  hmEn : Bool
  foot : List (Nat × Nat)
  tcNext : Nat
  tcEnded : List Nat
  tcGiven : Sparse Nat
  deriving DecidableEq, Repr

/-! ## Contexts -/

/-- The states of a context (R279). -/
inductive CtxSt
  | free | opened | loaded | running | recess | detention | closing
  deriving DecidableEq, Repr

/-- Where a command's events go: queue and cookie (R374, R381), with the connection and the host it came from. -/
structure CmdRef where
  queue : Nat
  cookie : W32
  silent : Bool
  conn : Nat
  host : Nat
  deriving DecidableEq, Repr

/-- A launch (R377) with its number (R383). -/
structure Launch where
  num : Nat
  shape : List Nat
  exports : List (Option Nat)
  imports : List (Option Nat)
  cmd : CmdRef
  auto : Bool
  deriving DecidableEq, Repr

/-- A loaded syllabus: the relocated file, the shift of every turn and wing, and what admitted it (R262, R265, R453). -/
structure Syllabus where
  file : List Byte
  shift : List Int
  bases : List Nat
  level : Nat
  policy : Nat
  signer : Nat
  deriving DecidableEq, Repr

/-- A load in progress (R262). -/
structure Loading where
  cmd : CmdRef
  addr : Nat
  rkey : Nat
  length : Nat
  level : Nat
  echo : Nat
  bases : List Nat
  policy : Nat
  keys : List Nat
  deriving DecidableEq, Repr

/-- A run (R284, R321, R322). `staged` until its release, `writing` while its first turn is being staged, `held` at a turn
boundary under a Recess request; `bridge` counts the section slots that its configuration holds on each bridge direction
(R196); `posted` says that the primary has completed the run and its RUN_DONE is posted (R327, R433). -/
structure Run where
  launch : Launch
  turn : Nat
  start : Nat
  zero : Bool
  zeroDone : Bool
  anyZero : Bool
  held : Bool
  staged : Bool
  writing : Bool
  bridge : List Nat
  entry : Option (Nat × Nat × Nat)
  deadline : Option Nat
  timeUp : Bool
  phaseUp : Bool
  posted : Bool
  deriving DecidableEq, Repr

/-- A quantised tensor: step maxima newest first, previous scale, and the partial of the step in progress (R90 to R107).
`clamp` holds the clamp counts of earlier turns of the logical section, `merged` says that the step of the run has ended;
`heldBuf` holds the slots of a held step whose release pass has not run, and `heldDone` those of a release pass that has not sent
its last word: the CU, the number of the drain and its program (R97, R239). `steps` is the number of the step in progress or to come, and `next` holds the scales that
the home MU has formed for coming steps, each with the number of its step, s, r and FLAGS [5:2] (R95). -/
structure Tensor where
  hist : List Nat
  prev : Option (Nat × Nat)
  cur : Option (Nat × Nat)
  flags : Nat
  held : Bool
  active : Bool
  sqe : Nat
  count : Nat
  maxAbs : Nat
  sat : Nat
  nan : Nat
  acc : Nat
  clamp : Nat
  merged : Bool
  heldBuf : List HeldSlot
  heldDone : List (Nat × Nat × Nat)
  steps : Nat
  next : List (Nat × Nat × Nat × Nat)
  deriving DecidableEq, Repr

/-- A Report Card (R105). -/
structure RCard where
  sqe : Nat
  count : Nat
  maxAbs : Nat
  scale : Nat
  sat : Nat
  nan : Nat
  clamp : Nat
  acc : Nat
  steps : Nat
  flags : Nat
  deriving DecidableEq, Repr

/-- A Recess request in progress (R293, R294). -/
structure RecessReq where
  since : Nat
  byHost : Bool
  cmds : List CmdRef
  saving : Bool
  deriving DecidableEq, Repr

/-- A close in progress (R298). -/
structure Closing where
  cmd : Option CmdRef
  since : Nat
  forced : Bool
  deriving DecidableEq, Repr

/-- An extent being zeroed, with the base of the copy that its twin uses: the extent itself without twins (R282, R432). -/
structure Granting where
  base : Nat
  len : Nat
  shadow : Nat
  cmd : CmdRef
  deriving DecidableEq, Repr

/-- A pending OBJ_WAIT (R247). -/
structure HostWait where
  cmd : CmdRef
  host : Nat
  ctx : Nat
  target : Nat
  deriving DecidableEq, Repr

/-- A shared object (R245 to R250). `owner` is none once the owner is gone. -/
structure Obj where
  valid : Bool
  value : Nat
  sig : W16
  orphan : Bool
  owner : Option Nat
  importers : List (Nat × Nat)
  away : List (Nat × Nat × Nat)
  waits : List HostWait
  deriving DecidableEq, Repr

/-- A context (R279 to R300). `cmp` holds the object increments of one twin that the other has not yet matched (R433);
`twinSite` is the site whose unit raised the fault of `twinFault`, and `twinErr` says for the primary and the shadow that it has met an
uncorrectable error since the last comparison that agreed (R434); `promoted` says that its strips and extents are those of its promoted twin (R435); `bind` holds the bindings of the last accepted launch
(R377); `record` holds what its last fault recorded; `heldObjs` holds the objects it owns or imports as they stood at the save or the
fault (R253); `before` holds the Report Cards and tensors of before the run in progress, which an
aborted run leaves (R323); `heldRun` is the run whose state a context in DETENTION holds (R253, R296); `saved` says that the save area holds the state of a
Recess, and the strips are not the context's own (R291); it stays set when a context in RECESS is detained. -/
structure Ctx where
  st : CtxSt
  host : Nat
  lc : Bool
  lend : Bool
  weight : Nat
  tt : Nat
  level : Nat
  fault : W16
  strips : Nat
  stripUs : Nat
  holdSince : Option Nat
  charged : Nat
  quantumAt : Nat
  pbound : Nat
  recessCount : Nat
  version : Nat
  evq : Nat
  extents : List (Nat × Nat)
  shadow : List (Nat × Nat)
  granting : List Granting
  loading : Option Loading
  syl : Option Syllabus
  launches : List Launch
  pend : Bool
  launchNo : Nat
  last : Option Launch
  bind : List (Option Nat) × List (Option Nat)
  run : Option Run
  heldRun : Option Run
  resume : List CmdRef
  hostHold : Bool
  recess : Option RecessReq
  rewind : Bool
  heldState : Bool
  saved : Bool
  cus : Sparse CU
  mus : Sparse MU
  sws : Sparse Switch
  teardown : Option Nat
  closing : Option Closing
  loadStatus : Nat
  vtime : Nat
  cards : Sparse RCard
  tensors : Sparse Tensor
  before : Option (Sparse RCard × Sparse Tensor)
  resets : List (Nat × Nat × Option CmdRef)
  twinFault : Option (Nat × Bool × W16)
  twinSite : Option Nat
  twinErr : Bool × Bool
  cmp : List (Nat × Bool × Nat)
  promoted : Bool
  termWait : Bool
  record : Option FaultRec
  heldObjs : Sparse Obj
  deriving DecidableEq, Repr

/-! ## Hosts -/

/-- A connection (R368 to R373). -/
structure Conn where
  live : Bool
  host : Nat
  lastPacket : Nat
  rate : Nat
  lastCnp : Nat
  retries : Nat
  rnrs : Nat
  bufs : List Nat
  deriving DecidableEq, Repr

/-- An event before it takes a SEQ (R383). -/
structure EvRec where
  kind : Nat
  status : Nat
  fault : W16
  cookie : W32
  ctx : Nat
  flags : Nat
  detail : Nat
  deriving DecidableEq, Repr

/-- A queue (R380 to R382). -/
structure Queue where
  live : Bool
  host : Nat
  conn : Nat
  addr : Nat
  rkey : W32
  log2 : Nat
  seq : W16
  ack : W16
  held : List EvRec
  lost : Nat
  deriving DecidableEq, Repr

/-- A memory window (R384 to R386). -/
structure MWin where
  st : Nat
  ctx : Nat
  base : Nat
  len : Nat
  hosts : W16
  rd : Bool
  wr : Bool
  gen : Nat
  cmd : Option CmdRef
  deriving DecidableEq, Repr

/-- A host (R370, R372) with its recent dictionary requests (R401). -/
structure HostSt where
  state : Nat
  lostAt : Nat
  recent : List (Nat × Nat × List Byte)
  deriving DecidableEq, Repr

/-- The lead-host lease (R387). -/
structure Lease where
  holder : Option Nat
  term : Nat
  expiry : Nat
  cmd : Option CmdRef
  deriving DecidableEq, Repr

/-- A device RDMA operation that a command waits on: a result write or a syllabus read (R378). -/
structure Rdma where
  conn : Nat
  cmd : CmdRef
  ctx : Nat
  status : Nat
  detail : Nat
  isLoad : Bool
  sent : Bool
  deriving DecidableEq, Repr

/-- The PTP servo and clock of a host port (R390). -/
structure Ptp where
  locked : Bool
  good : Nat
  offset : Int
  time : Nat
  at_ : Nat
  interval : Nat
  corr : Int
  deriving DecidableEq, Repr

/-! ## Phase and Timetable -/

/-- The states of a phase source (R307, R312). -/
inductive SrcSt
  | off | acquiring | locked | lost
  deriving DecidableEq, Repr

/-- A phase source (R301 to R312): `phase` and `high` are 48.16. -/
structure Source where
  st : SrcSt
  phase : Nat
  high : Nat
  stamps : List Nat
  lastEvent : Nat
  stale : Nat
  illegal : Nat
  losses : Nat
  zFaults : Nat
  zSeen : Bool
  deriving DecidableEq, Repr

/-- An entry that H has passed and that has not yet acted (R316). -/
structure Due where
  tt : Nat
  entry : Nat
  cycle : Nat
  phase : Nat
  start : Bool
  deriving DecidableEq, Repr

/-- A timetable (R313 to R331). `state` is 0 disabled, 1 enabled, 3 quiescing; `first` and `count` are the active range;
`base` holds, by cycle, the values of all objects at its last RELEASE, or before one at the cycle's start, that a CHECK compares with
(R315); `deferUp` says that the phase and the time deadline of the deferred release have
passed (R322). -/
structure Timetable where
  state : Nat
  first : Nat
  count : Nat
  cycle : Option Nat
  firstCycle : Nat
  next : Nat
  base : List (Nat × Sparse Nat)
  deferred : Option (Nat × Nat × Nat)
  deferUp : Bool × Bool
  cycles : Nat
  runs : Nat
  misses : Nat
  missesUnl : Nat
  overruns : Nat
  skipped : Nat
  noRun : Nat
  minSlack : Nat
  error : Nat
  quiesceAt : Nat
  deriving DecidableEq, Repr

/-! ## Trien -/

/-- The link states of R339. -/
inductive Link
  | disabled | down | train | negotiate | up | retrain | incompatible
  deriving DecidableEq, Repr

/-- A DATA or CONTROL frame to send: its header, its body, and its class in the order of R349: 0 CONTROL, 1 DATA of an LC context, 2 other
DATA. -/
structure TxFrame where
  cls : Nat
  hdr : Nat
  body : List Byte
  deriving DecidableEq, Repr

/-- A Trien port (R332 to R341, R363). `replay` holds the frames sent and not acknowledged, by SEQ; `sendq` the ones for which the replay
buffer has no room. `map` and `pendMap` are the lane map of the direction received and the one to change to; `laneAsk` is the map asked for
and not yet confirmed; `txMap` and `txPend` are those of the direction sent. `txIdx` is the index of the next codeword sent, `bip` and
`prbs` what the lanes have sent since the last marker, `rxIdx` the index last received, `ctlRest` the words of the CONTROL frame in hand
that are still to be acted on, `locked` a retrain that has trained and negotiates, `turn` the local channels of an LC context and of another that have sent a block last
(R349). -/
structure TPort where
  link : Link
  since : Nat
  cause : Nat
  version : Nat
  lanesOk : BitVec 5
  map : BitVec 12
  spareUsed : Bool
  pendMap : Option (Nat × Nat)
  laneAsk : Option Nat
  txMap : BitVec 12
  txPend : Option (Nat × Nat)
  txIdx : BitVec 12
  rxIdx : Option (BitVec 12)
  bip : List Nat
  prbs : Nat
  locked : Bool
  turn : Nat × Nat
  rtt : Nat
  echoes : List (Nat × Nat)
  offered : Option (Nat × Nat × Nat × Nat)
  confirmed : Option (Nat × Nat)
  partner : BitVec 64
  expect : BitVec 12
  nextSeq : BitVec 12
  replay : List (Nat × TxFrame)
  sendq : List TxFrame
  replayFull : Option Nat
  nakAt : Option Nat
  naks : Nat
  lastFrame : Nat
  ctlRest : List Nat
  notUpSince : Option Nat
  protoAt : List Nat
  uncorr : Nat
  crcErr : Nat
  replayed : Nat
  retrains : Nat
  trainFails : Nat
  protoErr : Nat
  light : Bool
  lit : BitVec 5
  deriving DecidableEq, Repr

/-- The states of a stream window (R344). -/
inductive WinSt
  | closed | opening | opened | closing | lost
  deriving DecidableEq, Repr

/-- A stream channel and its window (R342 to R365). `skip` is the block whose further frames are discarded without comment (R348). -/
structure Chan where
  st : WinSt
  wd : Nat
  cmd : Option CmdRef
  closeCmd : Option CmdRef
  since : Nat
  cursor : W32
  acked : W32
  limit : W32
  revoked : Bool
  rewind : Bool
  forced : Bool
  fin : Option W32
  partnerClosed : Bool
  heldOpen : Option (Nat × Nat)
  part : List Byte
  partBlock : Option (Nat × Nat)
  skip : Option Nat
  landing : List (List Byte)
  held : List (List Byte)
  freed : W32
  sent : W32
  events : Nat
  p0 : Nat
  c0 : Nat
  creditAt : Option Nat
  shadowCrc : Option Nat
  egressAt : Option Nat
  duplicates : Nat
  discarded : Nat
  wclosed : Nat
  violations : Nat
  deriving DecidableEq, Repr

/-! ## Device health, boot and power -/

/-- The wing states of R436. -/
inductive WingSt
  | active | twinPrimary | twinShadow | fenced | failed
  deriving DecidableEq, Repr

/-- A wing: state, fence object, retired pair, spare pair unavailable, failed pair not yet retired with its cause, the contexts
that the retirement recessed, the cause of the last state change, the SRAM counts, and `remapDue` while step 3 of R422 is due
(R418, R419, R422, R436, R437). -/
structure Wing where
  st : WingSt
  fence : Bool
  retired : Option Nat
  spareBad : Bool
  retiring : Option (Nat × W16)
  recessed : List Nat
  cause : W16
  corrections : Nat
  uncorr : Nat
  remapDue : Bool
  deriving DecidableEq, Repr

/-- A pseudo-channel and its replacement (R424): `recent` holds the FCLK of its corrections within the last hour, `badWords` counts the
words at which it has returned uncorrectable data since it was last replaced, `dead` holds the spares that have failed in its place. -/
structure PChan where
  failing : Bool
  copying : Option Nat
  spare : Option Nat
  dead : List Nat
  recent : List Nat
  badWords : Nat
  cause : W16
  deriving DecidableEq, Repr

/-- A firmware image that MC0 has accepted, with the rollback counter at its boot and the path it came by (R442, R443, R452). -/
structure Image where
  version : W32
  svn : Nat
  slot : Nat
  revoke : BitVec 4
  measure : BitVec 256
  counter : Nat
  path : Nat
  deriving DecidableEq, Repr

/-- A firmware transfer on one path: 0 EtherCAT, 1–4 host ports (R441). -/
structure Transfer where
  state : Nat
  data : List Byte
  since : Nat
  deriving DecidableEq, Repr

/-- The power-up order (R438 to R442, R455). `offers` are the DHCP offers that the fetch uses; `alRefused` says that the last request for an
AL state was refused; `plane` is the last step of R456 that a plane reset in progress has ended, 0 with none
in progress. -/
structure Boot where
  step : Nat
  stopped : Bool
  online : Bool
  mc1 : Bool
  al : W16
  alState : AlState
  transfers : Sparse Transfer
  candidate : Option (List Byte × Image)
  image : Option Image
  start : Nat
  time : Nat
  cause : Nat
  commit : Nat
  commitAt : Nat
  plane : Nat
  offers : Sparse DhcpOffer
  ident : Option Ident
  udsLocked : Bool
  alRefused : Bool
  deriving DecidableEq, Repr

/-- The module's power state (R460 to R468). `rows` counts the rails of R462 that are up, VHBMC and VHBMQ apart. -/
structure Power where
  pwrEn : Bool
  resetN : Bool
  input : Bool
  seq : Bool
  rows : Nat
  on : Bool
  fellAt : Nat
  holdoff : Bool
  latched : Bool
  rails : W32
  inputHigh : Bool
  off : BitVec 4
  opticsOff : BitVec 4
  deriving DecidableEq, Repr

/-- What a boundary-scan TAP's instruction register selects: the instructions of R469, whose codes the spec does not give; every
other code is BYPASS. -/
inductive ScanInstr
  | bypass | idcode | sample | extest | clamp | highz
  deriving DecidableEq, Repr

/-- A pad with a boundary cell: a pin of the sideband connector, a signal of an EtherCAT PHY, of fuse programming or of the busbar
telemetry (R469). -/
inductive Pad
  | sideband (pin : Nat)
  | ecatPhy (port signal : Nat)
  | fuseProg (signal : Nat)
  | busbar (signal : Nat)
  deriving DecidableEq, Repr

/-- The TAP of a die of the chain: what its instruction register selects, and its boundary cells (R469). -/
structure Tap where
  ir : ScanInstr
  cells : List (Pad × Bool)
  deriving DecidableEq, Repr

/-- A TAP after power-up: IDCODE is selected, as IEEE 1149.1 asks (PRESUMED, log entry 54). -/
def Tap.initial : Tap := { ir := .idcode, cells := [] }

/-- Clock, power and thermal control (R45 to R51, R463, R478, R479). `vcmp` is the VCMP set value in mV; `stepped` says that
ACLK has stepped down in the present 1 ms window. -/
structure Clk where
  aclk : Nat
  vcmp : Nat
  stepped : Bool
  capTarget : Nat
  thermTarget : Nat
  below : Nat
  cool : Nat
  unattain : Bool
  power : Nat
  compute : List Int
  base : List Int
  stack : List Int
  optic : List Int
  flow : Nat
  inlet : Int
  outlet : Int
  coolStatus : BitVec 8
  deriving DecidableEq, Repr

/-- Remap records, twins, bridges and emergencies (R399, R425 to R437). -/
structure Health where
  bridges : BitVec 4
  split : BitVec 4
  remaps : List Nat
  emerg : List (W16 × Nat × Nat)
  history : List W32
  errReg : BitVec 8
  lastFault : W16
  promoteAt : Sparse (Option Nat)
  deriving DecidableEq, Repr

/-- The Roll Call readout of the operator's objects (R253): 0 idle, 1 busy, 2 done; its context; the strips it read, none before the
first readout and for a FREE context, whose every record is zero (R254); the objects it read; and the records that are not all zero, by
select word. -/
structure Roll where
  state : Nat
  ctx : Nat
  mask : Option Nat
  objs : List Nat
  recs : Sparse Nat
  deriving DecidableEq, Repr

/-- The form of an SDO transfer (R397). -/
inductive SdoForm
  | expedited | normal
  | segmented (segments : Nat)
  deriving DecidableEq, Repr

/-- What leaves the block: every word, message and frame that the environment sees, newest first. -/
inductive Out
  | event (queue conn addr : Nat) (imm : W32) (record : List Byte)
  | rdmaWrite (conn addr rkey : Nat) (data : List Byte)
  | rdmaRead (conn addr rkey len : Nat)
  | readResponse (conn : Nat) (data : List Byte)
  | writeAck (conn : Nat)
  | nak (conn syndrome : Nat)
  | rnrNak (conn : Nat)
  | retransmit (conn : Nat)
  | cnp (conn : Nat)
  | rep (conn : Nat)
  | rej (port reason : Nat)
  | dreq (conn : Nat)
  | drep (conn : Nat)
  | udp (host : Nat) (dest : Option (Nat × Nat)) (response : List Byte)
  | coe (abort : Nat) (form : SdoForm) (data : List Byte)
  | coeList (indices : List Nat)
  | alStatus (state : AlState) (code : W16)
  | pdo (inputs : List Byte)
  | emergency (bytes : List Byte)
  | frame (port idx : Nat) (bytes : List Byte) (lanes : List (List Nat))
  | markers (port : Nat) (lanes : List Nat)
  | gridWord (gsp : Nat) (word : FWord)
  | dhcpDiscover (port : Nat) (vendor : List Byte) (product : W32)
  | dhcpRelease (port addr : Nat)
  | tftpRead (port server : Nat) (file : List Byte) (block window : Nat)
  | fetchError (path : Nat)
  | ecatPort (port : Nat) (opened : Bool)
  deriving DecidableEq, Repr

/-- Why a machine step stops with a fault: nothing stops the block. What the spec calls a fault is an effect on the state, and a command
on an item that the module does not have changes nothing (log entry 10). -/
inductive Fault : Type
  deriving DecidableEq, Repr

/-- Why a command has no meaning. -/
inductive Refusal
  /-- Raised by a command whose meaning the model does not give yet, with its mnemonic. Safe: nothing happens. -/
  | notModelled (mnemonic : String)
  deriving DecidableEq, Repr

/-- The module. `linkCe` counts the corrected words of each neighbour link by the site and port that receive them, 8 × site + port (R421). -/
structure State where
  pending : List Instr
  fclk : Nat
  fuse : Fuses
  free : Nat
  power : Power
  boot : Boot
  clk : Clk
  health : Health
  wings : List Wing
  pchans : Sparse PChan
  hbm : Mem
  hbmBad : Sparse Bool
  dict : Sparse Nat
  ctxs : Sparse Ctx
  cus : Sparse CU
  mus : Sparse MU
  sws : Sparse Switch
  wires : List Flight
  credits : List Credit
  ring : List RingCirc
  gridIn : List Inbound
  ctl : List CtlReq
  mesh : List Packet
  flying : List (Nat × Grant)
  terms : Sparse (Option Nat × Nat × Nat)
  hosts : Sparse HostSt
  conns : Sparse Conn
  queues : Sparse Queue
  mwins : Sparse MWin
  objs : Sparse Obj
  rdmas : List Rdma
  lease : Lease
  hlink : BitVec 4
  ptp : Sparse Ptp
  ecatLink : BitVec 2
  sampled : List Byte
  gates : Sparse (Nat × Nat)
  srcs : Sparse Source
  bell : BitVec 2
  entries : Sparse Nat
  tts : Sparse Timetable
  due : List Due
  tports : Sparse TPort
  chans : Sparse Chan
  roll : Roll
  attest : Nat × List Byte
  sramErr : List (Nat × Nat × Nat)
  linkCe : Sparse Nat
  scan : List Tap
  out : List Out
  deriving DecidableEq, Repr

/-! ## What an item that has not been touched reads as -/

/-- A switch with no circuit. -/
def Switch.idle : Switch :=
  { stores := [], term := 0, bufs := [], used := [], lastStale := 0, stale := 0, ce := 0, fault := 0 }

/-- A counter at zero. -/
def Ctr.zero : Ctr := { value := 0, lastSrc := 0, lastTime := 0, flags := 0 }

/-- An unbound handle. -/
def Handle.none : Handle :=
  { st := .unbound, slot := Option.none, kind := Option.none, ordered := false, prog := 7, byDesc := false,
    elem := Option.none }

/-- A free accumulator slot. -/
def Slot.free : Slot := { bound := false, elems := [], kind := none, sat := false }

/-- A CU with no work. -/
def CU.idle : CU :=
  { stores := [], term := 0, ctrs := [], grantN := 0, grants := [], cur := none, run := false, fin := true, pos := 0x3FF,
    rep := 0, gateOpen := false, waitSince := none, act := [], wgt := [], wgtOff := 0, items := [], itemBuf := [],
    shadow := none, active := none, window := [], firing := none, streamed := [], handles := [], committed := 0,
    slots := [], ready := [], drain := none, tables := [], tokens := [], steered := 0, tile := false, tokSlots := 0, tokIn := [],
    outq := [], drains := 0, runOut := none, steerDrop := 0, fault := 0 }

/-- An empty slot tag. -/
def SlotTag.none : SlotTag := { st := .empty, tag := 0, open_ := 0, lastDue := false }

/-- A ring at section start (R219). -/
def Ring.empty : Ring := { head := 0, tail := 0, occ := 0, opened := false, full := 0 }

/-- An issue list with nothing to do. -/
def ListPos.idle : ListPos := { pos := 0x3FF, rep := 0, fin := true, waitSince := none }

/-- A generator with no descriptor. -/
def Gen.idle : Gen := { iss := none, started := false, slots := [], key := 0, buf := [], done := 0, blockedSince := none }

/-- An MU with no work. -/
def MU.idle : MU :=
  { stores := [], term := 0, ctrs := [], grantN := 0, grants := [], cur := none, run := false, fin := true, spad := [],
    sb := [], nextId := 0, tags := [], rings := [], lists := [], pend := [], gens := [], queues := [], lanes := [],
    outq := [], clampTab := [], clamps := 0, hmLog := 0, fault := 0, faultAt := 0, scatSat := false, tagMode := false,
    hmEn := false, foot := [], tcNext := 0, tcEnded := [], tcGiven := [] }

/-- A Report Card after a load (R105). -/
def RCard.empty : RCard :=
  { sqe := 0, count := 0, maxAbs := 0, scale := 0x3F800000, sat := 0, nan := 0, clamp := 0, acc := 0, steps := 0,
    flags := 0 }

/-- A tensor with an empty history (R96). -/
def Tensor.fresh : Tensor :=
  { hist := [], prev := none, cur := none, flags := 0, held := false, active := false, sqe := 0, count := 0, maxAbs := 0,
    sat := 0, nan := 0, acc := 0, clamp := 0, merged := false, heldBuf := [], heldDone := [], steps := 0, next := [] }

/-- A FREE context (R300). -/
def Ctx.free : Ctx :=
  { st := .free, host := 0, lc := false, lend := false, weight := 0, tt := 0, level := 0, fault := 0, strips := 0,
    stripUs := 0, holdSince := none, charged := 0, quantumAt := 0, pbound := 0, recessCount := 0, version := 0, evq := 0,
    extents := [], shadow := [], granting := [], loading := none, syl := none, launches := [], pend := false,
    launchNo := 0, last := none, bind := ([], []), run := none, heldRun := none, resume := [], hostHold := false, recess := none, rewind := false,
    heldState := false, saved := false, cus := [], mus := [], sws := [], teardown := none, closing := none, loadStatus := 0, vtime := 0,
    cards := [], tensors := [], before := none, resets := [], twinFault := none, twinSite := none, twinErr := (false, false), cmp := [], promoted := false, termWait := false, record := none, heldObjs := [] }

/-- A connection that does not exist. -/
def Conn.none : Conn :=
  { live := false, host := 0, lastPacket := 0, rate := 0, lastCnp := 0, retries := 0, rnrs := 0, bufs := [] }

/-- A queue that does not exist. -/
def Queue.none : Queue :=
  { live := false, host := 0, conn := 0, addr := 0, rkey := 0, log2 := 0, seq := 0, ack := 0, held := [], lost := 0 }

/-- A closed memory window. -/
def MWin.closed : MWin :=
  { st := 0, ctx := 0, base := 0, len := 0, hosts := 0, rd := false, wr := false, gen := 0, cmd := none }

/-- An object that does not exist. -/
def Obj.none : Obj :=
  { valid := false, value := 0, sig := 0, orphan := false, owner := Option.none, importers := [], away := [], waits := [] }

/-- A host that has not connected. -/
def HostSt.absent : HostSt := { state := 0, lostAt := 0, recent := [] }

/-- A PTP servo that has received no Sync. -/
def Ptp.idle : Ptp :=
  { locked := false, good := 0, offset := 0, time := 0, at_ := 0, interval := 0, corr := 0 }

/-- A phase source that is OFF. -/
def Source.off : Source :=
  { st := .off, phase := 0, high := 0, stamps := [], lastEvent := 0, stale := 0, illegal := 0, losses := 0, zFaults := 0,
    zSeen := false }

/-- A disabled timetable (R331). -/
def Timetable.disabled : Timetable :=
  { state := 0, first := 0, count := 1, cycle := none, firstCycle := 0, next := 0, base := [],
    deferred := none, deferUp := (false, false), cycles := 0, runs := 0, misses := 0, missesUnl := 0, overruns := 0, skipped := 0, noRun := 0,
    minSlack := 0xFFFFFFFF, error := 0xFFFF, quiesceAt := 0 }

/-- A Trien port at the end of power-up step 6: enabled and DOWN (R438, R457). -/
def TPort.down : TPort :=
  { link := .down, since := 0, cause := 0, version := 0, lanesOk := 0, map := 0x688, spareUsed := false, pendMap := none,
    laneAsk := none, txMap := 0x688, txPend := none, txIdx := 0, rxIdx := none, bip := [0, 0, 0, 0, 0], prbs := 2 ^ 31 - 1, locked := false, turn := (63, 63),
    rtt := 0, echoes := [], offered := none, confirmed := none, partner := 0, expect := 0, nextSeq := 0, replay := [],
    sendq := [], replayFull := none, nakAt := none, naks := 0, lastFrame := 0, ctlRest := [], notUpSince := none, protoAt := [],
    uncorr := 0, crcErr := 0, replayed := 0, retrains := 0, trainFails := 0, protoErr := 0, light := false, lit := 0 }

/-- A channel with no window (R365). -/
def Chan.closed : Chan :=
  { st := .closed, wd := 0, cmd := none, closeCmd := none, since := 0, cursor := 0, acked := 0, limit := 0,
    revoked := false, rewind := false, forced := false, fin := none, partnerClosed := false, heldOpen := none, part := [],
    partBlock := none, skip := none, landing := [], held := [], freed := 0, sent := 0, events := 0, p0 := 0, c0 := 0, creditAt := none,
    shadowCrc := none, egressAt := none, duplicates := 0, discarded := 0, wclosed := 0, violations := 0 }

/-- A pseudo-channel in service. -/
def PChan.good : PChan := { failing := false, copying := none, spare := none, dead := [], recent := [], badWords := 0, cause := 0 }

/-- A transfer that has not started. -/
def Transfer.idle : Transfer := { state := 0, data := [], since := 0 }

/-- A wing in service with no pair retired. -/
def Wing.active : Wing :=
  { st := .active, fence := false, retired := none, spareBad := false, retiring := none, recessed := [], cause := 0,
    corrections := 0, uncorr := 0, remapDue := false }

/-! ## Reset -/

/-- The product code of SJ-L4816-M (R3). -/
def productM : W32 := 0x48160001

/-- The product code of SJ-L3612-M (R3). -/
def productS : W32 := 0x36120001

/-- Fuses of an SJ-L4816-M of the present stepping, 1 in IDCODE (R409, R469). DESIGN CHOICE (log entry 2): the spec gives no
minor stepping, serial number, secret or key. -/
def Fuses.initial : Fuses :=
  { product := productM, serial := 0, revision := 0x10000, uds := 0, keyHash := [0, 0, 0, 0], revoked := 0, counter := 0,
    pairs := [], mac := [0, 0, 0, 0] }

/-- The RW objects whose default is not zero, by index × 256 + subindex (R49, R202, R231, R253, R299, R311, R330, R364,
R394, R396, R411, R437, R458, R480), for the grade with this product code. -/
def dictDefaults (product : W32) : List (Nat × Nat) :=
  [(0x210001, if product = productS then 3500 else 4600), (0x210005, 3600), (0x220005, 24), (0x230002, 4096),
   (0x231001, 10000), (0x231002, 1000), (0x234001, 2000), (0x234004, 0xFF), (0x234005, 100000), (0x234006, 200),
   (0x250002, 4), (0x250005, 25), (0x250006, 10000), (0x250101, 0xFF), (0x250102, 1000000), (0x250105, 0xFFFF),
   (0x250106, 0xFFFF), (0x250107, 0xFFFF), (0x250108, 0xFFFF), (0x260002, 5000), (0x260003, 100), (0x260004, 50000),
   (0x260005, 100000), (0x260006, 20), (0x270002, 10000), (0x270003, 30000), (0x272003, 10000), (0x281003, 20),
   (0x284002, 10000), (0x292001, 1), (0x293001, 0xFF), (0x202001, 19524), (0x206101, 1000), (0x2A2005, 550)] ++
  (List.range 8).map (fun t => (0x252004 + 0x100 * t, 1)) ++
  (List.range 8).map (fun t => (0x252007 + 0x100 * t, 0xFF)) ++
  (List.range 64).map (fun p => (0x264001 + 0x100 * p, 1)) ++
  (List.range 4).map (fun n => (0x273001 + 0x100 * n, 1)) ++
  (List.range 4).map (fun n => (0x273006 + 0x100 * n, 0xFFFF)) ++
  (List.range 4).map (fun n => (0x273007 + 0x100 * n, 0xFF)) ++
  (List.range 17).map (fun r => (0x1000000 * (r + 1) + 0x235002, 1024))

/-- The dictionary at its defaults (R406). -/
def dictInitial (product : W32) : Sparse Nat :=
  (dictDefaults product).foldl (fun m e => sset 0 m e.1 e.2) []

/-- Wings of the grade at the end of power-up: wing D of SJ-L3612-M is FENCED (R4, R436). -/
def wingsInitial (product : W32) : List Wing :=
  [Wing.active, Wing.active, Wing.active,
   if product = productS then { Wing.active with st := .fenced } else Wing.active]

/-- The rails of a running module (R481). -/
def railsOn (product : W32) : W32 := if product = productS then 0x4FFFFF0F else 0xFFFFFF0F

/-- Power of a running module. -/
def Power.running (product : W32) : Power :=
  { pwrEn := true, resetN := true, input := true, seq := false, rows := 10, on := true, fellAt := 0, holdoff := false, latched := false, rails := railsOn product, inputHigh := false, off := 0, opticsOff := 0 }

/-- Power of a module without input. -/
def Power.none : Power :=
  { pwrEn := false, resetN := true, input := false, seq := false, rows := 0, on := false, fellAt := 0, holdoff := false, latched := false, rails := 0, inputHigh := false, off := 0, opticsOff := 0 }

/-- The image that the starting state runs. DESIGN CHOICE (log entry 2): version, SVN and key slot 0. -/
def Image.initial : Image := { version := 0, svn := 0, slot := 0, revoke := 0, measure := 0, counter := 0, path := 0 }

/-- The keys that the ROM leaves for an image on a module with these fuses (R451). -/
def identOf (f : Fuses) (i : Image) : Ident :=
  identWith f.uds.toNat f.product.toNat f.serial.toNat i.measure.toNat i.version.toNat i.svn i.counter

/-- Boot state once ONLINE is set (R438, R457). -/
def Boot.online_ : Boot :=
  { step := 8, stopped := false, online := true, mc1 := true, al := 0, alState := .preop, transfers := [],
    candidate := none, image := some Image.initial, start := 0, time := 0, cause := 0, commit := 0,
    commitAt := 0, plane := 0, offers := [], ident := some (identOf Fuses.initial Image.initial), udsLocked := true,
    alRefused := false }

/-- Boot state before step 1. -/
def Boot.off : Boot :=
  { step := 0, stopped := false, online := false, mc1 := true, al := 0, alState := .init, transfers := [],
    candidate := none, image := none, start := 0, time := 0, cause := 0, commit := 0, commitAt := 0, plane := 0,
    offers := [], ident := none, udsLocked := false, alRefused := false }

/-- Clock control at power-up: 3,600 MHz (R457), no reading yet (R231, R480). -/
def Clk.initial : Clk :=
  { aclk := 3600, vcmp := 800, stepped := false, capTarget := 3600, thermTarget := 3600, below := 0, cool := 0, unattain := false, power := 0,
    compute := [0, 0, 0, 0], base := [0, 0, 0, 0], stack := List.replicate 16 0, optic := [0, 0, 0, 0], flow := 0,
    inlet := 0, outlet := 0, coolStatus := 0 }

/-- No fault, no remap, every bridge up. -/
def Health.initial : Health :=
  { bridges := 0, split := 0, remaps := [], emerg := [], history := [], errReg := 0, lastFault := 0, promoteAt := [] }

/-- The lease that was never granted (R387). -/
def Lease.never : Lease := { holder := none, term := 0, expiry := 0, cmd := none }

/-- The whole state that a power-up clears (R456, R457), with the given clock, fuses and queue. -/
def State.cold (fuse : Fuses) (fclk : Nat) (pending : List Instr) : State :=
  { pending := pending, fclk := fclk, fuse := fuse, free := 0, power := Power.none, boot := Boot.off, clk := Clk.initial,
    health := Health.initial, wings := wingsInitial fuse.product, pchans := [], hbm := [], hbmBad := [],
    dict := dictInitial fuse.product, ctxs := [], cus := [], mus := [], sws := [], wires := [],
    credits := [], ring := [], gridIn := [], ctl := [], mesh := [], flying := [], terms := [], hosts := [], conns := [], queues := [],
    mwins := [], objs := [], rdmas := [], lease := Lease.never, hlink := 0, ptp := [], ecatLink := 0,
    sampled := [], gates := [], srcs := [], bell := 0, entries := [], tts := [], due := [], tports := [], chans := [],
    roll := { state := 0, ctx := 0, mask := none, objs := [], recs := [] }, attest := (0, []), sramErr := [], linkCe := [],
    scan := List.replicate 8 Tap.initial, out := [] }

/-- The module right after reset: the starting state of R457, when ONLINE is first set. -/
def State.reset : State :=
  let s := State.cold Fuses.initial 0 []
  { s with power := Power.running Fuses.initial.product, boot := Boot.online_, hlink := 0xF, ecatLink := 3,
           health := { Health.initial with errReg := 0x11 } }

end Sys2Proof.Machine
end

