-- ==== Sys2Proof/Machine/Flags.lean ====
section
/-! DEFINITION. The status words and records that the spec computes from the state: the error register (R410), the device
status (R412), the throttle cause (R50), the unit, switch and ring status words (R138, R174, R201, R221), the port and
source status (R312, R363), and the records of R105, R300, R331 and R365. -/

namespace Sys2Proof.Machine

/-! ## Grade and site numbering -/

/-- SJ-L3612-M (R3). -/
def isSmall (s : State) : Bool := s.fuse.product == productS
/-- Strips of the grade (R8). -/
def numStrips (s : State) : Nat := if isSmall s then 48 else 64
/-- Stacks of the grade (R203). -/
def numStacks (s : State) : Nat := if isSmall s then 12 else 16
/-- Trien ports of the grade (R4). -/
def numPorts (s : State) : Nat := if isSmall s then 48 else 64
/-- Stream channels of the grade (R8). -/
def numChans (s : State) : Nat := 64 * numPorts s
/-- One past the grade's highest HBM4E address (R19). -/
def hbmTop (s : State) : Nat := if isSmall s then 1536000000000 else 2048000000000
/-- Wings with compute (R4). -/
def numWings (s : State) : Nat := if isSmall s then 3 else 4

/-- The key of a site: wing, row, logical column (R23). -/
def siteKey (w r c : Nat) : Nat := (w * 16 + r) * 32 + c
def siteWing (k : Nat) : Nat := k / 512
def siteRow (k : Nat) : Nat := k / 32 % 16
def siteCol (k : Nat) : Nat := k % 32
/-- A site holds a CU when row + column is even, else an MU (R23). -/
def siteIsCu (k : Nat) : Bool := (siteRow k + siteCol k) % 2 = 0
/-- The device strip of a site (R24). -/
def siteStrip (k : Nat) : Nat := siteWing k * 16 + siteCol k / 2
/-- The sites of a device strip, rows ascending. -/
def stripSites (t : Nat) : List Nat :=
  (List.range 32).map fun i => siteKey (t / 16) (i / 2) (2 * (t % 16) + i % 2)
/-- The strips of a mask, ascending (R281). -/
def maskStrips (m : Nat) : List Nat := (List.range 64).filter m.testBit
/-- The sites of a strip mask in ascending wing, row and column. -/
def maskSites (m : Nat) : List Nat := (List.range 2048).filter fun k => m.testBit (siteStrip k)

/-! ## Lookups -/

def ctxOf (s : State) (c : Nat) : Ctx := sget Ctx.free s.ctxs c
def cuOf (s : State) (k : Nat) : CU := sget CU.idle s.cus k
def muOf (s : State) (k : Nat) : MU := sget MU.idle s.mus k
def swOf (s : State) (k : Nat) : Switch := sget Switch.idle s.sws k
def objOf (s : State) (o : Nat) : Obj := sget Obj.none s.objs o
def queueOf (s : State) (q : Nat) : Queue := sget Queue.none s.queues q
def connOf (s : State) (n : Nat) : Conn := sget Conn.none s.conns n
def hostOf (s : State) (h : Nat) : HostSt := sget HostSt.absent s.hosts h
def mwinOf (s : State) (w : Nat) : MWin := sget MWin.closed s.mwins w
def srcOf (s : State) (i : Nat) : Source := sget Source.off s.srcs i
def ttOf (s : State) (t : Nat) : Timetable := sget Timetable.disabled s.tts t
def tportOf (s : State) (p : Nat) : TPort := sget TPort.down s.tports p
def chanOf (s : State) (c : Nat) : Chan := sget Chan.closed s.chans c
def wingOf (s : State) (w : Nat) : Wing := s.wings.getD w Wing.active
def ptpOf (s : State) (n : Nat) : Ptp := sget Ptp.idle s.ptp n

/-- The dictionary key of an object: index × 256 + subindex. -/
def okey (index sub : Nat) : Nat := index * 256 + sub
/-- The stored value of an object. -/
def dget (s : State) (key : Nat) : Nat := sget 0 s.dict key

/-- The state code of R279. -/
def ctxCode : CtxSt → Nat
  | .free => 0 | .opened => 1 | .loaded => 2 | .running => 3 | .recess => 4 | .detention => 5 | .closing => 6

/-- The wing state code of R437. -/
def wingCode : WingSt → Nat
  | .active => 0 | .twinPrimary => 1 | .twinShadow => 2 | .fenced => 3 | .failed => 4

/-- The link state code of R339. -/
def linkCode : Link → Nat
  | .disabled => 0 | .down => 1 | .train => 2 | .negotiate => 3 | .up => 4 | .retrain => 5 | .incompatible => 6

/-- The window state code of R344. -/
def winCode : WinSt → Nat
  | .closed => 0 | .opening => 1 | .opened => 2 | .closing => 3 | .lost => 4

/-- The source state code of R312. -/
def srcCode : SrcSt → Nat
  | .off => 0 | .acquiring => 1 | .locked => 2 | .lost => 3

/-- The contexts, in ascending number, that satisfy a test. -/
def ctxsWith (s : State) (p : Ctx → Bool) : List Nat := (List.range 64).filter fun c => p (ctxOf s c)

/-- The wing that shadows a wing in twin mode; it stays so while a promotion is pending (R431, R432, R435). -/
def shadowOf (s : State) (w : Nat) : Option Nat :=
  let v := if w % 2 = 0 then w + 1 else w - 1
  if (wingOf s v).st == .twinShadow then some v else none

/-- The shadow strips of a mask (R432). -/
def shadowMask (s : State) (m : Nat) : Nat :=
  (List.range 4).foldl (fun a w =>
    match shadowOf s w with
    | some v => a + fld m (16 * w) 16 <<< (16 * v)
    | none => a) 0

/-- A context's strips and their shadows. -/
def ctxMask (s : State) (x : Ctx) : Nat := Nat.lor x.strips (shadowMask s x.strips)

/-- The strips of a context run as twins (R431). -/
def twinned (s : State) (x : Ctx) : Bool := shadowMask s x.strips != 0

/-- Units of the context execute: it is RUNNING, or it closes and its run has not been stopped yet (R298). -/
def executes (x : Ctx) : Bool := x.st == .running || (x.st == .closing && x.run.isSome && x.teardown.isNone)

/-- The context that holds a site: the one whose turn is there, else the lowest one whose grant names its strip. -/
def siteCtx (s : State) (k : Nat) : Option Nat :=
  let st := siteStrip k
  match ctxsWith s fun x => (ctxMask s x).testBit st && (executes x || x.holdSince.isSome) with
  | c :: _ => some c
  | [] => (ctxsWith s fun x => x.st != .free && (ctxMask s x).testBit st).head?

/-! ## Device-wide words -/

/-- DEVICE of R410: a wing other than SJ-L3612-M's wing D is FENCED or FAILED, or a context is in DETENTION. -/
def errDevice (s : State) : Bool :=
  ((List.range (numWings s)).any fun w => (wingOf s w).st == .fenced || (wingOf s w).st == .failed) ||
  (s.ctxs.any fun e => e.2.st == .detention)

/-- COMM of R410: an enabled Trien or host port is not up, or the halves are split. -/
def errComm (s : State) : Bool :=
  ((List.range (numPorts s)).any fun p => dget s (0x264001 + 0x100 * p) = 1 && (tportOf s p).link != .up) ||
  ((List.range 4).any fun n => dget s (0x273001 + 0x100 * n) = 1 && !s.hlink.getLsbD n) ||
  s.health.split != 0

/-- The rails that should regulate: those of the grade that R464 has not switched off (R481). -/
def railsDue (s : State) : Nat :=
  (List.range 32).foldl (fun a b =>
    let w := (b - 8) / 6
    let offC := 8 ≤ b && (b - 8) % 6 = 5 && s.power.off.getLsbD w
    let offO := 8 ≤ b && (b - 8) % 6 = 4 && s.power.opticsOff.getLsbD w
    if (railsOn s.fuse.product).getLsbD b && !offC && !offO then a + 2 ^ b else a) 0

/-- VOLTAGE of R410 and R464. -/
def errVoltage (s : State) : Bool :=
  s.power.inputHigh || s.power.opticsOff != 0 ||
  (s.power.on && (Nat.land (railsDue s) s.power.rails.toNat != railsDue s))

/-- THERMAL of R50: the thermal target is below the ceiling. -/
def throttleThermal (s : State) : Bool := s.clk.thermTarget < dget s 0x210005

/-- The throttle cause word of R50. -/
def throttleCause (s : State) : Nat :=
  b2n (s.clk.capTarget < dget s 0x210005) + 2 * b2n (throttleThermal s) + 4 * b2n s.clk.unattain

/-- The error register of R410. -/
def errorRegister (s : State) : Nat :=
  let d := errDevice s
  let c := errComm s
  let t := throttleThermal s
  let v := errVoltage s
  128 * b2n d + 16 * b2n c + 8 * b2n t + 4 * b2n v + b2n (d || c || t || v)

/-- The state of a function gate as its subindex reads: 1 ENABLED, 2 QUIESCING, 0 QUIESCED (R413). -/
def gateRead (s : State) (g : Nat) : Nat :=
  match (sget (0, 0) s.gates g).1 with
  | 0 => 1
  | 1 => 2
  | _ => 0

/-- The service object of R411. -/
def serviceRead (s : State) : Nat :=
  if (List.range 5).all fun g => gateRead s (g + 1) = 1 then 1
  else if (List.range 5).all fun g => gateRead s (g + 1) = 0 then 0 else 2

/-- A host holds an unexpired lease. -/
def leased (s : State) : Bool := s.lease.holder.isSome && s.fclk < s.lease.expiry

/-- The device status word of R412. -/
def deviceStatus (s : State) : Nat :=
  let ok := (List.range 4).foldl (fun a w =>
    match (wingOf s w).st with
    | .active | .twinPrimary | .twinShadow => a + 2 ^ w
    | _ => a) 0
  2 ^ 13 * b2n (s.clk.aclk < dget s 0x210005) + 2 ^ 12 * b2n (s.health.split != 0) + 2 ^ 8 * ok +
  32 * b2n (s.ctxs.any fun e => e.2.st == .detention) + 16 * b2n (leased s) +
  8 * b2n ((List.range 5).any fun g => gateRead s (g + 1) = 2) +
  4 * b2n (serviceRead s = 0) + 2 * b2n (serviceRead s = 1) + b2n s.boot.online

/-! ## Runs and gates -/

/-- A run of the context is in progress: started, and not stopped by a detention (R284). -/
def inRun (x : Ctx) : Bool :=
  (match x.run with
    | some r => !r.staged
    | none => false) && x.st != .detention

/-- Nothing of a gate's function is in flight (R413); what a context close has taken over counts as finished (R414). OPEN completes at
once, so no OPEN is ever in progress. -/
def gateIdle (s : State) (g : Nat) : Bool :=
  match g with
  | 1 => true
  | 2 => s.ctxs.all fun e => e.2.loading.isNone
  | 3 => s.ctxs.all fun e => e.2.st == .closing || (e.2.launches.isEmpty && !inRun e.2)
  | 4 => s.chans.all fun e => e.2.st == .closed || e.2.st == .lost || (ctxOf s (fld e.2.wd 0 6)).st == .closing
  | _ => s.mwins.all fun e => e.2.st = 0 || (ctxOf s e.2.ctx).st == .closing

/-! ## Unit and switch words -/

/-- Where the entries of unit store `code` start (R258). -/
def stBase (code : Nat) : Nat := code * 2 ^ 20

/-- Entry `i` of a unit store. -/
def stEnt (m : Mem) (code size i : Nat) : Nat := mnat m (stBase code + size * i) size

/-- The enable bit of an output channel in an element program header (R130). -/
def phEn (h ch : Nat) : Bool := bitOf h (if ch = 0 then 74 else 90)

/-- A drain of a CU with the program header `h` sends on a steered channel. -/
def headSteers (u : CU) (h ch : Nat) : Bool := phEn h ch && u.steered.getLsbD ch

/-- CU_STATUS (R138). -/
def cuStatus (u : CU) : Nat :=
  let fill (ch : Nat) : Nat :=
    (u.tokens.filter fun t => t.1 = ch).length +
    (u.ready.filter fun r => r.ready && r.prog < 4 && headSteers u (stEnt u.stores 0x03 16 r.prog) ch &&
      (if ch = 0 then r.tok0 else r.tok1) = none).length
  let bound := (List.range 16).foldl (fun a j => a + 2 ^ j * b2n (sget Slot.free u.slots j).bound) 0
  2 ^ 30 * b2n u.drain.isSome + 2 ^ 27 * (fill 1 % 8) + 2 ^ 24 * (fill 0 % 8) + 2 ^ 21 * (u.window.length % 8) +
  2 ^ 16 * (u.committed % 32) + bound

/-- CU_SAT (R138). -/
def cuSat (u : CU) : Nat :=
  (List.range 16).foldl (fun a j => a + 2 ^ j * b2n (sget Slot.free u.slots j).sat) 0

/-- MU_STATUS (R174). -/
def muStatus (u : MU) : Nat :=
  let busy := (List.range 4).foldl (fun a g => a + 2 ^ g * b2n (sget Gen.idle u.gens g).iss.isSome) 0
  2 ^ 28 * busy + 2 ^ 22 * (u.sb.length % 64) + 2 ^ 21 * b2n u.tagMode + 2 ^ 20 * b2n u.hmEn + 2 ^ 19 * b2n u.scatSat

/-- RING_STATUS of a ring (R221). -/
def ringStatus (r : Ring) : Nat := 2 ^ 28 * (r.head % 16) + 2 ^ 24 * (r.tail % 16) + 2 ^ 16 * (r.occ % 32)

/-- A slot tag as the debug window reads it (R174). -/
def tagWord (t : SlotTag) : Nat :=
  2 ^ 30 * (match t.st with | .empty => 0 | .filling => 1 | .full => 2 | .draining => 3) + t.tag % 65536

/-- The fields of a circuit entry (R181). -/
def ceValid (e : Nat) : Bool := bitOf e 63
def ceOp (e : Nat) : Nat := fld e 60 3
def ceInA (e : Nat) : Nat := fld e 57 3
def ceInB (e : Nat) : Nat := fld e 54 3
def ceSlotsA (e : Nat) : Nat := fld e 46 8
def ceSlotsB (e : Nat) : Nat := fld e 38 8
def ceOut (e : Nat) : Nat := fld e 30 8
def ceTerm (e : Nat) : Nat := fld e 22 8
def ceStrict (e : Nat) : Bool := bitOf e 21

/-- Entry `i` of a switch's circuit table (store code 0x10, R258). -/
def circuit (w : Switch) (i : Nat) : Nat := mnat w.stores (8 * i) 8

/-- The output slot set of an entry: SLOTS_A rotated by 1 for forward and by 4 for reduce (R182). -/
def outSlots (e : Nat) : Nat :=
  let r := if ceOp e = 1 then 4 else 1
  (List.range 8).foldl (fun a i => if (ceSlotsA e).testBit i then a + 2 ^ ((i + r) % 8) else a) 0

/-- The port on the far side of a link: north and south, east and west (R180). -/
def oppositePort (p : Nat) : Nat := (p + 2) % 4

/-- The site across link `p`: north is the row above, east the column to the right; none across a grid-side port (R35). -/
def neighbour (k p : Nat) : Option Nat :=
  let w := siteWing k
  let r := siteRow k
  let c := siteCol k
  match p with
  | 0 => if r = 0 then none else some (siteKey w (r - 1) c)
  | 1 => if c = 31 then none else some (siteKey w r (c + 1))
  | 2 => if r = 15 then none else some (siteKey w (r + 1) c)
  | _ => if c = 0 then none else some (siteKey w r (c - 1))

/-- A port of a site that is a grid-side port (R29, R35). -/
def isGridPort (k p : Nat) : Bool := decide (p < 4) && (neighbour k p).isNone

/-- The number of a grid-side port (R35), 96 to a wing. -/
def gridPort (k p : Nat) : Nat :=
  96 * siteWing k + (match p with
    | 0 => siteCol k
    | 2 => 32 + siteCol k
    | 3 => 64 + siteRow k
    | _ => 80 + siteRow k)

/-- The perimeter site and the outside port of a grid-side port number (R35). -/
def gridPlace (g : Nat) : Nat × Nat :=
  let w := g / 96
  let n := g % 96
  if n < 32 then (siteKey w 0 n, 0)
  else if n < 64 then (siteKey w 15 (n - 32), 2)
  else if n < 80 then (siteKey w (n - 64) 0, 3)
  else (siteKey w (n - 80) 31, 1)

/-- Credits an entry's next hop gives at a port: 2 words at a switch, 32 at a CU lane, 8 at an MU lane (R183). DESIGN CHOICE (log
entry 61): where several circuits feed one lane, each entry holds the whole depth, so the lane may hold more than its FIFO; the
spec does not say how they share it. -/
def hopDepth (site port : Nat) : Nat := if port < 4 then 2 else if siteIsCu site then 32 else 8

/-- Credits of entry `i` at output port `p`: beyond a grid-side port, 4 words per bridge slot for a circuit that crosses a bridge
(R183, R195, R197). DESIGN CHOICE (log entry 84): such a circuit has no 2-word buffer of a neighbour hop before the bridge beside them. -/
def hopRoom (s : State) (k i p : Nat) : Nat :=
  match (if isGridPort k p then s.ring.find? fun r => r.site = k && r.port = p && r.entry = i else none) with
  | some r => 4 * ((r.hops.headD (0, [])).2).length
  | none => hopDepth k p

/-- SW_STATUS (R201). -/
def swStatus (s : State) (site : Nat) (w : Switch) : Nat :=
  let live := (List.range 64).filter fun i => ceValid (circuit w i)
  let wait := (List.range 8).foldl (fun a p =>
    a + 2 ^ p * b2n (live.any fun i => (ceOut (circuit w i)).testBit p &&
      ((sget [] w.bufs (2 * i)).length != 0 || (sget [] w.bufs (2 * i + 1)).length != 0) &&
      decide (hopRoom s site i p ≤ sget 0 w.used (8 * i + p)))) 0
  let fullp := (List.range 8).foldl (fun a p =>
    a + 2 ^ p * b2n (live.any fun i =>
      (ceInA (circuit w i) = p && decide (2 ≤ (sget [] w.bufs (2 * i)).length)) ||
      (ceOp (circuit w i) = 1 && ceInB (circuit w i) = p && decide (2 ≤ (sget [] w.bufs (2 * i + 1)).length)))) 0
  2 ^ 24 * wait + 2 ^ 16 * fullp + 2 ^ 15 * b2n (live.any fun i => ceOp (circuit w i) = 1) + 2 ^ 8 * (live.length % 128) +
  w.lastStale.toNat

/-! ## Records -/

/-- A Report Card record (R105). -/
def cardRecord (c : RCard) : List Byte :=
  leBytes 16 c.sqe ++ leBytes 8 c.count ++ leBytes 4 c.maxAbs ++ leBytes 4 c.scale ++ leBytes 4 c.sat ++
  leBytes 4 c.nan ++ leBytes 4 c.clamp ++ leBytes 4 c.acc ++ leBytes 4 c.steps ++ leBytes 4 c.flags ++ leBytes 8 0

/-- The context record of R300; a FREE context reads all zero. -/
def ctxRecord (x : Ctx) : List Byte :=
  if x.st == .free then leBytes 32 0
  else
    let flags := b2n x.lc + 2 * b2n x.lend + 4 * b2n x.pend + 8 * b2n x.rewind + 16 * b2n x.heldState + 32 * b2n x.hostHold
    leBytes 1 (ctxCode x.st) ++ leBytes 1 x.host ++ leBytes 1 flags ++ leBytes 1 x.level ++ leBytes 2 x.weight ++
    leBytes 2 x.fault.toNat ++ leBytes 8 x.strips ++ leBytes 8 x.stripUs ++ leBytes 4 x.pbound ++ leBytes 4 x.recessCount

/-- The object record of R246. -/
def objRecord (o : Obj) : Nat :=
  let w1 := o.sig.toNat * 65536 + 128 * b2n o.orphan + 64 * b2n o.valid + o.owner.getD 0
  let w2 := (min o.waits.length 65535) * 65536 + min (o.importers.length + o.away.length) 65535
  o.value + w1 * 2 ^ 32 + w2 * 2 ^ 64

/-- The timetable status record of R331. -/
def ttRecord (t : Timetable) : List Byte :=
  leBytes 8 t.cycles ++ leBytes 4 t.runs ++ leBytes 4 t.misses ++ leBytes 4 t.missesUnl ++ leBytes 4 t.overruns ++
  leBytes 2 t.skipped ++ leBytes 2 t.noRun ++ leBytes 4 t.minSlack

/-- The source status word of R312. -/
def srcStatus (x : Source) : Nat :=
  2 ^ 24 * x.stale + 2 ^ 16 * x.illegal + 2 ^ 8 * x.losses + 2 ^ 6 * x.zFaults + 2 ^ 5 * b2n x.zSeen +
  2 ^ 4 * b2n (x.phase < x.high) + srcCode x.st

/-- Windows of a port that are OPEN. -/
def openWindows (s : State) (p : Nat) : Nat :=
  ((List.range 64).filter fun c => (chanOf s (64 * p + c)).st == .opened).length

/-- PORT_STATUS (R363). -/
def portStatus (s : State) (p : Nat) : Nat :=
  let t := tportOf s p
  2 ^ 16 * t.cause + 2 ^ 15 * b2n t.spareUsed + 2 ^ 10 * t.lanesOk.toNat + 2 ^ 4 * min 15 (openWindows s p) +
  linkCode t.link

/-- The window status record of R365; a CLOSED window reads zero except STATE. -/
def winRecord (c : Chan) (twin : Bool) : List Byte :=
  if c.st == .closed then leBytes 32 0
  else
    leBytes 1 (winCode c.st) ++ leBytes 1 (b2n c.rewind + 2 * b2n twin + 4 * b2n c.revoked) ++ leBytes 2 0 ++
    leBytes 4 c.cursor.toNat ++ leBytes 4 c.acked.toNat ++ leBytes 4 c.limit.toNat ++ leBytes 4 c.duplicates ++
    leBytes 4 c.discarded ++ leBytes 4 c.wclosed ++ leBytes 4 c.violations

/-- The event record of R383 with its queue and SEQ. -/
def eventRecord (q : Nat) (seq : W16) (e : EvRec) : List Byte :=
  leBytes 1 e.kind ++ leBytes 1 e.status ++ leBytes 2 e.fault.toNat ++ leBytes 2 q ++ leBytes 2 seq.toNat ++
  leBytes 4 e.cookie.toNat ++ leBytes 1 e.ctx ++ leBytes 1 e.flags ++ leBytes 2 0 ++ leBytes 16 e.detail

end Sys2Proof.Machine
end

