-- ==== Sys2Proof/Machine/Coding.lean ====
section
/-! DEFINITION. The coding of a Trien port: CRC-64 and frames (R335), codewords with their RS(544,514) parity and the lanes that carry
them, lane markers (R332, R333). -/

namespace Sys2Proof.Machine

/-! ## Frames (R335) -/

/-- One bit of the reflected ECMA-182 CRC. -/
def crcBit (c : BitVec 64) : BitVec 64 := if c.getLsbD 0 then (c >>> 1) ^^^ 0xC96C5795D7870F42 else c >>> 1
/-- One byte. -/
def crcByte (c : BitVec 64) (b : Byte) : BitVec 64 :=
  (List.range 8).foldl (fun c _ => crcBit c) (c ^^^ b.zeroExtend 64)
/-- CRC-64 of R335: initial value and final XOR all ones, bits least significant first. -/
def crc64 (bs : List Byte) : Nat := (~~~(bs.foldl crcByte (BitVec.allOnes 64))).toNat

/-- The 640 bytes of a frame: header, body followed by zero bytes, CRC-64. -/
def frameBytes (hdr : Nat) (body : List Byte) : List Byte :=
  let bs := leBytes 16 hdr ++ padTo 616 body
  bs ++ leBytes 8 (crc64 bs)

/-- The header of a frame. -/
def frameHdr (bs : List Byte) : Nat := leAt bs 0 16
/-- The first bytes of the body. -/
def frameBody (bs : List Byte) (n : Nat) : List Byte := (bs.drop 16).take n
/-- Control word `i` of a CONTROL frame (R338). -/
def frameWord (bs : List Byte) (i : Nat) : Nat := leAt bs (16 + 16 * i) 16
/-- The CRC of a frame is good. -/
def crcGood (bs : List Byte) : Bool := leAt bs 0x278 8 = crc64 (bs.take 0x278)

/-! ## RS(544,514) over GF(2^10) (R332; PRESUMED, log entry 78: the field and generator polynomials of IEEE 802.3 Clause 91) -/

/-- One step of a product in GF(2^10) with x^10 + x^3 + 1. -/
def gfTwice (a : Nat) : Nat := if 512 ≤ a then (2 * a) % 1024 ^^^ 9 else 2 * a

/-- The product of two field elements. -/
def gfMul (a b : Nat) : Nat :=
  ((List.range 10).foldl (fun (p : Nat × Nat) i => (if b.testBit i then p.1 ^^^ p.2 else p.1, gfTwice p.2)) (0, a)).1

/-- The generator polynomial's coefficients below the highest, highest first: the product of x − α^j for j from 0 to 29. -/
def rsGen : List Nat :=
  ((List.range 30).foldl (fun (p : List Nat × Nat) _ =>
    (((p.1 ++ [0]).zip (0 :: p.1)).map fun (c : Nat × Nat) => c.1 ^^^ gfMul p.2 c.2, gfTwice p.2)) ([1], 1)).1.drop 1

/-- The 30 parity symbols of a message, its first symbol the highest coefficient. -/
def rsParity (msg : List Nat) : List Nat :=
  msg.foldl (fun r m =>
    let fb := m ^^^ r.headD 0
    ((r.drop 1 ++ [0]).zip rsGen).map fun (c : Nat × Nat) => c.1 ^^^ gfMul fb c.2) (List.replicate 30 0)

/-- The message of a codeword (R333): CWIDX, eight reserved bits, and the frame. -/
def cwMessage (idx : Nat) (frame : List Byte) : Nat := idx % 4096 + leNat frame * 2 ^ 20

/-- The 544 symbols of a codeword, in the order in which they are sent. -/
def cwSymbols (idx : Nat) (frame : List Byte) : List Nat :=
  let msg := (List.range 514).map fun i => fld (cwMessage idx frame) (10 * i) 10
  msg ++ rsParity msg

/-! ## Lanes (R332, R333) -/

/-- The bits of symbols, least significant first. -/
def symBits (l : List Nat) : List Bool := l.flatMap fun s => (List.range 10).map s.testBit

/-- Physical lane that carries logical lane `l` in a lane map. -/
def physLane (m l : Nat) : Nat := fld m (3 * l) 3

/-- PRBS31, x^31 + x^28 + 1: `n` bits and the state after them. -/
def prbs31 : Nat → Nat → List Bool × Nat
  | 0, s => ([], s)
  | n + 1, s =>
    let b := s.testBit 30 != s.testBit 27
    let r := prbs31 n (2 * s % 2 ^ 31 + b2n b)
    (b :: r.1, r.2)

/-- What the five physical lanes carry while a codeword is sent: symbol i goes to logical lane i mod 4, and the lane that carries
none sends PRBS31. -/
def laneBits (map prbs idx : Nat) (frame : List Byte) : List (List Bool) :=
  let syms := cwSymbols idx frame
  (List.range 5).map fun q =>
    match (List.range 4).find? fun l => physLane map l = q with
    | some l => symBits ((List.range 136).map fun i => syms.getD (4 * i + l) 0)
    | none => (prbs31 1360 prbs).1

/-- The level of two bits under Gray mapping, the first the more significant (R332; PRESUMED, log entry 78). -/
def pam4 : List Bool → List Nat
  | a :: b :: r => (2 * b2n a + b2n (a != b)) :: pam4 r
  | _ => []

/-- BIP after more bits of a lane: bit j is the parity of the positions ≡ j mod 16. A codeword's 1,360 bits are 85 rounds of 16. -/
def bipNext (bip : Nat) (bits : List Bool) : Nat :=
  (List.range 16).foldl (fun b j =>
    if ((List.range 85).filter fun i => bits.getD (16 * i + j) false).length % 2 = 1 then b ^^^ 2 ^ j else b) bip

/-- The lane marker of a physical lane (R333). -/
def laneMarker (map lane bip : Nat) : Nat :=
  0x3C5A96E10FA5C369 + (((List.range 4).find? fun l => physLane map l = lane).getD 0xF) * 2 ^ 64 + lane * 2 ^ 68 +
    bip % 2 ^ 16 * 2 ^ 104

end Sys2Proof.Machine
end

