-- ==== Sys2Proof/Machine/Ops.lean ====
section
/-! DEFINITION. Operations that every family of commands shares: carrying out a command, the dictionary's counters, the
events of queues (R380 to R383), emergencies (R399), time, and updates of the items of the state. -/

namespace Sys2Proof.Machine

/-! ## Updates of one item -/

def setCtx (s : State) (c : Nat) (x : Ctx) : State := { s with ctxs := sset Ctx.free s.ctxs c x }
def modCtx (s : State) (c : Nat) (f : Ctx → Ctx) : State := setCtx s c (f (ctxOf s c))
def setCu (s : State) (k : Nat) (u : CU) : State := { s with cus := sset CU.idle s.cus k u }
def modCu (s : State) (k : Nat) (f : CU → CU) : State := setCu s k (f (cuOf s k))
def setMu (s : State) (k : Nat) (u : MU) : State := { s with mus := sset MU.idle s.mus k u }
def modMu (s : State) (k : Nat) (f : MU → MU) : State := setMu s k (f (muOf s k))
def setSw (s : State) (k : Nat) (u : Switch) : State := { s with sws := sset Switch.idle s.sws k u }
def modSw (s : State) (k : Nat) (f : Switch → Switch) : State := setSw s k (f (swOf s k))
def setObj (s : State) (o : Nat) (x : Obj) : State := { s with objs := sset Obj.none s.objs o x }
def setQueue (s : State) (q : Nat) (x : Queue) : State := { s with queues := sset Queue.none s.queues q x }
def setConn (s : State) (n : Nat) (x : Conn) : State := { s with conns := sset Conn.none s.conns n x }
def setHost (s : State) (h : Nat) (x : HostSt) : State := { s with hosts := sset HostSt.absent s.hosts h x }
def setMwin (s : State) (w : Nat) (x : MWin) : State := { s with mwins := sset MWin.closed s.mwins w x }
def setSrc (s : State) (i : Nat) (x : Source) : State := { s with srcs := sset Source.off s.srcs i x }
def setTt (s : State) (t : Nat) (x : Timetable) : State := { s with tts := sset Timetable.disabled s.tts t x }
def modTt (s : State) (t : Nat) (f : Timetable → Timetable) : State := setTt s t (f (ttOf s t))
def setTport (s : State) (p : Nat) (x : TPort) : State := { s with tports := sset TPort.down s.tports p x }
def modTport (s : State) (p : Nat) (f : TPort → TPort) : State := setTport s p (f (tportOf s p))
def setChan (s : State) (c : Nat) (x : Chan) : State := { s with chans := sset Chan.closed s.chans c x }
def modChan (s : State) (c : Nat) (f : Chan → Chan) : State := setChan s c (f (chanOf s c))
def setWing (s : State) (w : Nat) (x : Wing) : State := { s with wings := s.wings.set w x }
def modWing (s : State) (w : Nat) (f : Wing → Wing) : State := setWing s w (f (wingOf s w))
def setPtp (s : State) (n : Nat) (x : Ptp) : State := { s with ptp := sset Ptp.idle s.ptp n x }

/-- Stores the value of an object. -/
def dset (s : State) (key v : Nat) : State := { s with dict := sset 0 s.dict key v }

/-- Adds to a saturating UNSIGNED32 counter object. -/
def bump (s : State) (key n : Nat) : State := dset s key (satAdd 32 (dget s key) n)

/-- A word, message or frame leaves the block. -/
def emit (s : State) (o : Out) : State := { s with out := o :: s.out }

/-! ## Time: FCLK at 1.8 GHz (R45, R177) -/

/-- FCLK of so many µs. -/
def us (n : Nat) : Nat := 1800 * n
/-- FCLK of so many ms. -/
def ms (n : Nat) : Nat := 1800000 * n
/-- Whether `n` FCLK have passed since `t`. -/
def elapsed (s : State) (t n : Nat) : Bool := decide (t + n ≤ s.fclk)
/-- Device time in ns, rounded down. -/
def nsOf (f : Nat) : Nat := f * 5 / 9

/-! ## Emergencies and device faults -/

/-- Sends a CoE emergency message and enters it in the error history (R399, R409). -/
def emergency (s : State) (word : W16) (wing : Nat) : State :=
  let h := s.health
  let hist := (((word.zeroExtend 32) <<< 16 ||| 0xFF00) :: h.history).take 16
  let s := { s with health := { h with history := hist } }
  if h.emerg.length < 16 then
    { s with health := { s.health with emerg := h.emerg ++ [(word, errorRegister s, wing)] } }
  else bump s 0x201102 1

/-- A fault word of class 8: emergency, last device fault and count (R417, R437). -/
def deviceFault (s : State) (word : W16) (wing : Nat) : State :=
  emergency (bump (dset { s with health := { s.health with lastFault := word } } 0x280001 word.toNat) 0x280002 1) word wing

/-- A quiescing gate with nothing of its function in flight reads QUIESCED (R413). -/
def settleGates (s : State) : State :=
  (List.range 6).foldl (fun s g =>
    if (sget (0, 0) s.gates g).1 = 1 && gateIdle s g then { s with gates := sset (0, 0) s.gates g (2, s.fclk) } else s) s

/-- A quiescing timetable is disabled once the run of its context has completed (R329). -/
def settleTts (s : State) : State :=
  (List.range 8).foldl (fun s t =>
    if (ttOf s t).state = 3 && !inRun (ctxOf s (dget s (0x252007 + 0x100 * t))) then modTt s t fun x => { x with state := 0 }
    else s) s

/-- A change of the error register sends an emergency message once the dictionary is online (R399, R406, R410). -/
def settleReg (s : State) : State :=
  let r := errorRegister s
  if s.health.errReg.toNat = r || s.boot.step < 7 then s
  else emergency { s with health := { s.health with errReg := BitVec.ofNat 8 r } } 0 0xFF

/-- What follows from the state that a command leaves. -/
def settle (s : State) : State := settleReg (settleTts (settleGates s))

/-- The state after a command: what the command does, and what follows from the state it leaves; no command changes the clock,
the fuses or the queue of waiting commands. -/
def closeStep (s t : State) : State := settle { t with pending := s.pending, fclk := s.fclk, fuse := s.fuse }

/-- A command that can happen. -/
def act (s : State) (f : State → State) : Host.Outcome State Fault Refusal := .next (closeStep s (f s))

/-- A command on an item by its number: nothing happens at an item that the module does not have (log entry 10). -/
def actIf (ok : Bool) (s : State) (f : State → State) : Host.Outcome State Fault Refusal :=
  act s fun s => if ok then f s else s

/-- An event whose stated condition does not hold does not take place, and the state stays (log entry 3). -/
def happen (p : Bool) (f : State → State) (s : State) : State := if p then f s else s

/-! ## Queues and events -/

/-- The service queue of a connection (R371). -/
def serviceQueue (conn : Nat) : Nat := 0xFF00 + conn

/-- The queue may write its next event: its connection is live and of its host, and the ring has room (R382). -/
def qRoom (s : State) (q : Queue) : Bool :=
  (connOf s q.conn).live && (connOf s q.conn).host = q.host && decide ((q.seq - q.ack).toNat < 2 ^ q.log2)

/-- Writes one event at the queue's SEQ (R380). -/
def qWrite (s : State) (n : Nat) (q : Queue) (e : EvRec) : State :=
  let imm : W32 := BitVec.ofNat 32 (n * 65536 + q.seq.toNat)
  let addr := q.addr + 32 * (q.seq.toNat % 2 ^ q.log2)
  emit (setQueue s n { q with seq := q.seq + 1 }) (.event n q.conn addr imm (eventRecord n q.seq e))

/-- Writes held events while the ring has room; an OVERFLOW event takes its place once one can be held (R382). -/
def qPump : Nat → Nat → State → State
  | 0, _, s => s
  | k + 1, n, s =>
    let q := queueOf s n
    match q.held with
    | [] => s
    | e :: r =>
      if q.live && qRoom s q then
        let r := if q.lost = 0 then r
          else r ++ [{ kind := 9, status := 0, fault := 0, cookie := 0, ctx := 0xFF, flags := 4, detail := q.lost }]
        qPump k n (qWrite s n { q with held := r, lost := 0 } e)
      else s

/-- Posts an event on a queue (R381, R382). -/
def post (s : State) (n : Nat) (e : EvRec) : State :=
  let q := queueOf s n
  if !q.live then s
  else if q.held.length < 1024 then
    qPump (q.held.length + 2) n (setQueue s n { q with held := q.held ++ [e] })
  else setQueue s n { q with lost := satAdd 32 q.lost 1 }

/-- The queue is a live queue of the host. -/
def ownQueue (s : State) (q host : Nat) : Bool := (queueOf s q).live && (queueOf s q).host = host

/-- Posts an event of a host's context on a queue of that host; a queue that is another host's by now carries none (R380). -/
def postOwn (s : State) (n host : Nat) (e : EvRec) : State := if ownQueue s n host then post s n e else s

/-- The queue a command's events go to: its QUEUE, or the service queue of its connection when that is gone. Number 65536
names no queue: nothing is left of the host to hear of the command. -/
def cmdQueue (s : State) (c : CmdRef) : Nat :=
  if ownQueue s c.queue c.host then c.queue
  else if ownQueue s (serviceQueue c.conn) c.host then serviceQueue c.conn else 65536

/-- Posts a COMPLETION; a SILENT command posts none on success (R374). -/
def completeF (s : State) (c : CmdRef) (ctx status : Nat) (fault : W16) (flags detail : Nat) : State :=
  if c.silent && status = 0 then s
  else post s (cmdQueue s c)
    { kind := 1, status := status, fault := fault, cookie := c.cookie, ctx := ctx, flags := flags, detail := detail }

/-- Posts a COMPLETION without fault word and flags. -/
def complete (s : State) (c : CmdRef) (ctx status detail : Nat) : State := completeF s c ctx status 0 0 detail

/-- Posts an event that no command caused on the EVT_QUEUE of its context (R381). -/
def ctxEvent (s : State) (c kind : Nat) (fault : W16) (flags detail : Nat) : State :=
  postOwn s (ctxOf s c).evq (ctxOf s c).host
    { kind := kind, status := 0, fault := fault, cookie := 0, ctx := c, flags := flags, detail := detail }

/-- Takes a fresh free value for a detail that the spec does not lay out (log entry 5). -/
def freshDetail (s : State) : Nat × State :=
  ((Config.freeDetail s.free).toNat, { s with free := s.free + 1 })

/-! ## Report Cards (R108, R109) -/

/-- The Report Card of an index. -/
def cardOf (x : Ctx) (i : Nat) : RCard := sget RCard.empty x.cards i

/-- The key of an ended step that is not merged yet (R95). -/
def lateKey (key : Nat) : Nat := 512 + key

/-- The key of a tensor of the shadow (R110, R432). -/
def shadowKey (key : Nat) : Bool := key / 256 % 2 = 1

/-- A Report Card after a reset of statistics (bit 0) and of history (bit 1) (R108). -/
def resetRec (bits : Nat) (r : RCard) : RCard :=
  let r := if bitOf bits 0 then { RCard.empty with scale := r.scale, flags := r.flags / 4 * 4 } else r
  if bitOf bits 1 then { r with flags := setFld r.flags 8 5 0 } else r

/-- A tensor after a reset of history: its next step is handled as at first use (R108, R109). -/
def resetHist (m : Sparse Tensor) (k : Nat) : Sparse Tensor :=
  sset Tensor.fresh m k { sget Tensor.fresh m k with hist := [], prev := none, next := [] }

/-- A reset of a card, and of what stood in it before the run in progress (R108, R323). -/
def resetCard (s : State) (c card bits : Nat) : State :=
  modCtx s c fun x =>
    let clear (m : Sparse Tensor) : Sparse Tensor :=
      if bitOf bits 1 then resetHist (resetHist m card) (256 + card) else m
    { x with cards := sset RCard.empty x.cards card (resetRec bits (cardOf x card)),
             tensors := clear x.tensors,
             before := x.before.map fun p =>
               (sset RCard.empty p.1 card (resetRec bits (sget RCard.empty p.1 card)), clear p.2) }

/-- The resets that waited for a card, or for its ended step (key 512 + card), are applied once, with one completion: that of the first
command among them (R109; DESIGN CHOICE, log entry 73: the spec does not say whose it is). -/
def applyResets (s : State) (c : Nat) (p : Nat → Bool) : State :=
  let rs := (ctxOf s c).resets
  let mine := rs.filter fun r => p r.1
  let s := modCtx s c fun x => { x with resets := rs.filter fun r => !(p r.1) }
  let s := (mine.map (·.1)).eraseDups.foldl (fun s i =>
    resetCard s c (i % 512) ((mine.filter fun r => r.1 = i).foldl (fun b r => Nat.lor b r.2.1) 0)) s
  (mine.map (·.1)).eraseDups.foldl (fun s i =>
    match (mine.filter fun r => r.1 = i).findSome? (·.2.2) with
    | some d => complete s d c 0 0
    | none => s) s

/-! ## HBM4E -/

/-- Reads device memory. -/
def hread (s : State) (a n : Nat) : List Byte := mread s.hbm a n

/-- Writes device memory; a write that covers a whole 32 B word makes an uncorrectable word good (R206). -/
def hwrite (s : State) (a : Nat) (bs : List Byte) : State :=
  { s with hbm := mwrite s.hbm a bs,
           hbmBad := s.hbmBad.filter fun e => !(decide (a ≤ 32 * e.1) && decide (32 * e.1 + 32 ≤ a + bs.length)) }

/-- Every byte of [a, a + n) lies in one of the extents (R205). -/
def insideExtents (ext : List (Nat × Nat)) : Nat → Nat → Nat → Bool
  | _, _, 0 => true
  | 0, _, _ => false
  | k + 1, a, n =>
    match ext.find? fun e => decide (e.1 ≤ a) && decide (a < e.1 + e.2) with
    | none => false
    | some e => let d := e.1 + e.2 - a
                if n ≤ d then true else insideExtents ext k (a + d) (n - d)

/-- The first address of [a, a + n) outside the extents, if there is one. -/
def firstOutside (ext : List (Nat × Nat)) : Nat → Nat → Nat → Option Nat
  | _, _, 0 => none
  | 0, a, _ => some a
  | k + 1, a, n =>
    match ext.find? fun e => decide (e.1 ≤ a) && decide (a < e.1 + e.2) with
    | none => some a
    | some e => let d := e.1 + e.2 - a
                if n ≤ d then none else firstOutside ext k (a + d) (n - d)

/-- [a, a + n) lies within one extent. -/
def inOneExtent (ext : List (Nat × Nat)) (a n : Nat) : Bool :=
  ext.any fun e => decide (e.1 ≤ a) && decide (a + n ≤ e.1 + e.2)

/-- The stack of a device address (R204). -/
def stackOf (s : State) (a : Nat) : Nat := (a / 4096) % numStacks s
/-- The pseudo-channel of a device address within its stack (R204). -/
def pchanOf (s : State) (a : Nat) : Nat := 8 * ((a / 4096 / numStacks s) % 8) + (a / 512) % 8

/-- The same offset in the other twin's copy of the context's extents (R432). -/
def shadowAddr (x : Ctx) (a : Nat) : Nat :=
  match (x.extents.zip x.shadow).find? fun e => decide (e.1.1 ≤ a) && decide (a < e.1.1 + e.1.2) with
  | some e => e.2.1 + (a - e.1.1)
  | none => a

/-- The device address that a twin of the given wing uses for an address of the context (R432, R435). -/
def twinAddr (s : State) (x : Ctx) (wing a : Nat) : Nat :=
  if (wingOf s wing).st == .twinShadow || x.promoted then shadowAddr x a else a

/-- The device address of the copy that hosts see: the primary's, or the promoted twin's (R432, R435). -/
def hostAddr (x : Ctx) (a : Nat) : Nat := if x.promoted then shadowAddr x a else a

end Sys2Proof.Machine
end

