-- ==== Sys2Proof/Machine/Sync.lean ====
section
/-! DEFINITION. The tables of a unit and what they say: stores (R258), wait conditions and targets (R236, R237), imports
(R248), issue entries (R222), routes (R239) and the waits that a unit holds (R238). -/

namespace Sys2Proof.Machine

/-! ## Unit stores (R258): the entries of store `code` start at code × 2^20 -/

/-- Entry size and count of each store (R258). -/
def storeShape (code : Nat) : Option (Nat × Nat) :=
  match code with
  | 0x01 => some (16, 1023) | 0x02 => some (4, 512) | 0x03 => some (16, 4) | 0x04 => some (4, 128)
  | 0x05 => some (16, 32) | 0x06 => some (8, 64) | 0x07 => some (4, 4) | 0x08 => some (128, 256)
  | 0x09 => some (128, 128) | 0x0A => some (16, 1023) | 0x0B => some (16, 255) | 0x0C => some (16, 32)
  | 0x0D => some (4, 8) | 0x0E => some (20, 15) | 0x0F => some (32, 1) | 0x10 => some (8, 64)
  | 0x11 => some (32, 1023) | 0x12 => some (8, 16) | 0x13 => some (32, 1) | 0x14 => some (64, 24576)
  | _ => none

/-! ## A unit, CU or MU -/

def unitStores (s : State) (k : Nat) : Mem := if siteIsCu k then (cuOf s k).stores else (muOf s k).stores
def unitTerm (s : State) (k : Nat) : Nat := if siteIsCu k then (cuOf s k).term else (muOf s k).term
def unitCtrs (s : State) (k : Nat) : Sparse Ctr := if siteIsCu k then (cuOf s k).ctrs else (muOf s k).ctrs
def unitGrantN (s : State) (k : Nat) : Nat := if siteIsCu k then (cuOf s k).grantN else (muOf s k).grantN
def unitRun (s : State) (k : Nat) : Bool := if siteIsCu k then (cuOf s k).run else (muOf s k).run
def unitFin (s : State) (k : Nat) : Bool := if siteIsCu k then (cuOf s k).fin else (muOf s k).fin
def unitCur (s : State) (k : Nat) : Option Grant := if siteIsCu k then (cuOf s k).cur else (muOf s k).cur
def unitGrants (s : State) (k : Nat) : List Grant := if siteIsCu k then (cuOf s k).grants else (muOf s k).grants
def ctrOf (s : State) (k c : Nat) : Ctr := sget Ctr.zero (unitCtrs s k) c

def setCtrs (s : State) (k : Nat) (m : Sparse Ctr) : State :=
  if siteIsCu k then modCu s k fun u => { u with ctrs := m } else modMu s k fun u => { u with ctrs := m }
def setCtr (s : State) (k c : Nat) (v : Ctr) : State := setCtrs s k (sset Ctr.zero (unitCtrs s k) c v)

/-- GROUP and ENTRY of the unit start record (R259). -/
def startRec (m : Mem) : Nat := stEnt m 0x13 32 0
def startGroup (m : Mem) : Nat := fld (startRec m) 16 10
def startEntry (m : Mem) : Nat := fld (startRec m) 0 10
def startList (m : Mem) (l : Nat) : Nat := fld (startRec m) (32 + 16 * l) 16
/-- The unit belongs to a tile group. -/
def inGroup (m : Mem) : Bool := startGroup m != 0x3FF

/-- The wing runs the shadow of the context. -/
def onShadow (s : State) (k : Nat) : Bool := (wingOf s (siteWing k)).st == .twinShadow

/-- The unit executes: its context is RUNNING with the run under way, its wing is not FAILED, and its twin has not stopped on a fault
(R434, R436). -/
def unitLive (s : State) (k : Nat) : Bool :=
  match siteCtx s k with
  | none => false
  | some c =>
    let x := ctxOf s c
    executes x && x.recess.all (fun r => !r.saving) && !x.termWait && (wingOf s (siteWing k)).st != .failed &&
    (match x.run with
      | some r => !r.zero && !r.staged
      | none => false) &&
    (match x.twinFault with
      | some (_, p, _) => p == onShadow s k
      | none => true)

/-- The Hall Monitor is on (R268). -/
def monitored (s : State) (k : Nat) : Bool :=
  match siteCtx s k with
  | some c => (ctxOf s c).level = 2
  | none => false

/-- Entry `i` of the launch shape vector of the run at the site (R271). -/
def shapeAt (s : State) (k i : Nat) : Nat :=
  match siteCtx s k with
  | none => 0
  | some c => match (ctxOf s c).run with
    | none => 0
    | some r => r.launch.shape.getD i 0

/-! ## Imports (R248) -/

/-- The valid import entries of a unit: counter and import number. -/
def importsOf (m : Mem) : List (Nat × Nat) :=
  (List.range 4).filterMap fun i =>
    let e := stEnt m 0x07 4 i
    if bitOf e 15 then some (fld e 0 6, fld e 8 4) else none

/-- The object that a counter imports in the present run. -/
def importObj (s : State) (k ctr : Nat) : Option Nat :=
  match (importsOf (unitStores s k)).find? fun e => e.1 = ctr with
  | none => none
  | some e =>
    match siteCtx s k with
    | none => none
    | some c => match (ctxOf s c).run with
      | none => none
      | some r => (r.launch.imports.getD e.2 none)

/-- The wings that a bridge joins: A–B, C–D, A–C, B–D (R437). -/
def bridgeEnds (b : Nat) : Nat × Nat :=
  match b with
  | 0 => (0, 1) | 1 => (2, 3) | 2 => (0, 2) | _ => (1, 3)

/-- The wings that the bridges which are not lost join with those of a mask, after three crossings (R428). -/
def joined (s : State) (m : Nat) : Nat :=
  let grow (m : Nat) : Nat := (List.range 4).foldl (fun m b =>
    let e := bridgeEnds b
    if s.health.bridges.getLsbD b || !(m.testBit e.1 || m.testBit e.2) then m else Nat.lor m (2 ^ e.1 + 2 ^ e.2)) m
  grow (grow (grow m))

/-- Two wings lie in different parts of a split device (R429). -/
def apart (s : State) (w v : Nat) : Bool :=
  s.health.split != 0 && (s.health.split.getLsbD w != s.health.split.getLsbD v || !((joined s (2 ^ w)).testBit v))

/-- An object is held in the part of its owner's lowest wing; the wing is cut off from it (R429, log entry 36). -/
def objApart (s : State) (o w : Nat) : Bool :=
  s.health.split != 0 && (match (objOf s o).owner with
    | none => false
    | some c => match (List.range 4).find? fun v => fld (ctxOf s c).strips (16 * v) 16 != 0 with
      | some v => apart s v w
      | none => false)

/-- The counter imports an object that is orphaned, for every waiter or for those of its part (R250, R429). -/
def importOrphaned (s : State) (k ctr : Nat) : Bool :=
  match importObj s k ctr with
  | none => false
  | some o => (objOf s o).orphan || !(objOf s o).valid || objApart s o (siteWing k)

/-- The object that an export number is bound to: by the launch of the run in progress, else of the last run, else of a run that is
staged (R245, R315). -/
def exportObj (x : Ctx) (n : Nat) : Option Nat :=
  let started := (x.run.filter fun r => !r.staged).map (·.launch)
  ((started.or x.last).or (x.run.map (·.launch))).bind fun l => l.exports.getD n none

/-! ## Wait conditions (R236, R237) -/

def wcDesc (w : Nat) : Nat := fld w 16 10
def wcArg (w : Nat) : Nat := fld w 12 4
def wcCounter (w : Nat) : Nat := fld w 0 6

/-- The target T of a condition for repetition `r` at the unit's present grant (R237). -/
def waitTarget (s : State) (k w r : Nat) : Int :=
  signed 32 (fld w 32 32) + (((unitGrantN s k - 1) * fld w 80 16 + r * fld w 64 16 : Nat) : Int) +
  (if wcArg w = 0 then 0 else (shapeAt s k (wcArg w) : Int))

/-- What testing a condition finds (R237, R250). -/
inductive Wait
  | holds | unmet | past | orphaned
  deriving DecidableEq, Repr

/-- Tests a condition (R237); an unmet one on an orphaned import ends with ORPHAN (R250). -/
def testWait (s : State) (k w r : Nat) : Wait :=
  let t := waitTarget s k w r
  if t ≤ 0 then .holds
  else if 0x7FFFFFFF < t then .past
  else if t ≤ ((ctrOf s k (wcCounter w)).value : Int) then .holds
  else if importOrphaned s k (wcCounter w) then .orphaned
  else .unmet

/-- The gate that stops the sequencer before descriptor `pos`. A gate whose entry is zero holds at once. -/
def gateFor (m : Mem) (pos : Nat) : Option Nat :=
  ((List.range 32).map fun i => stEnt m 0x05 16 i).find? fun w => w != 0 && wcDesc w = pos

/-! ## Issue entries (R222) -/

def ieWait (e : Nat) : Nat := fld e 24 8
def ieOffmap (e : Nat) : Nat := fld e 20 4
def ieSrc (e : Nat) : Nat := fld e 19 1
def ieDesc (e : Nat) : Nat := fld e 10 8
def ieNext (e : Nat) : Nat := fld e 0 10
def ieTstep (e : Nat) : Nat := fld e 48 16
def ieRm1 (e : Nat) : Nat := fld e 32 16
def ieRdim (e : Nat) : Nat := fld e 93 3
def ieRstep (e : Nat) : Int := signed 16 (fld e 64 16)

def listOf (u : MU) (l : Nat) : ListPos := sget ListPos.idle u.lists l
def genOf (u : MU) (g : Nat) : Gen := sget Gen.idle u.gens g
def queueEads (u : MU) (q : Nat) : List Ead := sget [] u.queues q
def pendOf (u : MU) (l : Nat) : Option Issued := sget none u.pend l

/-- The condition that the entry at a list's position waits on. -/
def listCond (u : MU) (l : Nat) : Option Nat :=
  let p := listOf u l
  if p.fin || p.pos = 0x3FF then none
  else
    let e := stEnt u.stores 0x0A 16 p.pos
    if ieWait e = 0xFF then none else some (stEnt u.stores 0x0B 16 (ieWait e))

/-- The waits a unit holds: list (0 for a CU), condition and repetition (R238). -/
def heldWaits (s : State) (k : Nat) : List (Nat × Nat × Nat) :=
  if siteIsCu k then
    let u := cuOf s k
    if u.run && !u.fin && !u.gateOpen && u.pos != 0x3FF then
      match gateFor u.stores u.pos with
      | some w => if testWait s k w u.rep == .holds then [] else [(0, w, u.rep)]
      | none => []
    else []
  else
    let u := muOf s k
    if u.run && !u.fin then
      (List.range 12).filterMap fun l =>
        match pendOf u l, listCond u l with
        | none, some w =>
          let r := (listOf u l).rep
          if testWait s k w r == .holds then none else some (l, w, r)
        | _, _ => none
    else []

/-! ## Routes (R239) -/

def rtValid (e : Nat) : Bool := bitOf e 63
def rtEvent (e : Nat) : Nat := fld e 60 3
def rtSrc (e : Nat) : Nat := fld e 54 6
def rtKind (e : Nat) : Nat := fld e 53 1
def rtIncr (e : Nat) : Nat := fld e 28 8
def rtWing (e : Nat) : Nat := fld e 51 2
def rtRow (e : Nat) : Nat := fld e 47 4
def rtCol (e : Nat) : Nat := fld e 42 5
def rtCtr (e : Nat) : Nat := fld e 36 6
def rtExport (e : Nat) : Nat := fld e 41 4

/-- The wing that a wing named by the syllabus is for a unit of this site: the twin's own wing (R432, R435). -/
def twinWing (s : State) (k w : Nat) : Nat :=
  let promoted := match siteCtx s k with
    | some c => (ctxOf s c).promoted
    | none => false
  if onShadow s k || promoted then (if w % 2 = 0 then w + 1 else w - 1) else w

/-- The packet that a route entry sends for an event of increment `inc` (R240). -/
def routePacket (s : State) (k i e inc : Nat) : Packet :=
  let x := (siteCtx s k).map (ctxOf s)
  { src := k, route := i,
    obj := if rtKind e = 1 then (x.bind fun x => exportObj x (rtExport e)) else none,
    site := if rtKind e = 1 then 4096 else siteKey (twinWing s k (rtWing e)) (rtRow e) (rtCol e),
    ctr := rtCtr e, inc := inc, term := unitTerm s k }

/-- Sends the packets of the routes of a unit that an event matches. -/
def sendRoutes (s : State) (k : Nat) (p : Nat → Bool) (inc : Nat) : State :=
  (List.range 64).foldl (fun s i =>
    let e := stEnt (unitStores s k) 0x06 8 i
    if rtValid e && p e then { s with mesh := s.mesh ++ [routePacket s k i e (inc * rtIncr e)] } else s) s

/-- The routes of EVENT 0b011: the unit's part of the run is complete (R239). -/
def partRoutes (s : State) (k : Nat) : State := sendRoutes s k (fun e => rtEvent e = 3) 1

/-- LAST_SRC of a local descriptor, a route, a host and an object or stream (R251). -/
def srcLocal (k q : Nat) : W32 :=
  BitVec.ofNat 32 (siteWing k * 2 ^ 28 + siteRow k * 2 ^ 24 + siteCol k * 2 ^ 19 + q * 2 ^ 13)
def srcRoute (k r : Nat) : W32 := srcLocal k r ||| 0x40000000
def srcHost (h : Nat) : W32 := BitVec.ofNat 32 (2 * 2 ^ 30 + h * 16)
def srcObject : W32 := 0xC0000000

end Sys2Proof.Machine
end

