-- ==== Sys2Proof/Machine/Faults.lean ====
section
/-! DEFINITION. Faults: detention (R296), orphaned objects (R250), the twin rule (R434), the raising of counters and
objects (R232, R247), and the states of wings (R436). -/

namespace Sys2Proof.Machine

/-! ## Objects -/

/-- Frees objects whose owner is gone and which nothing imports or awaits (R250). -/
def sweepObj (s : State) (o : Nat) : State :=
  let x := objOf s o
  if x.valid && x.owner.isNone && x.importers.isEmpty && x.away.isEmpty && x.waits.isEmpty then setObj s o Obj.none else s

/-- Ends a host wait with an OBJECT event (R247, R250, R383). -/
def endWait (s : State) (o : Nat) (w : HostWait) (orphaned : Bool) : State :=
  post s (cmdQueue s w.cmd)
    { kind := 6, status := if orphaned then 0x0D else 0, fault := if orphaned then 0x4002 else 0, cookie := w.cmd.cookie,
      ctx := w.ctx, flags := 0, detail := o + (objOf s o).value * 2 ^ 32 + w.target * 2 ^ 64 }

/-- An object becomes ORPHANED: its value freezes and its host waits end (R250). -/
def orphanObj (s : State) (o : Nat) (counted : Bool) : State :=
  let x := objOf s o
  let s := setObj s o { x with orphan := true, waits := [] }
  let s := if counted then bump s 0x231007 1 else s
  x.waits.foldl (fun s w => endWait s o w true) s

/-- What ORPHAN records of a wait of a unit on a counter that imports an object (R250). -/
def orphanRec (s : State) (k w rep o : Nat) : FaultRec :=
  .orphan k (wcCounter w) o (ctrOf s k (wcCounter w)).value (waitTarget s k w rep)

/-- The contexts that a unit waits in on a counter importing the object, other than `c`, each with what its fault records
(R250). -/
def orphanWaiters (s : State) (c o : Nat) : List (Nat × FaultRec) :=
  (objOf s o).importers.filterMap fun i =>
    match siteCtx s i.1 with
    | none => none
    | some d =>
      match (heldWaits s i.1).find? fun w => wcCounter w.2.1 = i.2 with
      | some w => if d != c && executes (ctxOf s d) then some (d, orphanRec s i.1 w.2.1 w.2.2 o) else none
      | none => none

/-- What a context's fault records. -/
def recordOf (s : State) (c : Nat) (r : FaultRec) : State := modCtx s c fun x => { x with record := some r }

/-- A unit's fault records something for the context that holds its site. -/
def recordAt (s : State) (k : Nat) (r : FaultRec) : State :=
  match siteCtx s k with
  | some c => recordOf s c r
  | none => s

/-- The objects of a context: those it owns that are not orphaned. -/
def ownedObjs (s : State) (c : Nat) : List Nat :=
  (s.objs.filter fun e => e.2.valid && e.2.owner = some c && !e.2.orphan).map (·.1)

/-- The objects that a context owns or imports, ascending. -/
def ctxObjs (s : State) (c : Nat) : List Nat :=
  let x := ctxOf s c
  let imp := match x.run.or x.heldRun with
    | some r => r.launch.imports.filterMap id
    | none => []
  (s.objs.filter fun e => e.2.valid && (e.2.owner = some c || imp.contains e.1)).map (·.1)

/-- These objects as they stand, for the readouts of a context in RECESS or DETENTION (R253). -/
def keepObjs (s : State) (c : Nat) : Sparse Obj := let os := ctxObjs s c
                                                   s.objs.filter fun e => os.contains e.1

/-! ## Detention (R296) -/

/-- RUN_DONE of a discarded launch (R296, R298, R383). -/
def discardLaunch (s : State) (c : Nat) (l : Launch) (flags : Nat) : State :=
  post s (cmdQueue s l.cmd)
    { kind := 2, status := 0, fault := 0, cookie := l.cmd.cookie, ctx := c, flags := 8 + flags, detail := l.num }

/-- The fault detail of a unit in a FAULT event: CU_FAULT, MU_FAULT or SW_FAULT by class, R324 for class 5, else a free
value (log entry 5). -/
def faultDetail (s : State) (site : Option Nat) (word : W16) (given : Option Nat) : Nat × State :=
  match given, site with
  | some d, _ => (d, s)
  | none, some k =>
    match (word.toNat / 4096) with
    | 1 => ((cuOf s k).fault.toNat, s)
    | 2 => ((muOf s k).fault.toNat, s)
    | 3 => ((swOf s k).fault.toNat, s)
    | _ => freshDetail s
  | none, none => freshDetail s

/-- Steps 1, 4 and 6 of R296 for one context, and the FAULT event. Nothing happens to a context that neither runs nor is
in RECESS (R280). -/
def detainOne (s : State) (c : Nat) (word : W16) (detail : Nat) : State :=
  let s := applyResets s c fun _ => true
  let x := ctxOf s c
  let left := ctxCode x.st
  let objs := if x.saved then x.heldObjs else keepObjs s c
  let s := setCtx s c { x with st := .detention, fault := word, heldObjs := objs, launches := [], pend := false, recess := none, resume := [],
                               hostHold := false, rewind := false, teardown := some s.fclk, twinFault := none, cmp := [],
                               termWait := false }
  let s := ctxEvent s c 3 word 0 (detail + left * 2 ^ 32)
  let cmds := (match x.recess with
    | some r => r.cmds
    | none => []) ++ x.resume
  let s := cmds.foldl (fun s d => completeF s d c 0x05 word 0 0) s
  x.launches.foldl (fun s l => discardLaunch s c l 0) s

/-- Detains a context, orphans its objects and detains the contexts that wait on them, in turn. The number bounds the
chain: each detention takes one of the 64 contexts out of RUNNING. -/
def detainF : Nat → State → Nat → W16 → Nat → State
  | 0, s, _, _, _ => s
  | n + 1, s, c, word, detail =>
    let st := (ctxOf s c).st
    if st != .running && st != .recess then s
    else
      let objs := ownedObjs s c
      let s := detainOne s c word detail
      objs.foldl (fun s o =>
        let s := orphanObj s o true
        (orphanWaiters s c o).foldl (fun s d =>
          if executes (ctxOf s d.1) then
            let r := freshDetail (recordOf s d.1 d.2)
            detainF n r.2 d.1 0x4002 r.1
          else s) s) s

/-- Detains a context with a fault word and the site that raised it. -/
def detain (s : State) (c : Nat) (word : W16) (site : Option Nat) (given : Option Nat) : State :=
  let r := faultDetail s site word given
  detainF 65 r.2 c word r.1

/-- Detains a context for an event whose own rule names no state that it must be in: from OPEN and LOADED too (R323, R328, R429; DESIGN
CHOICE, log entry 86: R280 lists RUNNING and RECESS). -/
def detainAny (s : State) (c : Nat) (word : W16) (given : Option Nat) : State :=
  let st := (ctxOf s c).st
  if st == .opened || st == .loaded then
    let r := faultDetail s none word given
    let objs := ownedObjs r.2 c
    objs.foldl (fun s o =>
      let s := orphanObj s o true
      (orphanWaiters s c o).foldl (fun s d =>
        if executes (ctxOf s d.1) then detain (recordOf s d.1 d.2) d.1 0x4002 none none else s) s) (detainOne r.2 c word r.1)
  else detain s c word none given

/-- Orphans one object and detains the contexts that wait on it (R250). -/
def orphan (s : State) (c o : Nat) (counted : Bool) : State :=
  let s := orphanObj s o counted
  (orphanWaiters s c o).foldl (fun s d =>
    if executes (ctxOf s d.1) then detain (recordOf s d.1 d.2) d.1 0x4002 none none else s) s

/-! ## Wings -/

/-- A wing changes state: an emergency message with the cause (R399, R436). A class-8 cause is a device fault; one that a unit has
raised has been counted then (R417). -/
def wingTo (s : State) (w : Nat) (st : WingSt) (cause : W16) : State :=
  let s := modWing s w fun x => { x with st := st, cause := if cause = 0 then x.cause else cause }
  if 0x8000 ≤ cause.toNat && cause != 0x8003 && cause != 0x8006 then deviceFault s cause w else emergency s cause w

/-- The contexts that hold a strip of a wing. -/
def wingCtxs (s : State) (w : Nat) : List Nat := ctxsWith s fun x => fld (ctxMask s x) (16 * w) 16 != 0

/-- The twin pair of a wing: 0 for A and B, 1 for C and D. -/
def wingPair (w : Nat) : Nat := w / 2
/-- The other wing of the pair. -/
def partner (w : Nat) : Nat := if w % 2 = 0 then w + 1 else w - 1

/-! ## Faults of units -/

/-- The words whose effect follows the twin rule (R417). -/
def twinRule (word : W16) : Bool :=
  word.toNat / 4096 ≤ 3 || word = 0x4001 || word = 0x8003 || word = 0x8001 || word = 0x8006

/-- A fault of one twin of a RUNNING twinned context (R434): the second twin's fault within the window detains with the
primary's word and detail. -/
def twinFaulted (s : State) (c : Nat) (shadow : Bool) (wing : Nat) (word : W16) (site : Option Nat) : State :=
  let s := modWing s wing fun x => { x with cause := word }
  match (ctxOf s c).twinFault with
  | none => modCtx s c fun x => { x with twinFault := some (s.fclk, !shadow, word), twinSite := site }
  | some (_, p, w) =>
    if p = !shadow then s
    else detain s c (if p then w else word) (if p then (ctxOf s c).twinSite else site) none

/-- A fault that a unit of a site raises (R417, R420): it detains the context that holds the site, under the twin rule when
that runs as twins. A class-8 word is also a device fault. -/
def unitFault (s : State) (k : Nat) (word : W16) : State :=
  let s := if 0x8000 ≤ word.toNat then deviceFault s word (siteWing k) else s
  let s := if word = 0x4001 then bump s 0x231008 1 else s
  match siteCtx s k with
  | none => s
  | some c =>
    let x := ctxOf s c
    if twinned s x && x.st == .running && twinRule word then
      twinFaulted s c (onShadow s k) (siteWing k) word (some k)
    else detain s c word (some k) none

/-- A CU fault with its CU_FAULT word (R138). -/
def cuFault (s : State) (k : Nat) (word : W16) (reason handle tag : Nat) : State :=
  unitFault (modCu s k fun u => { u with fault := BitVec.ofNat 32 (reason * 2 ^ 24 + (handle % 64) * 2 ^ 16 + tag % 65536) })
    k word

/-- An MU fault with its MU_FAULT and MU_FAULT_AT words (R174). -/
def muFault (s : State) (k : Nat) (word : W16) (reason gen ring tag slot addr : Nat) : State :=
  unitFault (modMu s k fun u =>
    { u with fault := BitVec.ofNat 32 (reason * 2 ^ 24 + (gen % 4) * 2 ^ 22 + (ring % 64) * 2 ^ 16 + tag % 65536),
             faultAt := BitVec.ofNat 32 ((slot % 16) * 2 ^ 21 + addr % 2 ^ 21) }) k word

/-- A switch fault with its SW_FAULT word (R201) and what it records beside that. -/
def swFault (s : State) (k : Nat) (word : W16) (port term tag : Nat) (r : FaultRec) : State :=
  unitFault (recordAt (modSw s k fun u =>
    { u with fault := BitVec.ofNat 32 ((port % 8) * 2 ^ 24 + (term % 256) * 2 ^ 16 + tag % 65536) }) k r) k word

/-- A unit's fault that records something (R122 to R124, R166, R192, R232, R243, R250). -/
def recFault (s : State) (k : Nat) (word : W16) (r : FaultRec) : State := unitFault (recordAt s k r) k word

/-- What a fault at a wait records: the counter waited on, the target and the value (R243), for an orphan its object (R250). -/
def waitRec (s : State) (k w rep : Nat) : FaultRec :=
  match importObj s k (wcCounter w) with
  | some o => if importOrphaned s k (wcCounter w) then orphanRec s k w rep o
              else .wait k (wcCounter w) (waitTarget s k w rep) (ctrOf s k (wcCounter w)).value 0
  | none => .wait k (wcCounter w) (waitTarget s k w rep) (ctrOf s k (wcCounter w)).value 0

/-- A wait on a condition ends in a fault. -/
def waitFault (s : State) (k : Nat) (word : W16) (cond : Option Nat) (rep : Nat) : State :=
  match cond with
  | some w => recFault s k word (waitRec s k w rep)
  | none => unitFault s k word

/-! ## Raising counters and objects -/

/-- Raises a counter, with LAST_SRC and LAST_TIME, and sends its routes; an increment past 0x7FFFFFFF leaves it and faults
(R232, R235, R239). -/
def raiseCtr (s : State) (k c inc : Nat) (src : W32) : State :=
  let v := ctrOf s k c
  if 0x7FFFFFFF < v.value + inc then recFault s k 0x4004 (.counter k c inc)
  else
    let s := setCtr s k c { v with value := v.value + inc, lastSrc := src, lastTime := s.fclk }
    sendRoutes s k (fun e => rtEvent e = 0 && rtSrc e = c) inc

/-- What raising an object answers (R247, R250). -/
inductive Raised
  | ok | overrun | orphan
  deriving DecidableEq, Repr

/-- Raises a shared object: its importers rise with the given LAST_SRC (R251), and the host waits that are met end. A signal at an orphan is dropped and
counted (R247, R248, R250). -/
def raiseObj (s : State) (o inc : Nat) (src : W32) : Raised × State :=
  let x := objOf s o
  if x.orphan || !x.valid then (.orphan, if x.valid then bump s 0x231007 1 else s)
  else if 0x7FFFFFFF < x.value + inc then (.overrun, s)
  else
    let v := x.value + inc
    let met := x.waits.filter fun w => decide (w.target ≤ v)
    let s := setObj s o { x with value := v, waits := x.waits.filter fun w => decide (v < w.target) }
    let s := met.foldl (fun s w => endWait s o w false) s
    (.ok, x.importers.foldl (fun s i =>
      match siteCtx s i.1 with
      | some c => if executes (ctxOf s c) && !(objApart s o (siteWing i.1)) then raiseCtr s i.1 i.2 inc src else s
      | none => s) s)

/-- An increment from the context's own sections or its timetable: an overrun faults the owner (R247). An object that is now
another context's is no longer the export: nothing happens to it. -/
def ownRaise (s : State) (c o inc : Nat) : State :=
  let x := objOf s o
  if x.valid && !x.orphan && x.owner != some c then s
  else match raiseObj s o inc srcObject with
    | (.overrun, s) => detain s c 0x4004 none none
    | (_, s) => s

/-! ## Errors of unit stores (R418, R419) -/

/-- A twin has met an uncorrectable error at a site (R434). -/
def noteTwin (s : State) (k : Nat) : State :=
  match siteCtx s k with
  | some c => modCtx s c fun x =>
      if !(twinned s x) then x
      else { x with twinErr := if onShadow s k then (x.twinErr.1, true) else (true, x.twinErr.2) }
  | none => s

/-- An uncorrectable word of a unit store: counted for its wing, recorded with its unit, store and address, and the context
that owns the unit faults. -/
def sramBad (s : State) (k store addr : Nat) : State :=
  let s := modWing s (siteWing k) fun w => { w with uncorr := satAdd 32 w.uncorr 1 }
  recFault { noteTwin s k with sramErr := (k, store, addr) :: s.sramErr.filter fun e => e != (k, store, addr) } k 0x8003 (.sram k store addr)

/-- A step whose unit reads its stores: a corrected word is counted, and from an uncorrectable one the unit delivers nothing. -/
def sramRead (s : State) (k : Nat) (e : Sram) (f : State → State) : State :=
  match e with
  | .clean => f s
  | .corrected => f (modWing s (siteWing k) fun w => { w with corrections := satAdd 32 w.corrections 1 })
  | .bad store addr => sramBad s k store addr

/-- A step of a unit, which reads its stores while it executes (R418, R419). -/
def atRead (a : At) (s : State) (f : State → State) : State := if unitLive s a.site then sramRead s a.site a.sram f else f s

end Sys2Proof.Machine
end

