-- ==== Sys2Proof/Machine/Formats.lean ====
section
/-! DEFINITION. Number formats (R52 to R66): codes, places, reading, narrowing, and the floating-point operations. -/

namespace Sys2Proof.Machine

/-- The format a 4-bit code names; codes 0x6, 0x7 and 0xF are reserved (R52). -/
def fmtOf (c : Nat) : Option Fmt :=
  match c with
  | 0x0 => some .fp32 | 0x1 => some .bf16 | 0x2 => some .fp16 | 0x3 => some .e5m2
  | 0x4 => some .e4m3 | 0x5 => some .fp4 | 0x8 => some .int32 | 0x9 => some .int8
  | 0xA => some .uint8 | 0xB => some .int4 | 0xC => some .uint4 | 0xD => some .int2
  | 0xE => some .uint2 | _ => none

/-- The 4-bit code of a format (R52). -/
def fmtCode : Fmt → Nat
  | .fp32 => 0x0 | .bf16 => 0x1 | .fp16 => 0x2 | .e5m2 => 0x3 | .e4m3 => 0x4 | .fp4 => 0x5
  | .int32 => 0x8 | .int8 => 0x9 | .uint8 => 0xA | .int4 => 0xB | .uint4 => 0xC
  | .int2 => 0xD | .uint2 => 0xE

/-- Bits of one element (R52). -/
def fmtBits : Fmt → Nat
  | .fp32 | .int32 => 32 | .bf16 | .fp16 => 16 | .e5m2 | .e4m3 | .int8 | .uint8 => 8
  | .fp4 | .int4 | .uint4 => 4 | .int2 | .uint2 => 2

/-- Floating-point formats (R52). -/
def fmtIsFloat : Fmt → Bool
  | .fp32 | .bf16 | .fp16 | .e5m2 | .e4m3 | .fp4 => true
  | _ => false

/-- Mantissa bits, exponent bits and bias of a floating-point format (R54). -/
def fmtParams : Fmt → Nat × Nat × Nat
  | .fp32 => (23, 8, 127) | .bf16 => (7, 8, 127) | .fp16 => (10, 5, 15)
  | .e5m2 => (2, 5, 15) | .e4m3 => (3, 4, 7) | _ => (1, 2, 1)

/-- Ends of an integer format's range (R57). -/
def fmtRange : Fmt → Int × Int
  | .int8 => (-128, 127) | .uint8 => (0, 255) | .int4 => (-8, 7) | .uint4 => (0, 15)
  | .int2 => (-2, 1) | .uint2 => (0, 3) | _ => (-2147483648, 2147483647)

/-- A drain output, scratchpad, HBM4E or stream format; INT2 and UINT2 are never produced by a drain (R53). -/
def fmtDrainOut : Fmt → Bool
  | .int2 | .uint2 => false
  | _ => true

/-- The canonical NaN of a format; +0 in FP4 (R54, R61). -/
def canonNan : Fmt → Nat
  | .fp32 => 0x7FC00000 | .bf16 => 0x7FC0 | .fp16 => 0x7E00 | .e5m2 => 0x7E | .e4m3 => 0x7C
  | _ => 0

/-- The code of an infinity; ±6.0 in FP4 (R54, R61). -/
def infCode (f : Fmt) (neg : Bool) : Nat :=
  let p := fmtParams f
  match f with
  | .fp4 => if neg then 0xF else 0x7
  | _ => b2n neg <<< (p.1 + p.2.1) + (2 ^ p.2.1 - 1) <<< p.1

/-- Reads one code of a format under R54 to R59: subnormal codes and −0 read as +0. -/
def readCode (f : Fmt) (c : Nat) : FVal :=
  match f with
  | .int32 => .fin (signed 32 c) 0
  | .int8 => .fin (signed 8 c) 0
  | .uint8 => .fin (c % 256 : Nat) 0
  | .int4 => .fin (signed 4 c) 0
  | .uint4 => .fin (c % 16 : Nat) 0
  | .int2 => .fin (signed 2 c) 0
  | .uint2 => .fin (c % 4 : Nat) 0
  | .fp4 =>
    let man := c % 2
    let ex := fld c 1 2
    let mag : Int := if ex = 0 then (man : Int) else ((2 + man : Nat) : Int)
    let e : Int := if ex = 0 then -1 else (ex : Int) - 2
    .fin (if bitOf c 3 then -mag else mag) e
  | _ =>
    let (mb, eb, bias) := fmtParams f
    let man := c % 2 ^ mb
    let ex := fld c mb eb
    let neg := bitOf c (mb + eb)
    if ex = 0 then .fin 0 0
    else if ex = 2 ^ eb - 1 then (if man = 0 then .inf neg else .nan)
    else
      let mag : Int := ((2 ^ mb + man : Nat) : Int)
      .fin (if neg then -mag else mag) ((ex : Int) - bias - mb)

/-- `m * 2 ^ k` rounded to an integer, ties to even, for a natural `m`. -/
def roundNat (m : Nat) (k : Int) : Nat :=
  if 0 ≤ k then m <<< k.toNat
  else
    let d := (-k).toNat
    let q := m >>> d
    let r := m % 2 ^ d
    let h := 2 ^ (d - 1)
    if r < h then q else if r > h then q + 1 else q + q % 2

/-- `m * 2 ^ k` rounded to an integer, ties to even (R63). -/
def roundInt (m : Int) (k : Int) : Int :=
  if m < 0 then -(roundNat m.natAbs k : Int) else (roundNat m.natAbs k : Int)

/-- What narrowing wrote and which event of R64 it counts. -/
structure Narrowed where
  code : Nat
  sat : Bool
  nan : Bool
  deriving DecidableEq, Repr

/-- A sign and a magnitude code put together. -/
def signCode (f : Fmt) (neg : Bool) (mag : Nat) : Nat :=
  b2n neg <<< ((fmtParams f).1 + (fmtParams f).2.1) + mag

/-- The reference procedure of Number Formats: narrows an exact value to a floating-point format (R61, R64). -/
def narrow (f : Fmt) (x : FVal) : Narrowed :=
  match x with
  | .nan => ⟨canonNan f, false, true⟩
  | .inf neg => ⟨infCode f neg, f == .fp4, false⟩
  | .fin m e =>
    if m = 0 then ⟨0, false, false⟩
    else
      let (mb, eb, bias) := fmtParams f
      let neg := decide (m < 0)
      let a := m.natAbs
      let top := (a.log2 : Int) + e
      let ex := if f == .fp4 && decide (top < 0) then 0 else top
      let n := roundNat a (e - (ex - mb))
      let (n, ex) := if n = 2 ^ (mb + 1) then (2 ^ mb, ex + 1) else (n, ex)
      let emax : Int := ((if f == .fp4 then 3 else 2 ^ eb - 2 : Nat) : Int) - bias
      if n = 0 then ⟨0, false, false⟩
      else if ex > emax then ⟨infCode f neg, true, false⟩
      else if n < 2 ^ mb then ⟨signCode f neg n, false, false⟩
      else if ex < 1 - (bias : Int) then ⟨0, false, false⟩
      else ⟨signCode f neg ((ex + bias).toNat <<< mb + (n - 2 ^ mb)), false, false⟩

/-- Saturates an integer into a format's range. -/
def satInt (f : Fmt) (v : Int) : Int := max (fmtRange f).1 (min (fmtRange f).2 v)

/-- Converts a value to an integer format (R63, R64). -/
def toInt (f : Fmt) (x : FVal) : Int × Bool × Bool :=
  match x with
  | .nan => (0, false, true)
  | .inf neg => (if neg then (fmtRange f).1 else (fmtRange f).2, true, false)
  | .fin m e =>
    let t := roundInt m e
    (satInt f t, satInt f t != t, false)

/-- Converts an exact value to any format (R62). -/
def convert (f : Fmt) (x : FVal) : Narrowed :=
  if fmtIsFloat f then narrow f x
  else
    let r := toInt f x
    ⟨unsignedOf (fmtBits f) r.1, r.2.1, r.2.2⟩

/-- An FP32 result rounded under R61. -/
def fp32 (x : FVal) : Nat := (narrow .fp32 x).code

/-- Reads an FP32 code (R59). -/
def rd32 (c : Nat) : FVal := readCode .fp32 c

/-- The negative of a value. -/
def vneg : FVal → FVal
  | .nan => .nan
  | .inf n => .inf (!n)
  | .fin m e => .fin (-m) e

/-- The magnitude of a value. -/
def vabs : FVal → FVal
  | .nan => .nan
  | .inf _ => .inf false
  | .fin m e => .fin m.natAbs e

/-- The exact sum; ∞ − ∞ is invalid (R61 step 2). -/
def vadd (x y : FVal) : FVal :=
  match x, y with
  | .nan, _ => .nan
  | _, .nan => .nan
  | .inf a, .inf b => if a == b then .inf a else .nan
  | .inf a, .fin _ _ => .inf a
  | .fin _ _, .inf b => .inf b
  | .fin m e, .fin n d =>
    let k := min e d
    .fin (m * 2 ^ (e - k).toNat + n * 2 ^ (d - k).toNat) k

/-- The exact product; 0 × ∞ is invalid (R61 step 2). -/
def vmul (x y : FVal) : FVal :=
  match x, y with
  | .nan, _ => .nan
  | _, .nan => .nan
  | .inf a, .inf b => .inf (a != b)
  | .inf a, .fin n _ => if n = 0 then .nan else .inf (a != decide (n < 0))
  | .fin m _, .inf b => if m = 0 then .nan else .inf (b != decide (m < 0))
  | .fin m e, .fin n d => .fin (m * n) (e + d)

/-- A quotient kept to 80 bits with a sticky bit below them, which every narrowing of R61 rounds as the exact one. -/
def quotNat (a b : Nat) : Nat × Int :=
  let k := 80 + b.log2
  let q := (a <<< k) / b
  let r := (a <<< k) % b
  (2 * q + b2n (r != 0), -(k : Int) - 1)

/-- The quotient; 0 ÷ 0 and ∞ ÷ ∞ are invalid, and a non-zero value over zero is an infinity of its sign (R61). -/
def vdiv (x y : FVal) : FVal :=
  match x, y with
  | .nan, _ => .nan
  | _, .nan => .nan
  | .inf _, .inf _ => .nan
  | .inf a, .fin n _ => .inf (a != decide (n < 0))
  | .fin _ _, .inf _ => .fin 0 0
  | .fin m e, .fin n d =>
    if n = 0 then (if m = 0 then .nan else .inf (decide (m < 0)))
    else
      let q := quotNat m.natAbs n.natAbs
      let s : Int := if (decide (m < 0)) != (decide (n < 0)) then -1 else 1
      .fin (s * q.1) (q.2 + e - d)

/-- The greatest `s` with `s * s ≤ n` and `s < 2 ^ k`, bit by bit from the top. -/
def isqrtGo (n : Nat) : Nat → Nat → Nat
  | 0, acc => acc
  | k + 1, acc =>
    let t := acc + 2 ^ k
    isqrtGo n k (if t * t ≤ n then t else acc)

/-- The integer square root. -/
def isqrt (n : Nat) : Nat := isqrtGo n (n.log2 / 2 + 1) 0

/-- The square root with a sticky bit; of a value below zero it is invalid (R61 step 2). -/
def vsqrt (x : FVal) : FVal :=
  match x with
  | .nan => .nan
  | .inf neg => if neg then .nan else .inf false
  | .fin m e =>
    if m < 0 then .nan
    else if m = 0 then .fin 0 0
    else
      let par := (e % 2).toNat
      let a := m.natAbs <<< (120 + par)
      let s := isqrt a
      .fin (2 * s + b2n (s * s != a) : Nat) ((e - par - 120) / 2 - 1)

/-- Compares two finite or infinite values: true when x < y. False when either is NaN. -/
def vlt (x y : FVal) : Bool :=
  match x, y with
  | .nan, _ => false
  | _, .nan => false
  | .inf a, .inf b => a && !b
  | .inf a, .fin _ _ => a
  | .fin _ _, .inf b => !b
  | .fin m e, .fin n d =>
    let k := min e d
    decide (m * 2 ^ (e - k).toNat < n * 2 ^ (d - k).toNat)

/-- Equality of values. False when either is NaN. -/
def veq (x y : FVal) : Bool :=
  x != .nan && y != .nan && !vlt x y && !vlt y x

/-- The larger value; a NaN input gives NaN (R61). -/
def vmax (x y : FVal) : FVal :=
  if x == .nan || y == .nan then .nan else if vlt x y then y else x

/-- The smaller value; a NaN input gives NaN (R61). -/
def vmin (x y : FVal) : FVal :=
  if x == .nan || y == .nan then .nan else if vlt y x then y else x

/-- FP32 addition rounded once under R61. -/
def fadd (a b : Nat) : Nat := fp32 (vadd (rd32 a) (rd32 b))

/-- FP32 multiplication rounded once under R61. -/
def fmul (a b : Nat) : Nat := fp32 (vmul (rd32 a) (rd32 b))

/-- FP32 division rounded once under R61. -/
def fdiv (a b : Nat) : Nat := fp32 (vdiv (rd32 a) (rd32 b))

/-- Element `i` of a packed byte string in a format of `bits` bits (R58). -/
def elemAt (bits : Nat) (bs : List Byte) (i : Nat) : Nat :=
  if bits < 8 then fld (leAt bs (i * bits / 8) 1) (i * bits % 8) bits
  else leAt bs (i * (bits / 8)) (bits / 8)

/-- Packs codes of `bits` bits, element 0 in the least significant bits (R58). -/
def packNat (bits : Nat) : List Nat → Nat
  | [] => 0
  | c :: cs => c % 2 ^ bits + packNat bits cs <<< bits

/-- Packs codes into whole bytes (R58). -/
def packCodes (bits : Nat) (cs : List Nat) : List Byte :=
  leBytes (ceilDiv (bits * cs.length) 8) (packNat bits cs)

end Sys2Proof.Machine
end

