-- ==== Sys2Proof/Machine/Desc.lean ====
section
/-! DEFINITION. Descriptors of the Memory Unit and what they address: the tile, gather/scatter, layout-copy and
external-access descriptors (R149 to R160, R167 to R172, R212, R213), their checks (R150, R214), and ring slots (R218). -/

namespace Sys2Proof.Machine

/-- Word `i` of a descriptor. -/
def dW (d i : Nat) : Nat := fld d (32 * i) 32

/-! ## Header fields -/

def dType (d : Nat) : Nat := fld d 28 4
def dFmtCode (d : Nat) : Nat := fld d 24 4
def dFmt (d : Nat) : Fmt := (fmtOf (dFmtCode d)).getD .fp32
def dDir (d : Nat) : Bool := bitOf d 23
def dNdm1 (d : Nat) : Nat := fld d 20 3
def dHalo (d : Nat) : Bool := bitOf d 18
def dGen (d : Nat) : Nat := fld d 16 2
def dTag (d : Nat) : Nat := fld d 0 16
def dRing (d : Nat) : Nat := fld d 58 6
def dBase (d : Nat) : Nat := fld d 32 21
/-- SLOT_LAST: bit 19 of a TD and an LCD, 20 of a GSD, 18 of an EAD. -/
def dLast (d : Nat) : Bool :=
  match dType d with
  | 2 => bitOf d 20
  | 4 => bitOf d 18
  | _ => bitOf d 19
/-- Report Card index: W2 of a TD and an LCD, W7 of a GSD. -/
def dRc (d : Nat) : Nat := if dType d = 2 then fld (dW d 7) 24 8 else fld (dW d 2) 24 8
def dSig (d : Nat) : Nat := if dType d = 2 then fld (dW d 7) 16 8 else fld (dW d 2) 16 8

/-- External-access descriptor. -/
def eDir (d : Nat) : Nat := fld d 22 2
def eQueue (d : Nat) : Nat := fld d 19 3
def eHaddr (d : Nat) : Nat := fld d 128 64

/-- Gather/scatter descriptor. -/
def gOp (d : Nat) : Nat := fld d 21 2
def gIring (d : Nat) : Nat := fld (dW d 2) 26 6
def gIbase (d : Nat) : Nat := fld (dW d 2) 0 21
def gRowBytes (d : Nat) : Nat := fld (dW d 5) 0 10
def gRowStride (d : Nat) : Nat := fld (dW d 6) 0 24
def gTlimit (d : Nat) : Nat := fld (dW d 7) 0 15
def gIlimit (d : Nat) : Nat := fld (dW d 8) 0 15

/-- Layout-copy descriptor: the destination. -/
def lDring (d : Nat) : Nat := fld (dW d 24) 26 6
def lDbase (d : Nat) : Nat := fld (dW d 24) 0 21
def lPerm (d j : Nat) : Nat := fld (dW d 3) (3 * j) 3
def lDstride (d j : Nat) : Int := if j = 0 then 0 else signed 24 (fld (dW d (25 + j)) 0 24)

/-- Length of a direct region in 64 B units. -/
def dLimit (d : Nat) : Nat :=
  match dType d with
  | 1 => fld (dW d 3) 12 15
  | 3 => fld (dW d 30) 0 15
  | _ => fld (dW d 2) 0 15

/-! ## Dimensions -/

/-- A dimension at run time: N, the planned and the run-time extent, ORIGIN + OFF, the pads and the strides. -/
structure Dim where
  n : Nat
  ext : Nat
  e : Nat
  c0 : Int
  padLo : Nat
  padHi : Nat
  stride : Int
  hstride : Int
  deriving DecidableEq, Repr

/-- Dimensions in use. -/
def dNdim (d : Nat) : Nat := if dType d = 4 then fld d 16 2 + 1 else min (dNdm1 d) 4 + 1

/-- First word and number of words of dimension `j`. -/
def dimWord (d j : Nat) : Nat := if dType d = 4 then 8 + 6 * j else 4 + 4 * j
def dimWords (d : Nat) : Nat := if dType d = 4 then 6 else 4

/-- SHAPE_SEL of dimension `j`. -/
def dimSel (d j : Nat) : Nat := fld (dW d (dimWord d j)) 12 4

/-- Dimension `j`; `shp` gives the entries of the launch shape vector (R152, R212). -/
def dimOf (d : Nat) (shp : Nat → Nat) (off : List Int) (j : Nat) : Dim :=
  let w := dimWord d j
  let ext := fld (dW d w) 16 16
  let n := fld (dW d (w + 1)) 16 16
  let c0 := signed 16 (fld (dW d (w + 1)) 0 16) + off.getD j 0
  let e := if dimSel d j = 0 then ext else shp (dimSel d j)
  if dType d = 4 then
    { n := n, ext := ext, e := e, c0 := c0, padLo := 0, padHi := 0, stride := signed 24 (fld (dW d (w + 4)) 0 24),
      hstride := signed 44 (fld (dW d (w + 2)) 0 32 + fld (dW d (w + 3)) 0 12 * 2 ^ 32) }
  else
    { n := n, ext := ext, e := e, c0 := c0, padLo := fld (dW d (w + 2)) 0 16, padHi := fld (dW d (w + 2)) 16 16,
      stride := signed 24 (fld (dW d (w + 3)) 0 24), hstride := 0 }

/-- The dimensions in use. -/
def dimsOf (d : Nat) (shp : Nat → Nat) (off : List Int) : List Dim :=
  (List.range (dNdim d)).map (dimOf d shp off)

/-- ORDER loop `l` (1 innermost after dimension 0) of a TD or an EAD; an LCD has none. -/
def dLoop (d l : Nat) : Nat := fld (dW d 3) (3 * (l - 1)) 3

/-- The walk order of the dimensions, innermost first: 0 and the loops of ORDER (R154, R213). -/
def walkOrder (d : Nat) : List Nat := 0 :: (List.range (dNdim d - 1)).map fun l => dLoop d (l + 1)

/-! ## Walks (R153, R154) -/

/-- Index vectors of a box with the given counts, first index fastest. -/
def boxIdx : List Nat → List (List Nat)
  | [] => [[]]
  | n :: ns => (boxIdx ns).flatMap fun t => (List.range n).map (· :: t)

/-- The view indices in walk order, each by dimension. -/
def viewIdx (order : List Nat) (dims : List Dim) : List (List Nat) :=
  (boxIdx (order.map fun j => (dims.map (·.n)).getD j 1)).map fun t =>
    (List.range dims.length).map fun j => t.getD (order.idxOf j) 0

/-- How a coordinate is classified: nothing for pad, else the clamped coordinate and whether it was clamped (R153). -/
def classify (x : Dim) (i : Nat) : Option (Nat × Bool) :=
  let c := x.c0 + i
  if (c < 0 && -(x.padLo : Int) ≤ c) || ((x.e : Int) ≤ c && c < (x.e + x.padHi : Nat)) then none
  else if c < 0 then some (0, true)
  else if (x.e : Int) ≤ c then some (x.e - 1, true)
  else some (c.toNat, false)

/-- An element of a view: nothing for pad, else its clamped coordinates and whether it is clamped. -/
def viewElem (dims : List Dim) (idx : List Nat) : Option (List Nat × Bool) :=
  ((dims.zip idx).foldr (fun p a =>
    match classify p.1 p.2, a with
    | some (c, k), some (cs, b) => some (c :: cs, k || b)
    | _, _ => none) (some ([], false)))

/-- Offset in bits of tensor coordinates from the origin of the tensor (R154). -/
def bitOffset (bits : Nat) (strides : List Int) (cs : List Nat) : Int :=
  ((cs.headD 0 * bits : Nat) : Int) +
  8 * (((cs.drop 1).zip (strides.drop 1)).foldl (fun a p => a + (p.1 : Int) * p.2) 0)

/-- The zero-extent run of R158. -/
def zeroExtent (dims : List Dim) : Bool := dims.any fun x => x.e = 0

/-- One element of a walk: its bit offset from the origin of the tensor (nothing for pad), whether it is clamped, whether a
new row begins, and the bit offset of the row's tensor element 0. -/
structure WalkEl where
  off : Option Int
  clamp : Bool
  first : Bool
  row : Int
  deriving DecidableEq, Repr

/-- The walk of a TD, or of the source side of an LCD taken in the destination's order. -/
def walkOf (bits : Nat) (order : List Nat) (dims : List Dim) : List WalkEl :=
  (viewIdx order dims).map fun idx =>
    let strides := dims.map (·.stride)
    match viewElem dims idx with
    | none => { off := none, clamp := false, first := idx.headD 0 = 0, row := 0 }
    | some (cs, k) => { off := some (bitOffset bits strides cs), clamp := k, first := idx.headD 0 = 0,
                        row := bitOffset bits strides (0 :: cs.drop 1) }

/-! ## Footprints (R157) -/

/-- The least and the greatest of a list of integers. -/
def minMax (l : List Int) : Option (Int × Int) :=
  match l with
  | [] => none
  | a :: r => some (r.foldl min a, r.foldl max a)

/-- Bytes [lo, hi) of a set of bit offsets of elements, from the origin of the tensor. -/
def hullOf (bits : Nat) (offs : List Int) : Option (Int × Int) :=
  (minMax offs).map fun m => (m.1 / 8, (m.2 + bits + 7) / 8)

/-- A region of the scratchpad: where the tensor's origin lies, and the region's ends. -/
structure Region where
  org : Nat
  lo : Nat
  hi : Nat
  deriving DecidableEq, Repr

/-- Ring `r` of a unit: slots (0 when it is not enabled), base and slot size in bytes (R218). -/
def ringShape (m : Mem) (r : Nat) : Nat × Nat × Nat :=
  let e := stEnt m 0x0C 16 r
  if bitOf (dW e 2) 0 then (fld e 22 4 + 1, 64 * fld e 0 15, 64 * fld (dW e 1) 0 15) else (0, 0, 0)

/-- The region of an access in direct mode or in a ring's slot. -/
def regionOf (m : Mem) (ring base limit slot : Nat) : Region :=
  if ring = 0x3F then { org := base, lo := base, hi := min (base + 64 * limit) 0x180000 }
  else
    let q := ringShape m ring
    { org := q.2.1 + slot * q.2.2 + base, lo := q.2.1 + slot * q.2.2, hi := q.2.1 + (slot + 1) * q.2.2 }

/-- The first address of a footprint outside its region, if there is one (R157). -/
def outside (r : Region) (lo hi : Int) : Option Int :=
  if lo < r.lo then some lo else if (r.hi : Int) < hi then some (max lo r.hi) else none

/-! ## Beats and bank conflicts (R145, R155) -/

/-- For each element of a walk, the number of its bank word in the view's word sequence: nothing for pad and for rows that
are not aligned. The accumulator is the count so far, the last bank word of the row, and whether the row is aligned. -/
def seqNumbers (org : Nat) : List WalkEl → Nat → Option Int → Nat → List (Option (Nat × Int))
  | [], _, _, _ => []
  | e :: l, n, last, k =>
    let last := if e.first then none else last
    match e.off with
    | none => none :: seqNumbers org l n last k
    | some o =>
      if (8 * (org : Int) + e.row) % 512 != 0 then none :: seqNumbers org l n none k
      else
        let w := (8 * (org : Int) + o) / 512
        if last = some w then some (n - 1, w) :: seqNumbers org l n last k
        else some (n, w) :: seqNumbers org l (n + 1) (some w) k

/-- Two words of one beat in one bank at different rows. -/
def wordsClash : List Int → Bool
  | [] => false
  | w :: l => (l.any fun v => w != v && (w - v) % 32 = 0) || wordsClash l

/-- The first beat with a bank conflict: its number and its first bank word. -/
def firstConflict (ws : List Int) : Nat → Nat → Option (Nat × Int)
  | 0, _ => none
  | k + 1, b =>
    match ws.take 8 with
    | [] => none
    | w :: r => if wordsClash (w :: r) then some (b, w) else firstConflict (ws.drop 8) k (b + 1)

/-- The bank words of a view in sequence. -/
def wordSeq (seq : List (Option (Nat × Int))) : List Int :=
  (seq.foldl (fun (a : Nat × List Int) e =>
    match e with
    | some (n, w) => if n < a.1 then a else (n + 1, w :: a.2)
    | none => a) (0, [])).2.reverse

/-- Where a walk meets a bank conflict: the number of elements before the conflicting beat, and the beat's first address. -/
def conflictAt (org : Nat) (walk : List WalkEl) : Option (Nat × Nat) :=
  let seq := seqNumbers org walk 0 none 0
  let ws := wordSeq seq
  (firstConflict ws (ws.length / 8 + 1) 0).map fun c =>
    ((seq.findIdx? fun e => match e with | some (n, _) => decide (8 * c.1 ≤ n) | none => false).getD walk.length,
     (c.2 * 64).toNat)

/-! ## Reading and writing elements of the scratchpad (R58) -/

/-- The code of `bits` bits at a bit address. -/
def spadGet (m : Mem) (bits : Nat) (a : Int) : Nat :=
  let a := a.toNat
  if 8 ≤ bits then mnat m (a / 8) (bits / 8) else fld (mnat m (a / 8) 1) (a % 8) bits

/-- The memory with the code at a bit address replaced, no other bit changed. -/
def spadPut (m : Mem) (bits : Nat) (a : Int) (v : Nat) : Mem :=
  let a := a.toNat
  if 8 ≤ bits then mwrite m (a / 8) (leBytes (bits / 8) v)
  else mwrite m (a / 8) (leBytes 1 (setFld (mnat m (a / 8) 1) (a % 8) bits v))

/-! ## Checks (R150, R214) -/

/-- Reserved words and bits of the dimension records: those of dimensions in use, and everything beyond NDIM. -/
def dimsReservedOk (d maxDim : Nat) : Bool :=
  (List.range maxDim).all fun j =>
    let w := dimWord d j
    if j < dNdim d then
      fld (dW d w) 0 12 = 0 &&
      (if dType d = 4 then fld (dW d (w + 3)) 12 20 = 0 && fld (dW d (w + 4)) 24 8 = 0 && dW d (w + 5) = 0
       else fld (dW d (w + 3)) 24 8 = 0)
    else fld d (32 * w) (32 * dimWords d) = 0

/-- Reserved bits of a descriptor (R16, R150), the fields of dimensions at or beyond NDIM among them. -/
def descBitsOk (d : Nat) : Bool :=
  match dType d with
  | 1 => fld (dW d 1) 21 5 = 0 && fld (dW d 2) 0 16 = 0 && fld (dW d 3) 27 5 = 0 && dimsReservedOk d 5 &&
         fld d 768 256 = 0
  | 2 => fld d 18 2 = 0 && fld (dW d 1) 21 5 = 0 && fld (dW d 2) 21 5 = 0 && fld (dW d 3) 0 12 = 0 &&
         fld (dW d 4) 0 4 = 0 && fld (dW d 5) 10 22 = 0 && fld (dW d 6) 24 8 = 0 && fld (dW d 7) 15 1 = 0 &&
         fld (dW d 8) 15 17 = 0 && fld d 288 736 = 0
  | 3 => fld d 23 1 = 0 && fld (dW d 1) 21 5 = 0 && fld (dW d 2) 0 16 = 0 && fld (dW d 3) 15 17 = 0 &&
         dimsReservedOk d 5 && fld (dW d 24) 21 5 = 0 && fld (dW d 25) 15 17 = 0 &&
         ((List.range 4).all fun j => fld (dW d (26 + j)) 24 8 = 0 && (j + 1 < dNdim d || dW d (26 + j) = 0)) &&
         fld (dW d 30) 15 17 = 0 && dW d 31 = 0
  | _ => fld (dW d 1) 21 5 = 0 && fld (dW d 2) 24 8 = 0 && fld (dW d 2) 15 1 = 0 && fld (dW d 3) 9 23 = 0 &&
         dW d 6 = 0 && dW d 7 = 0 && dimsReservedOk d 4

/-- Fields that must be zero: HALO of a load, and the region length in ring mode (R151, R212). DESIGN CHOICE (log entry 83): R150 names
no reason for them, and they take 0x01. -/
def descZeroOk (d : Nat) : Bool :=
  match dType d with
  | 1 => (dDir d || !dHalo d) && (dRing d = 0x3F || dLimit d = 0)
  | 2 => true
  | 3 => true
  | _ => dRing d = 0x3F || dLimit d = 0

/-- Reserved bits and fields that must be zero (reason 0x01). -/
def descReservedOk (d : Nat) : Bool := descBitsOk d && descZeroOk d

/-- A RING field holds a ring number or 0x3F. -/
def ringCodeOk (r : Nat) : Bool := decide (r < 32) || r = 0x3F

/-- Reserved TYPE, RING, OP or format code (reason 0x02); `eads` says which store the descriptor came from. -/
def descCodesOk (d : Nat) (eads : Bool) : Bool :=
  (fmtOf (dFmtCode d)).isSome && ringCodeOk (dRing d) &&
  match dType d with
  | 1 => !eads
  | 2 => !eads && ringCodeOk (gIring d) && decide (gOp d ≤ 1) &&
         (gOp d = 0 || (dDir d && (dFmtCode d = 0 || dFmtCode d = 8)))
  | 3 => !eads && ringCodeOk (lDring d)
  | 4 => eads
  | _ => false

/-- The sub-byte rules of R156 for dimension 0 of a source (reason 0x03). -/
def subByteOk (bits : Nat) (x : Dim) : Bool :=
  if 8 ≤ bits then true
  else
    let q := 8 / bits
    x.ext % q = 0 && x.n % q = 0 && x.c0 % (q : Int) = 0 && x.padLo % q = 0 && x.padHi % q = 0 && x.e % q = 0

/-- A list of numbers that is a permutation of `lo` to `lo + length - 1`. -/
def isPerm (lo : Nat) (l : List Nat) : Bool := (List.range l.length).all fun i => l.contains (lo + i)

/-- Loop order, PERM, strides of dimension 0, N, EXT and the coordinate range (reason 0x04). DESIGN CHOICE (log entry 83): a non-zero
ORDER or PERM entry beyond NDIM takes 0x04 and not 0x01. -/
def descShapeOk (d : Nat) (dims : List Dim) : Bool :=
  let nd := dNdim d
  let loopsOk (maxLoop : Nat) :=
    isPerm 1 ((List.range (nd - 1)).map fun l => dLoop d (l + 1)) &&
    ((List.range maxLoop).all fun l => l + 1 < nd || dLoop d (l + 1) = 0)
  let dimsOk := dims.all fun x =>
    x.n != 0 && x.ext != 0 && decide (-2147483648 ≤ x.c0) && decide (x.c0 + (x.n : Int) - 1 < 2147483648)
  let zero := (dims.headD { n := 0, ext := 0, e := 0, c0 := 0, padLo := 0, padHi := 0, stride := 1, hstride := 1 })
  match dType d with
  | 1 => decide (dNdm1 d ≤ 4) && zero.stride = 0 && loopsOk 4 && dimsOk
  | 2 => true
  | 3 => decide (dNdm1 d ≤ 4) && zero.stride = 0 && isPerm 0 ((List.range nd).map (lPerm d)) &&
         ((List.range 5).all fun j => j < nd || lPerm d j = 0) && dimsOk
  | _ => zero.stride = 0 && zero.hstride = 0 && loopsOk 3 && dimsOk

/-- A type that the store names (R149, R212); the layout of the others is not given, so they have TYPE as their only field. -/
def descTypeOk (d : Nat) (eads : Bool) : Bool := if eads then dType d = 4 else 1 ≤ dType d && dType d ≤ 3

/-- The reason under which a descriptor is refused: a reserved TYPE first, then the lowest that applies (R150, R214; DESIGN CHOICE,
log entry 62, for the order). `declared` says which shape entries the section declares, `ringOn` which rings it has and `queueOn`
which queues are enabled. -/
def descReason (d : Nat) (eads : Bool) (shp : Nat → Nat) (declared ringOn queueOn : Nat → Bool) (off : List Int) :
    Option Nat :=
  let bits := fmtBits (dFmt d)
  let dims := dimsOf d shp off
  let hasRing (r : Nat) : Bool := r = 0x3F || ringOn r
  let sels := match dType d with
    | 2 => [fld (dW d 3) 12 4, fld (dW d 4) 4 4]
    | _ => (List.range (dNdim d)).map (dimSel d)
  if !(descTypeOk d eads) then some 2
  else if !(descReservedOk d) then some 1
  else if !(descCodesOk d eads) then some 2
  else if dType d != 2 && !(subByteOk bits (dims.headD
      { n := 0, ext := 0, e := 0, c0 := 0, padLo := 0, padHi := 0, stride := 0, hstride := 0 })) then some 3
  else if !(descShapeOk d dims) then some 4
  else if (47 < dSig d && dSig d != 0xFF) || !(hasRing (dRing d)) || (dType d = 2 && !(hasRing (gIring d))) ||
      (dType d = 3 && !(hasRing (lDring d))) || sels.any (fun v => v != 0 && !(declared v)) then some 5
  else if dType d = 2 && (gRowBytes d % 4 != 0 || gRowBytes d < 4 || 512 < gRowBytes d || gRowStride d % 4 != 0 ||
      gRowStride d < gRowBytes d || dBase d % 4 != 0 || gIbase d % 4 != 0) then some 6
  else if dType d = 3 && bits < 8 && lPerm d 0 != 0 then some 7
  else if dType d = 4 && (!(queueOn (eQueue d)) || (2 ≤ eDir d && (dRing d != 0x3F || dBase d != 0))) then some 8
  else if dType d = 4 && 16 ≤ bits && (eHaddr d % (bits / 8) != 0 ||
      dims.any (fun x => x.hstride % ((bits / 8 : Nat) : Int) != 0 || x.stride % ((bits / 8 : Nat) : Int) != 0)) then some 9
  else none

/-! ## External accesses (R213) -/

/-- Whether an element is inside the tensor. -/
def insideTensor (dims : List Dim) (idx : List Nat) : Bool :=
  (dims.zip idx).all fun p => decide (0 ≤ p.1.c0 + (p.2 : Int)) && decide (p.1.c0 + (p.2 : Int) < p.1.e)

/-- Bit address in HBM4E of an element. -/
def hbmBit (d bits : Nat) (dims : List Dim) (idx : List Nat) : Int :=
  let cs := (dims.zip idx).map fun p => p.1.c0 + (p.2 : Int)
  8 * (eHaddr d : Int) + cs.headD 0 * bits +
  8 * (((cs.drop 1).zip ((dims.map (·.hstride)).drop 1)).foldl (fun a p => a + p.1 * p.2) 0)

/-- Bit offset in the scratchpad of an element: by view index. -/
def spadBit (bits : Nat) (dims : List Dim) (idx : List Nat) : Int := bitOffset bits (dims.map (·.stride)) idx

/-- The ends of the sum of independent terms, each over a list of values. -/
def sumEnds (ls : List (List Int)) : Option (Int × Int) :=
  ls.foldl (fun a l =>
    match a, minMax l with
    | some (x, y), some (u, v) => some (x + u, y + v)
    | _, _ => none) (some (0, 0))

/-- The scratchpad footprint of an EAD from its origin: every element of the view (R213). -/
def eadSpadHull (bits : Nat) (dims : List Dim) : Option (Int × Int) :=
  (sumEnds (dims.mapIdx fun j x =>
    let f (i : Nat) : Int := if j = 0 then ((i * bits : Nat) : Int) else 8 * ((i : Int) * x.stride)
    [f 0, f (x.n - 1)])).map fun m => (m.1 / 8, (m.2 + bits + 7) / 8)

/-- The HBM4E hull of an EAD: the inside elements (R205, R213). -/
def eadHull (d bits : Nat) (dims : List Dim) : Option (Int × Int) :=
  (sumEnds ([8 * (eHaddr d : Int)] :: dims.mapIdx fun j x =>
    let lo := max x.c0 0
    let hi := min (x.c0 + (x.n : Int) - 1) ((x.e : Int) - 1)
    let f (c : Int) : Int := if j = 0 then c * bits else 8 * (c * x.hstride)
    if lo ≤ hi then [f lo, f hi] else [])).map fun m => (m.1 / 8, (m.2 + bits + 7) / 8)

/-- The footprint of a TD or of an LCD's source from its origin: the non-pad elements at their clamped coordinates. -/
def viewHull (bits : Nat) (dims : List Dim) : Option (Int × Int) :=
  (sumEnds (dims.mapIdx fun j x =>
    (List.range x.n).filterMap fun i => (classify x i).map fun c =>
      if j = 0 then ((c.1 * bits : Nat) : Int) else 8 * ((c.1 : Int) * x.stride))).map
    fun m => (m.1 / 8, (m.2 + bits + 7) / 8)

/-- The footprint of an LCD's destination from its origin. -/
def lcdHull (d bits : Nat) (dims : List Dim) : Option (Int × Int) :=
  (sumEnds ((List.range dims.length).map fun j =>
    let n := (dims.map (·.n)).getD (lPerm d j) 1
    let f (i : Nat) : Int := if j = 0 then ((i * bits : Nat) : Int) else 8 * ((i : Int) * lDstride d j)
    [f 0, f (n - 1)])).map fun m => (m.1 / 8, (m.2 + bits + 7) / 8)

/-- The walk of an LCD in the destination's order: source element and destination element (R172). The source walk follows
the order PERM; a destination element begins a row when its dimension 0 index is zero. DESIGN CHOICE (log entry 83): with PERM_0 ≠ 0
each source element is a row of its own, in the destination's order. -/
def lcdWalk (d bits : Nat) (dims : List Dim) : List (WalkEl × WalkEl) :=
  let perm := (List.range dims.length).map (lPerm d)
  let dst := (List.range dims.length).map (lDstride d)
  (boxIdx (perm.map fun j => (dims.map (·.n)).getD j 1)).map fun t =>
    let idx := (List.range dims.length).map fun j => t.getD (perm.idxOf j) 0
    let first := t.headD 0 = 0
    let src : WalkEl := match viewElem dims idx with
      | none => { off := none, clamp := false, first := first, row := 0 }
      | some (cs, k) => { off := some (bitOffset bits (dims.map (·.stride)) cs), clamp := k, first := first || perm.headD 0 != 0,
                          row := bitOffset bits (dims.map (·.stride)) (0 :: cs.drop 1) }
    (src, { off := some (bitOffset bits dst t), clamp := false, first := first, row := bitOffset bits dst (0 :: t.drop 1) })

end Sys2Proof.Machine
end

