-- ==== Sys2Proof/Machine/Syllabus.lean ====
section
/-! DEFINITION. Reading a syllabus file (R255 to R259) and writing the blocks of a turn into its units (R260, R262). -/

namespace Sys2Proof.Machine

/-! ## Header and section table (R256, R257) -/

/-- Word `i` of the header. -/
def hdrW (f : List Byte) (i : Nat) : Nat := leAt f (4 * i) 4
def hdrNsect (f : List Byte) : Nat := fld (hdrW f 3) 8 8
def hdrMinStrips (f : List Byte) : Nat := fld (hdrW f 3) 0 8
def hdrExportMask (f : List Byte) : Nat := fld (hdrW f 4) 16 16
def hdrImportMask (f : List Byte) : Nat := fld (hdrW f 4) 0 16
def hdrShapeMask (f : List Byte) : Nat := fld (hdrW f 5) 16 16
def hdrRegionMask (f : List Byte) : Nat := fld (hdrW f 5) 0 16
def hdrMinLevel (f : List Byte) : Nat := fld (hdrW f 6) 10 2
def hdrRelocCount (f : List Byte) : Nat := hdrW f 7
def hdrSectOff (f : List Byte) : Nat := hdrW f 8
def hdrRelocOff (f : List Byte) : Nat := hdrW f 9
def hdrSigOff (f : List Byte) : Nat := hdrW f 10
def hdrSigBytes (f : List Byte) : Nat := hdrW f 11
def hdrFileBytes (f : List Byte) : Nat := hdrW f 14
def hdrShapeMax (f : List Byte) (i : Nat) : Nat := hdrW f (24 + i)
def hdrRegionPages (f : List Byte) (i : Nat) : Nat := hdrW f (40 + i)

/-- Word `i` of section table entry `t`. -/
def secW (f : List Byte) (t i : Nat) : Nat := leAt f (hdrSectOff f + 64 * t + 4 * i) 4
def secKind (f : List Byte) (t : Nat) : Nat := fld (secW f t 0) 28 4
def secStrict (f : List Byte) (t : Nat) : Bool := bitOf (secW f t 1) 8
def secReloc (f : List Byte) (t w : Nat) : Bool := bitOf (secW f t 1) (4 + w)
def secWings (f : List Byte) (t : Nat) : Nat := fld (secW f t 1) 0 4
/-- Local strips of wing `w` as compiled. -/
def secStrips (f : List Byte) (t w : Nat) : Nat := fld (secW f t (2 + w / 2)) (16 * (w % 2)) 16
def secImageOff (f : List Byte) (t : Nat) : Nat := secW f t 4
def secImageBytes (f : List Byte) (t : Nat) : Nat := secW f t 5
def secZgate (f : List Byte) (t : Nat) : Nat := fld (secW f t 6) 16 16
def secNblock (f : List Byte) (t : Nat) : Nat := fld (secW f t 6) 0 16
/-- The turn spans wings (R257). -/
def secSpans (f : List Byte) (t : Nat) : Bool :=
  ((List.range 4).filter fun w => (secWings f t).testBit w).length != 1

/-- The bytes of a turn's image. -/
def turnImage (f : List Byte) (t : Nat) : List Byte := (f.drop (secImageOff f t)).take (secImageBytes f t)

/-! ## Blocks (R258) -/

/-- A block header. -/
structure Blk where
  unit : Nat
  wing : Nat
  row : Nat
  col : Nat
  store : Nat
  first : Nat
  count : Nat
  off : Nat
  w0 : Nat
  w3 : Nat
  deriving DecidableEq, Repr

/-- The block header at a file offset. -/
def blkAt (f : List Byte) (o : Nat) : Blk :=
  let w0 := leAt f o 4
  let w1 := leAt f (o + 4) 4
  { unit := fld w0 30 2, wing := fld w0 28 2, row := fld w0 24 4, col := fld w0 19 5, store := fld w0 8 8,
    first := fld w1 0 16, count := fld w1 16 16, off := leAt f (o + 8) 4, w0 := w0, w3 := leAt f (o + 12) 4 }

/-- The blocks of a turn in file order: their headers stand one after another from IMAGE_OFF. -/
def blocksOf (f : List Byte) (t : Nat) : List Blk :=
  (List.range (secNblock f t)).map fun i => blkAt f (secImageOff f t + 16 * i)

/-- Entry size of a block's store. -/
def blkSize (b : Blk) : Nat := ((storeShape b.store).map (·.1)).getD 0
/-- The entry data of a block. -/
def blkData (f : List Byte) (b : Blk) : List Byte := (f.drop b.off).take (blkSize b * b.count)
/-- Entry `i` of a block. -/
def blkEnt (f : List Byte) (b : Blk) (i : Nat) : Nat := leAt f (b.off + blkSize b * i) (blkSize b)

def secLsect (f : List Byte) (t : Nat) : Nat := fld (secW f t 0) 16 8
def secTurn (f : List Byte) (t : Nat) : Nat := fld (secW f t 0) 8 8
def secNturns (f : List Byte) (t : Nat) : Nat := fld (secW f t 0) 0 8

/-- The QDs of a turn: index and descriptor (store 0x11). -/
def qdsOf (f : List Byte) (t : Nat) : List (Nat × Nat) :=
  ((blocksOf f t).filter fun b => b.store = 0x11).flatMap fun b =>
    (List.range b.count).map fun i => (b.first + i, blkEnt f b i)

/-- The shift σ of a turn and wing (R265). -/
def sigmaOf (y : Syllabus) (t w : Nat) : Int := y.shift.getD (4 * t + w) 0

/-- The site that a block of the relocated turn writes. -/
def blkSite (y : Syllabus) (t : Nat) (b : Blk) : Nat :=
  siteKey b.wing b.row ((b.col : Int) + 2 * sigmaOf y t b.wing).toNat

/-- The local strips of wing `w` after the shift. -/
def shiftedStrips (strips : Nat) (sigma : Int) : Nat :=
  (List.range 16).foldl (fun a i =>
    if strips.testBit i then
      let j := (i : Int) + sigma
      if 0 ≤ j && j < 16 then a + 2 ^ j.toNat else a
    else a) 0

/-- The device strips that a turn uses. -/
def turnStrips (y : Syllabus) (t : Nat) : Nat :=
  (List.range 4).foldl (fun a w => a + shiftedStrips (secStrips y.file t w) (sigmaOf y t w) * 2 ^ (16 * w)) 0

/-- A strip mask with the wings of each pair exchanged. -/
def swapWings (m : Nat) : Nat :=
  (List.range 4).foldl (fun a w => a + fld m (16 * w) 16 * 2 ^ (16 * partner w)) 0

/-- The strips that a turn of the context uses (R432, R435). -/
def ctxTurnStrips (x : Ctx) (y : Syllabus) (t : Nat) : Nat :=
  if x.promoted then swapWings (turnStrips y t) else turnStrips y t

/-- The stores that the blocks for one site and unit kind leave, every other entry zero (R260); scratchpad images apart. -/
def storesFor (f : List Byte) (bs : List Blk) (switch : Bool) : Mem :=
  (bs.filter fun b => (b.unit = 2) == switch && b.store != 0x14).foldl
    (fun m b => mwrite m ((if switch then 0 else stBase b.store) + blkSize b * b.first) (blkData f b)) []

/-- The scratchpad that the image blocks leave, every other byte zero (R260). -/
def spadFor (f : List Byte) (bs : List Blk) : Mem :=
  (bs.filter fun b => b.store = 0x14).foldl (fun m b => mwrite m (64 * b.first) (blkData f b)) []

/-- The stores of a unit in a turn of a syllabus, at the unit's site as relocated (R258, R265). -/
def turnStores (y : Syllabus) (t k : Nat) : Mem :=
  storesFor y.file ((blocksOf y.file t).filter fun b => b.unit != 3 && blkSite y t b = k) false

/-- The sites that a turn's blocks name. -/
def turnSites (y : Syllabus) (t : Nat) : List Nat :=
  (((blocksOf y.file t).filter fun b => b.unit != 3).map (blkSite y t)).eraseDups

/-- TERM and STRICT written into every valid circuit entry (R181, R193, R268). -/
def stampCircuits (m : Mem) (term : Nat) (strict : Bool) : Mem :=
  (List.range 64).foldl (fun m i =>
    let e := mnat m (8 * i) 8
    if ceValid e then mwrite m (8 * i) (leBytes 8 (setFld (setFld e 22 8 term) 21 1 (b2n strict))) else m) m

/-- The starting counters of a unit: an imported counter holds its object's value, every other is 0 (R233, R248). -/
def startCtrs (s : State) (imports : List (Option Nat)) (stores : Mem) : Sparse Ctr :=
  (importsOf stores).foldl (fun m e =>
    match imports.getD e.2 none with
    | some o => sset Ctr.zero m e.1 { Ctr.zero with value := (objOf s o).value }
    | none => m) []

/-- Position of a list or sequencer for a grant: its entry, or nothing for 0x3FF. -/
def listStart (entry : Nat) : ListPos := { pos := entry, rep := 0, fin := entry = 0x3FF, waitSince := none }

/-- A CU at the start of a turn (R114, R260): one outside every group runs its descriptors once. -/
def startCu (s : State) (imports : List (Option Nat)) (stores : Mem) (present : Bool) (term : Nat) : CU :=
  let u := { CU.idle with stores := stores, term := term, ctrs := startCtrs s imports stores }
  if !present then u
  else if inGroup stores then { u with run := true, fin := false }
  else if startEntry stores = 0x3FF then u
  else { u with run := true, fin := false, pos := startEntry stores,
                cur := some { tile := 0, tagBase := 0, fin := false, term := term } }

/-- The issue lists at the start of a grant (R222, R226). -/
def startLists (stores : Mem) : Sparse ListPos :=
  (List.range 12).foldl (fun m l => sset ListPos.idle m l (listStart (startList stores l))) []

/-- An MU at the start of a turn (R219, R229, R260). -/
def startMu (s : State) (imports : List (Option Nat)) (stores spad : Mem) (present : Bool) (term : Nat)
    (tags hm : Bool) : MU :=
  let u := { MU.idle with stores := stores, spad := spad, term := term, ctrs := startCtrs s imports stores,
                          tagMode := tags, hmEn := hm }
  if !present then u
  else if inGroup stores then { u with run := true, fin := false }
  else if (List.range 12).all fun l => startList stores l = 0x3FF then u
  else { u with run := true, fin := false, lists := startLists stores,
                cur := some { tile := 0, tagBase := 0, fin := false, term := term } }

/-- The slots that circuits of a switch hold on local input port `p`, by ascending entry. -/
def laneCircuits (w : Switch) (p : Nat) : List Nat :=
  (List.range 64).flatMap fun i =>
    let e := circuit w i
    if !(ceValid e) then []
    else (if ceInA e = p then [ceSlotsA e] else []) ++ (if ceOp e = 1 && ceInB e = p then [ceSlotsB e] else [])

/-- The channels of a CU that a steering unit steers: each holds four circuits of the output lane, OUT0 the first ones
(R125, log entry 22). -/
def steeredOf (w : Switch) : BitVec 2 :=
  let n := (laneCircuits w 4).length
  if 8 ≤ n then 3 else if 4 ≤ n then 1 else 0

/-! ## Apevo tile mode (R140, R141) -/

/-- The MU that forms an Apevo tile with a CU: the one beside it in the same row and strip, east in even rows and west in odd ones. -/
def tileMu (k : Nat) : Nat := if siteRow k % 2 = 0 then k + 1 else k - 1

/-- The tiles of a device strip, by their CUs: one in each of its 16 rows (R141). -/
def tilesOf (strip : Nat) : List Nat := (stripSites strip).filter siteIsCu

/-- The local memory of a tile is the scratchpad of its MU (R140). -/
def tileMem (s : State) (k : Nat) : Mem := (muOf s (tileMu k)).spad

/-- Words that a switch and a unit hold, which a release or a new Term discards (R193). -/
def heldWords (s : State) (k : Nat) : Nat :=
  sumOf ((swOf s k).bufs.map fun e => e.2.length) +
  (if siteIsCu k then (cuOf s k).act.length + (cuOf s k).wgt.length + (cuOf s k).tokIn.length
   else sumOf ((muOf s k).lanes.map fun e => e.2.length))

/-- `n` words flushed at a switch or its unit count in SW_STALE (R194). -/
def countStale (s : State) (k n : Nat) : State :=
  modSw s k fun w => { w with stale := BitVec.ofNat 32 (satAdd 32 w.stale.toNat n) }

/-- The imports of a saved context are bound to its units again, or end (R248, R294). -/
def endAway (s : State) (c : Nat) : State :=
  s.objs.foldl (fun s o =>
    if o.2.away.any fun i => i.1 = c then
      sweepObj (setObj s o.1 { objOf s o.1 with away := (objOf s o.1).away.filter fun i => i.1 != c }) o.1
    else s) s

/-- Writes the blocks of a turn into the units and switches of the context's strips, the shadow's included (R260, R262,
R432), and flushes what they held (R193, R194). In a tile-mode turn no steering unit is used (R141). The Hall Monitor's log of write footprints is that of the run (R270). -/
def writeTurn (s : State) (c t term : Nat) : State :=
  let x := ctxOf s c
  match x.syl, x.run with
  | some y, some r =>
    let f := y.file
    let bs := (blocksOf f t).filter fun b => b.unit != 3
    let placed := bs.map fun b => (blkSite y t b, b)
    let strict := secStrict f t || decide (1 ≤ y.level)
    let tags := secSpans f t
    let s := (maskSites (ctxMask s x)).foldl (fun s k =>
      let home := if onShadow s k == x.promoted then k
        else siteKey (partner (siteWing k)) (siteRow k) (siteCol k)
      let mine := (placed.filter fun e => e.1 = home).map (·.2)
      let stores := storesFor f mine false
      let present := mine.any fun b => b.store = 0x13
      let s := countStale s k (heldWords s k)
      let old := swOf s k
      let s := setSw s k { Switch.idle with stores := stampCircuits (storesFor f mine true) term strict,
                                            term := term, lastStale := old.lastStale, stale := old.stale, ce := old.ce,
                                            fault := old.fault }
      let s := if siteIsCu k then
          let u := cuOf s k
          setCu s k { startCu s r.launch.imports stores present term with
            steered := if secKind f t = 2 then 0 else steeredOf (swOf s k), tile := decide (secKind f t = 2), tokSlots := Config.tokenSlots (turnImage f t) home, steerDrop := u.steerDrop,
            fault := u.fault }
        else
          let u := muOf s k
          setMu s k { startMu s r.launch.imports stores (spadFor f mine) present term tags (y.level = 2) with
                      clamps := u.clamps, hmLog := u.hmLog, fault := u.fault, faultAt := u.faultAt,
                      foot := if t = 0 then [] else u.foot }
      -- the unit's imported counters are bound to their objects
      (importsOf stores).foldl (fun s e =>
        match r.launch.imports.getD e.2 none with
        | some o => let z := objOf s o
                    setObj s o { z with importers := z.importers.filter (· != (k, e.1)) ++ [(k, e.1)] }
        | none => s) s) s
    endAway s c
  | _, _ => s

/-- The sites whose units and switches are the context's: none while its state is in the save area. -/
def heldSites (s : State) (c : Nat) : List Nat :=
  let x := ctxOf s c
  if x.holdSince.isSome && !x.saved then maskSites (ctxMask s x) else []

/-- The bindings of imports at sites end; for a Recess they are kept with the context (R248, R294). -/
def unbindSites (s : State) (c : Nat) (sites : List Nat) (recess : Bool) : State :=
  sites.foldl (fun s k => (importsOf (unitStores s k)).foldl (fun s e =>
    s.objs.foldl (fun s o =>
      let z := objOf s o.1
      if z.importers.contains (k, e.1) then
        let n := { z with importers := z.importers.filter (· != (k, e.1)),
                          away := if recess then z.away ++ [(c, k, e.1)] else z.away }
        if recess then setObj s o.1 n else sweepObj (setObj s o.1 n) o.1
      else s) s) s) s

/-- The ring and bridge entries of sites, with the words in their bridge-endpoint buffers, which count where they left the grid
(R193, R194, R197). -/
def dropRing (s : State) (sites : List Nat) : State :=
  let gone := s.ring.filter fun r => sites.contains r.site
  let s := gone.foldl (fun s r => countStale s r.site (sumOf (r.bufs.map List.length))) s
  { s with ring := s.ring.filter fun r => !(sites.contains r.site) }

/-- Releases a configuration: VALID cleared in its circuit entries, those of the ring and the bridges included, and their words
discarded, each counted in SW_STALE; its bindings of imports end, but for a Recess; its Term starts to cool (R193, R194). -/
def releaseConfig (s : State) (c : Nat) (recess : Bool) : State :=
  let sites := heldSites s c
  let s := dropRing { s with ctl := s.ctl.filter fun r => !(sites.contains r.site) } sites
  let s := sites.foldl (fun s k =>
    let s := countStale s k (sumOf ((swOf s k).bufs.map fun e => e.2.length))
    modSw s k fun w => { w with stores := [], bufs := [], used := [] }) s
  let s := unbindSites s c sites recess
  let s := if recess then s else endAway s c
  let s := modCtx s c fun x => { x with run := x.run.map fun r => { r with bridge := [] } }
  { s with terms := s.terms.map fun e => if e.2.1 = some c then (e.1, (none, s.fclk + 1, c)) else e }

/-- The Term that a context holds. -/
def heldTerm (s : State) (c : Nat) : Option Nat := (s.terms.find? fun e => e.2.1 = some c).map (·.1)

/-- The lowest Term that is free and has cooled (R193). -/
def freeTerm (s : State) : Option Nat :=
  ((List.range 255).map (· + 1)).find? fun t =>
    let e := sget (none, 0, 64) s.terms t
    e.1.isNone && e.2.1 = 0

/-- Gives a context a new Term, with its shadow (R193). -/
def takeTerm (s : State) (c t : Nat) : State := { s with terms := sset (none, 0, 64) s.terms t (some c, 0, c) }

end Sys2Proof.Machine
end

