-- ==== Sys2Proof/Machine/Lanes.lean ====
section
/-! DEFINITION. The lanes of a unit: the circuits that leave on them (R180), the credits of their FIFOs (R183), the words
that a unit sends, tile grants (R226) and the end of a unit's part of a run (R227). -/

namespace Sys2Proof.Machine

/-! ## Circuits of a local lane -/

/-- Queue binding word of queue `q` of an MU (R211). -/
def queueBind (m : Mem) (q : Nat) : Nat := stEnt m 0x0D 4 q
def qbOutLane (w : Nat) : Nat := fld w 28 2
def qbOutSlots (w : Nat) : Nat := fld w 20 8
def qbInLane (w : Nat) : Nat := fld w 18 2
def qbInSlots (w : Nat) : Nat := fld w 10 8

/-- The slot set that generator `g` of an MU sends its descriptors' words in: the first circuit of its lane that no queue
binding uses (log entry 20); 0 when there is none. -/
def genSlots (s : State) (k g : Nat) : Nat :=
  let u := muOf s k
  ((laneCircuits (swOf s k) (4 + g)).find? fun c =>
    (List.range 8).all fun q =>
      let b := queueBind u.stores q
      qbOutLane b != g || Nat.land (qbOutSlots b) c = 0).getD 0

/-- The words of a transfer of `n` 128 B payloads: tag and Term, the last one with LAST when the transfer is whole (R178). -/
def laneWords (tag term : Nat) (whole : Bool) : Nat → List Byte → List FWord
  | 0, _ => []
  | n + 1, bs =>
    { data := padTo 128 (bs.take 128), term := term, tag := tag, last := whole && n = 0, req := none } ::
      laneWords tag term whole n (bs.drop 128)

/-- An MU sends a transfer on a lane. -/
def sendLane (s : State) (k lane slots tag : Nat) (whole : Bool) (bs : List Byte) : State :=
  let n := if whole then ceilDiv bs.length 128 else bs.length / 128
  modMu s k fun u =>
    { u with outq := u.outq ++ (laneWords tag u.term whole n bs).map fun w =>
        { lane := lane, slots := slots, word := w, mark := none } }

/-- A unit takes a word from its lane FIFO, and its credit goes back to the switch (R183). -/
def laneCredit (s : State) (k : Nat) (f : Flight) : State :=
  { s with credits := s.credits ++ [{ site := k, port := f.port - 4, slot := f.slot, term := f.word.term }] }

/-! ## The section of a site -/

/-- The sites of the configuration that a site belongs to, on the same side of a twin pair. -/
def peerSites (s : State) (k : Nat) : List Nat :=
  match siteCtx s k with
  | none => []
  | some c => (maskSites (ctxMask s (ctxOf s c))).filter fun j => onShadow s j == onShadow s k

/-- The MU that holds the tile counter of a site's turn. -/
def counterSite (s : State) (k : Nat) : Option Nat :=
  (peerSites s k).find? fun j => !(siteIsCu j) && stEnt (muOf s j).stores 0x0F 32 0 != 0

/-- The tile counter descriptor (R225). -/
def tcStatic (d : Nat) : Bool := fld d 30 2 = 1
def tcDims (d : Nat) : Nat := fld d 28 2 + 1
def tcGroups (d : Nat) : Nat := fld d 16 10 + 1
def tcOrder (d i : Nat) : Nat := fld d (2 * i) 2
def tcStride (d : Nat) : Nat := fld (dW d 1) 16 16

/-- The run-time count of grid dimension `i` for a launch shape vector (R225). -/
def tcCount (d : Nat) (shp : Nat → Nat) (i : Nat) : Nat :=
  let w := dW d (2 + i)
  if fld w 12 4 = 0 then fld w 16 16 else ceilDiv (shp (fld w 12 4)) (fld w 0 12)

/-- The number of tiles. -/
def tcTotal (d : Nat) (shp : Nat → Nat) : Nat := prodOf ((List.range (tcDims d)).map (tcCount d shp))

/-- Grid coordinates of tile `t`: innermost first along ORDER (R225). -/
def tcCoords (d : Nat) (shp : Nat → Nat) (t : Nat) : List Nat :=
  ((List.range (tcDims d)).foldl (fun (a : Nat × List Nat) i =>
    let o := tcOrder d i
    let c := tcCount d shp o
    (a.1 / c, a.2.set o (a.1 % c))) (t, [0, 0, 0, 0])).2

/-! ## Grants and the end of a part -/

/-- A Recess request is out for the site's context: units stop after the grant in hand, and counters grant nothing (R289). -/
def recessing (s : State) (k : Nat) : Bool :=
  match siteCtx s k with
  | some c => (ctxOf s c).recess.isSome || (ctxOf s c).st == .closing
  | none => false

/-- A unit takes its next grant once it has none in hand: its lists or its sequencer start at their entries (R226). An END
grant starts nothing, and n counts the grants of tiles (R237). -/
def takeGrant (s : State) (k : Nat) : State :=
  if recessing s k then s
  else if siteIsCu k then
    modCu s k fun u =>
      match u.cur, u.grants with
      | none, g :: r =>
        if g.fin then { u with cur := some g, grants := r, pos := 0x3FF }
        else { u with cur := some g, grants := r, grantN := u.grantN + 1, pos := startEntry u.stores, rep := 0,
                      gateOpen := false }
      | _, _ => u
  else
    modMu s k fun u =>
      match u.cur, u.grants with
      | none, g :: r =>
        if g.fin then { u with cur := some g, grants := r }
        else { u with cur := some g, grants := r, grantN := u.grantN + 1, lists := startLists u.stores }
      | _, _ => u

/-- No tile of the unit remains: it holds END, or it belongs to no group. -/
def noMoreGrants (m : Mem) (cur : Option Grant) : Bool :=
  !(inGroup m) || (match cur with
    | some g => g.fin
    | none => false)

/-- An MU whose lists have all ended releases its grant and takes the next; when no tile remains and nothing is under way,
its part of the run is complete (R226, R227, R239). -/
def settleMuOnce (s : State) (k : Nat) : State :=
  let u := muOf s k
  if !u.run || u.fin then s
  else
    let ended := (List.range 12).all fun l => (listOf u l).fin
    let done := match u.cur with
      | some g => ended && !g.fin
      | none => false
    let s := if done && inGroup u.stores then takeGrant (setMu s k { u with cur := none }) k else s
    let u := muOf s k
    let quiet := ((List.range 12).all fun l => (listOf u l).fin && (pendOf u l).isNone) &&
      ((List.range 4).all fun g => (genOf u g).iss.isNone) && ((List.range 8).all fun q => (queueEads u q).isEmpty) &&
      u.outq.all fun w => w.mark.isNone
    if noMoreGrants u.stores u.cur && quiet then partRoutes (setMu s k { u with fin := true }) k else s

/-- The unit settles: at most two grants and END wait behind the one in hand. -/
def settleMu (s : State) (k : Nat) : State := (List.range 4).foldl (fun s _ => settleMuOnce s k) s

end Sys2Proof.Machine
end

