-- ==== Sys2Proof/Machine/MemUnit.lean ====
section
/-! DEFINITION. The Memory Unit: issue lists (R222, R223, R238), the ordering of its accesses by rings, scoreboard and slot
tags (R161 to R166, R219, R220), tile descriptors (R151 to R160), gather and scatter (R167 to R169) and layout copies
(R171, R172). -/

namespace Sys2Proof.Machine

/-! ## What the section declares -/

/-- The section declares shape entry `v` (R256). -/
def shapeDeclared (s : State) (k v : Nat) : Bool :=
  match (siteCtx s k).bind fun c => (ctxOf s c).syl with
  | some y => (hdrShapeMask y.file).testBit v
  | none => false

/-- The descriptor that an issue names: number below 256 from the descriptor store, from 256 on from the EAD store. -/
def issDesc (u : MU) (i : Issued) : Nat :=
  if i.id < 256 then stEnt u.stores 0x08 128 i.id else stEnt u.stores 0x09 128 (i.id - 256)

/-- The dimensions of an issue at run time. -/
def issDims (s : State) (k : Nat) (i : Issued) : List Dim := dimsOf (issDesc (muOf s k) i) (shapeAt s k) i.off

/-- Run-time counts of a GSD: indices and rows (R167). -/
def gCount (s : State) (k d : Nat) : Nat :=
  if fld (dW d 3) 12 4 = 0 then fld (dW d 3) 16 16 else shapeAt s k (fld (dW d 3) 12 4)
def gRows (s : State) (k d : Nat) : Nat :=
  if fld (dW d 4) 4 4 = 0 then fld (dW d 4) 8 24 else shapeAt s k (fld (dW d 4) 4 4)

/-- A zero-extent run (R158). -/
def issZero (s : State) (k : Nat) (i : Issued) : Bool :=
  let d := issDesc (muOf s k) i
  if dType d = 2 then gCount s k d = 0 || gRows s k d = 0 else zeroExtent (issDims s k i)

/-! ## Accesses of a descriptor -/

/-- One access of a descriptor to the scratchpad: its direction, ring, base, direct region, whether its SLOT_LAST is set,
and its footprint from the tensor's origin. -/
structure Access where
  write : Bool
  ring : Nat
  base : Nat
  limit : Nat
  last : Bool
  hull : Option (Int × Int)
  deriving DecidableEq, Repr

/-- The accesses of a descriptor, in the order of its `slots`; of a zero-extent run only the one whose SLOT_LAST is set is left,
with no footprint (R158). -/
def accessesOf (s : State) (k : Nat) (i : Issued) : List Access :=
  let d := issDesc (muOf s k) i
  let bits := fmtBits (dFmt d)
  let dims := issDims s k i
  let z := issZero s k i
  let h (x : Option (Int × Int)) : Option (Int × Int) := if z then none else x
  let all : List Access := match dType d with
  | 1 => [{ write := dDir d, ring := dRing d, base := dBase d, limit := dLimit d, last := dLast d,
            hull := h (viewHull bits dims) }]
  | 2 => [{ write := false, ring := gIring d, base := gIbase d, limit := gIlimit d, last := false,
            hull := h (some (0, ((4 * gCount s k d : Nat) : Int))) },
          { write := dDir d, ring := dRing d, base := dBase d, limit := gTlimit d, last := dLast d,
            hull := h (some (0, (((gRows s k d - 1) * gRowStride d + gRowBytes d : Nat) : Int))) }]
  | 3 => [{ write := false, ring := dRing d, base := dBase d, limit := dLimit d, last := false,
            hull := h (viewHull bits dims) },
          { write := true, ring := lDring d, base := lDbase d, limit := fld (dW d 25) 0 15, last := dLast d,
            hull := h (lcdHull d bits dims) }]
  | _ =>
    if 2 ≤ eDir d then []
    else [{ write := eDir d = 0, ring := dRing d, base := dBase d, limit := dLimit d, last := dLast d,
            hull := h (eadSpadHull bits dims) }]
  all.filter fun a => !z || a.last

def ringOf (u : MU) (r : Nat) : Ring := sget Ring.empty u.rings r
def tagOf (u : MU) (r slot : Nat) : SlotTag := sget SlotTag.none u.tags (16 * r + slot)

/-- The slot an access targets: HEAD for a write, TAIL for a read (R219). -/
def slotFor (u : MU) (a : Access) : Nat :=
  if a.ring = 0x3F then 0 else if a.write then (ringOf u a.ring).head else (ringOf u a.ring).tail

/-- The region of an access in its slot. -/
def accRegion (u : MU) (a : Access) (slot : Nat) : Region := regionOf u.stores a.ring a.base a.limit slot

/-- The absolute footprint of an access. -/
def accFoot (u : MU) (a : Access) (slot : Nat) : Option (Nat × Nat) :=
  let r : Int := (accRegion u a slot).org
  a.hull.map fun h => ((r + h.1).toNat, (r + h.2).toNat)

/-- The first address outside the region (R157). -/
def accOutside (u : MU) (a : Access) : Option Int :=
  let r := accRegion u a (slotFor u a)
  a.hull.bind fun h => outside r (r.org + h.1) (r.org + h.2)

/-- The scoreboard orders reads (R161, R165). -/
def usesSb (u : MU) : Bool := !u.tagMode || u.hmEn
/-- Slot tags order accesses (R161, R165). -/
def usesTags (u : MU) : Bool := u.tagMode || u.hmEn

/-- The ring lets the access issue (R219). -/
def ringReady (u : MU) (a : Access) : Bool :=
  if a.ring = 0x3F then true
  else
    let r := ringOf u a.ring
    if a.write then r.opened || decide (r.occ < (ringShape u.stores a.ring).1) else r.full.getLsbD r.tail

/-- An access issues: a first write opens the slot, SLOT_LAST advances the pointer, and no later read finds the slot that a SLOT_LAST
read leaves before it is written again (R219). -/
def ringIssue (u : MU) (a : Access) : MU :=
  if a.ring = 0x3F then u
  else
    let n := (ringShape u.stores a.ring).1
    let r := ringOf u a.ring
    let r := if a.write then
        let r := if r.opened then r else { r with occ := r.occ + 1, opened := true }
        if a.last then { r with head := (r.head + 1) % n, opened := false } else r
      else if a.last then { r with tail := (r.tail + 1) % n, full := r.full &&& ~~~(BitVec.ofNat 16 (2 ^ r.tail)) } else r
    { u with rings := sset Ring.empty u.rings a.ring r }

/-- Two byte ranges meet. -/
def overlaps (a b : Nat × Nat) : Bool := decide (a.1 < b.2) && decide (b.1 < a.2)

/-- The scoreboard blocks a footprint of a descriptor (R162, R164). -/
def sbHolds (u : MU) (key : Nat) (write : Bool) (f : Nat × Nat) : Bool :=
  (u.sb.filter fun e => decide (e.id < key)).any fun e =>
    overlaps f (e.lo, e.hi) && (if write then e.write || usesSb u else e.write && usesSb u)

/-- The scoreboard blocks the entries of a descriptor (R162, R164). -/
def sbBlocked (u : MU) (key : Nat) : Bool :=
  (u.sb.filter fun e => e.id = key).any fun o => sbHolds u key o.write (o.lo, o.hi)

/-- The slot tag lets the access proceed (R163). -/
def tagReady (u : MU) (a : Access) (slot tag : Nat) : Bool :=
  if !(usesTags u) || a.ring = 0x3F then true
  else
    let t := tagOf u a.ring slot
    if a.write then t.st == .empty || (t.st == .filling && t.tag = tag)
    else (t.st == .full || t.st == .draining) && t.tag = tag

/-- The access issues: its slot is FILLING or DRAINING, and the accesses issued and not complete are counted (R163). -/
def tagIssue (u : MU) (a : Access) (slot tag : Nat) : MU :=
  if !(usesTags u) || a.ring = 0x3F then u
  else
    let t := tagOf u a.ring slot
    let st := if a.write then TagSt.filling else TagSt.draining
    let same := t.st == st
    let t : SlotTag := { st := st, tag := tag, open_ := (if same then t.open_ else 0) + 1,
                         lastDue := (same && t.lastDue) || a.last }
    { u with tags := sset SlotTag.none u.tags (16 * a.ring + slot) t }

/-- The access completes: tags and OCC (R163, R219). -/
def accComplete (u : MU) (a : Access) (slot : Nat) : MU :=
  if a.ring = 0x3F then u
  else
    let u := if !(usesTags u) then u else
      let t := tagOf u a.ring slot
      let t := { t with open_ := t.open_ - 1 }
      let t := if t.lastDue && t.open_ = 0 then
          (if a.write then { t with st := .full, lastDue := false } else SlotTag.none)
        else t
      { u with tags := sset SlotTag.none u.tags (16 * a.ring + slot) t }
    if !a.last then u
    else
      let r := ringOf u a.ring
      let bit : BitVec 16 := BitVec.ofNat 16 (2 ^ slot)
      let r := if a.write then { r with full := r.full ||| bit } else { r with occ := r.occ - 1 }
      { u with rings := sset Ring.empty u.rings a.ring r }

/-- What keeps a descriptor from proceeding: a full scoreboard, a block of an access with its ring and slot or address (R166), or
a footprint outside the region of an access, with its ring, slot and first address outside (R157). -/
inductive Admit
  | go | wait
  | block (ring at_ : Nat)
  | past (ring slot : Nat) (addr : Int)
  deriving DecidableEq, Repr

/-- Whether a descriptor that has not entered the scoreboard may issue (R157, R158, R162, R163, R219). -/
def mayEnter (u : MU) (accs : List Access) (tag : Nat) : Admit :=
  match accs.findSome? fun a => (accOutside u a).map fun o => (a.ring, slotFor u a, o) with
  | some p => .past p.1 p.2.1 p.2.2
  | none =>
    match accs.find? fun a => !(ringReady u a && tagReady u a (slotFor u a) tag) with
    | some a => .block a.ring (slotFor u a)
    | none => if 32 < u.sb.length + (accs.filter fun a => a.hull.isSome).length then .wait else .go

/-- A descriptor issues: it enters the scoreboard and takes its slots; the answer is its number and its slots. -/
def enter (u : MU) (accs : List Access) (tag : Nat) : MU × Nat × List Nat :=
  let key := u.nextId + 1
  let slots := accs.map (slotFor u)
  let ents := (accs.zip slots).filterMap fun p =>
    (accFoot u p.1 p.2).map fun f => ({ id := key, write := p.1.write, lo := f.1, hi := f.2 } : SbEnt)
  let u := { u with nextId := key, sb := u.sb ++ ents }
  ((accs.zip slots).foldl (fun u p => tagIssue (ringIssue u p.1) p.1 p.2 tag) u, key, slots)

/-- The ring and the slot or address of the access of a descriptor that the scoreboard holds (R166). -/
def blockedAt (u : MU) (key : Nat) (accs : List Access) (slots : List Nat) : Nat × Nat :=
  match (accs.zip slots).find? fun p => (accFoot u p.1 p.2).any (sbHolds u key p.1.write) with
  | some p => (p.1.ring, if p.1.ring = 0x3F then ((accFoot u p.1 p.2).getD (0, 0)).1 else p.2)
  | none => (0x3F, 0)

/-- A store with HALO = 1 that only writes still in flight hold: it waits for them under R164, the Hall Monitor or not (R165). -/
def haloWaits (u : MU) (key : Nat) (halo : Bool) : Bool :=
  halo && ((u.sb.filter fun o => o.id = key).all fun o =>
    ((u.sb.filter fun e => decide (e.id < key)).all fun e => !(overlaps (o.lo, o.hi) (e.lo, e.hi)) || (o.write && e.write)))

/-- A descriptor completes: its entries leave the scoreboard, its slots change state. -/
def finish (u : MU) (accs : List Access) (slots : List Nat) (key : Nat) : MU :=
  (accs.zip slots).foldl (fun u p => accComplete u p.1 p.2) { u with sb := u.sb.filter fun e => e.id != key }

/-- A blocked access: HAZARD at once under the Hall Monitor, else it waits (R166, R220). -/
def blockGen (s : State) (k g : Nat) (halo : Bool) (at_ : Nat × Nat) (tag : Nat) : State :=
  let u := muOf s k
  if u.hmEn && !halo then recFault s k 0x4003 (.access k g at_.1 at_.2 tag)
  else
    let x := genOf u g
    setMu s k { u with gens := sset Gen.idle u.gens g { x with blockedSince := some (x.blockedSince.getD s.fclk) } }

/-- Counts clamped elements and indices (R159, R168). -/
def countClamps (u : MU) (rc n : Nat) : MU :=
  if n = 0 then u
  else { u with clampTab := sset 0 u.clampTab rc (sget 0 u.clampTab rc + n),
                clamps := BitVec.ofNat 32 (satAdd 32 u.clamps.toNat n) }

/-! ## Hall Monitor: the log of store footprints (R165, R270) -/

/-- A write under the Hall Monitor enters the log of the run's write footprints, and a store is checked against it: whether it is a
hazard, and the unit and counts after it. -/
def hmStore (s : State) (k : Nat) (store halo : Bool) (f : Nat × Nat) : Bool × State :=
  let u := muOf s k
  let hit := store && u.foot.any (overlaps f)
  if hit && !halo then (true, s)
  else
    let u := if hit then { u with hmLog := BitVec.ofNat 32 (satAdd 32 u.hmLog.toNat 1) } else u
    if u.foot.length < 128 then (false, setMu s k { u with foot := u.foot ++ [f] })
    else (false, bump (setMu s k u) 0x233005 1)

/-! ## The work of a descriptor -/

/-- The absolute bit address of a walk's element. -/
def absBit (org : Nat) (o : Int) : Int := 8 * (org : Int) + o

/-- A load: its words leave on the lane; a bank conflict ends it before the beat (R145, R154, R155). -/
def runLoad (s : State) (k g : Nat) (i : Issued) (a : Access) (slot : Nat) : State :=
  let u := muOf s k
  let d := issDesc u i
  let bits := fmtBits (dFmt d)
  let org := (accRegion u a slot).org
  let walk := walkOf bits (walkOrder d) (issDims s k i)
  let codes (l : List WalkEl) : List Nat := l.map fun e => match e.off with
    | none => 0
    | some o => spadGet u.spad bits (absBit org o)
  match conflictAt org walk with
  | some (n, addr) =>
    let s := setMu s k (countClamps u (dRc d) ((walk.take n).filter fun e => e.clamp).length)
    let s := sendLane s k g (genSlots s k g) i.tag false (packCodes bits (codes (walk.take n)))
    muFault s k 0x2001 0 g a.ring i.tag slot addr
  | none =>
    let u := countClamps u (dRc d) (walk.filter fun e => e.clamp).length
    let x := genOf u g
    let s := setMu s k { u with gens := sset Gen.idle u.gens g { x with done := walk.length } }
    sendLane s k g (genSlots s k g) i.tag true (packCodes bits (codes walk))

/-- A gather: the rows of the indices in order (R168). -/
def runGather (s : State) (k g : Nat) (i : Issued) (ia ta : Access) (islot tslot : Nat) : State :=
  let u := muOf s k
  let d := issDesc u i
  let n := gCount s k d
  let rows := gRows s k d
  let iorg := (accRegion u ia islot).org
  let torg := (accRegion u ta tslot).org
  let idx := (List.range n).map fun j => signed 32 (mnat u.spad (iorg + 4 * j) 4)
  let clamp (v : Int) : Nat := if v < 0 then 0 else min v.toNat (rows - 1)
  let clamped := (idx.filter fun v => decide (v < 0) || decide ((rows : Int) ≤ v)).length
  let bs := idx.flatMap fun v => mread u.spad (torg + clamp v * gRowStride d) (gRowBytes d)
  let u := countClamps u (dRc d) clamped
  let x := genOf u g
  let s := setMu s k { u with gens := sset Gen.idle u.gens g { x with done := n } }
  sendLane s k g (genSlots s k g) i.tag true bs

/-- A layout copy (R172): elements before a bank conflict of either side are copied. DESIGN CHOICE (log entry 83): where the source
overlaps the destination, every element is read as it stood before the copy. -/
def runCopy (s : State) (k g : Nat) (i : Issued) (sa da : Access) (sslot dslot : Nat) : State :=
  let u := muOf s k
  let d := issDesc u i
  let bits := fmtBits (dFmt d)
  let sorg := (accRegion u sa sslot).org
  let dorg := (accRegion u da dslot).org
  let walk := lcdWalk d bits (issDims s k i)
  let copy (m : Mem) (l : List (WalkEl × WalkEl)) : Mem :=
    l.foldl (fun m e =>
      let v := match e.1.off with
        | none => 0
        | some o => spadGet u.spad bits (absBit sorg o)
      match e.2.off with
      | none => m
      | some o => spadPut m bits (absBit dorg o) v) m
  let cs := conflictAt sorg (walk.map (·.1))
  let cd := conflictAt dorg (walk.map (·.2))
  let first := match cs, cd with
    | some a, some b => some (if a.1 ≤ b.1 then (a.1, a.2, sa.ring, sslot) else (b.1, b.2, da.ring, dslot))
    | some a, none => some (a.1, a.2, sa.ring, sslot)
    | none, some b => some (b.1, b.2, da.ring, dslot)
    | none, none => none
  match first with
  | some (n, addr, ring, slot) =>
    let u := countClamps { u with spad := copy u.spad (walk.take n) } (dRc d)
      ((walk.take n).filter fun e => e.1.clamp).length
    muFault (setMu s k u) k 0x2001 0 g ring i.tag slot addr
  | none =>
    let u := countClamps u (dRc d) (walk.filter fun e => e.1.clamp).length
    let x := genOf u g
    setMu s k { u with spad := copy u.spad walk, gens := sset Gen.idle u.gens g { x with done := walk.length } }

/-- Stores the elements that the lane bytes in hand complete (R153, R155, R160). -/
def storeElems (s : State) (k g : Nat) (i : Issued) (a : Access) (slot : Nat) : State :=
  let u := muOf s k
  let d := issDesc u i
  let bits := fmtBits (dFmt d)
  let org := (accRegion u a slot).org
  let walk := walkOf bits (walkOrder d) (issDims s k i)
  let x := genOf u g
  let n := min (8 * x.buf.length / bits) (walk.length - x.done)
  let limit := (conflictAt org walk).map (·.1)
  let part := ((walk.drop x.done).take n).zipIdx
  let m := part.foldl (fun m e =>
    if limit.any fun l => decide (l ≤ x.done + e.2) then m
    else match e.1.off with
      | none => m
      | some o => spadPut m bits (absBit org o) (elemAt bits x.buf e.2)) u.spad
  let u := countClamps { u with spad := m } (dRc d)
    (part.filter fun e => e.1.clamp && !(limit.any fun l => decide (l ≤ x.done + e.2))).length
  let s := setMu s k { u with gens := sset Gen.idle u.gens g { x with done := x.done + n, buf := x.buf.drop (n * bits / 8) } }
  match conflictAt org walk with
  | some (l, addr) => if l < x.done + n then muFault s k 0x2001 0 g a.ring i.tag slot addr else s
  | none => s

/-- One scatter-add element (R169): FP32 rounds under R61, INT32 saturates. -/
def scatAdd (fmt : Fmt) (old v : Nat) : Nat × Bool :=
  if fmt == .fp32 then (fadd old v, false)
  else
    let t := signed 32 old + signed 32 v
    let r := satInt .int32 t
    (unsignedOf 32 r, r != t)

/-- Writes or adds the rows that the lane bytes in hand complete, in index order (R168, R169). -/
def scatterRows : Nat → State → Nat → Nat → Issued → Access → Access → Nat → Nat → State
  | 0, s, _, _, _, _, _, _, _ => s
  | n + 1, s, k, g, i, ia, ta, islot, tslot =>
    let u := muOf s k
    let d := issDesc u i
    let x := genOf u g
    let rb := gRowBytes d
    if x.buf.length < rb || gCount s k d ≤ x.done then s
    else
      let v := signed 32 (mnat u.spad ((accRegion u ia islot).org + 4 * x.done) 4)
      let rows := gRows s k d
      let row := if v < 0 then 0 else min v.toNat (rows - 1)
      let at_ := (accRegion u ta tslot).org + row * gRowStride d
      let bytes := x.buf.take rb
      let r := if gOp d = 0 then (bytes, false)
        else (List.range (rb / 4)).foldl (fun (r : List Byte × Bool) j =>
          let e := scatAdd (dFmt d) (mnat u.spad (at_ + 4 * j) 4) (leAt bytes (4 * j) 4)
          (r.1 ++ leBytes 4 e.1, r.2 || e.2)) ([], false)
      let u := countClamps { u with spad := mwrite u.spad at_ r.1, scatSat := u.scatSat || r.2 } (dRc d)
        (b2n (decide (v < 0) || decide ((rows : Int) ≤ v)))
      let u := { u with gens := sset Gen.idle u.gens g { x with done := x.done + 1, buf := x.buf.drop rb } }
      scatterRows n (setMu s k u) k g i ia ta islot tslot

/-- Elements or indices that a descriptor moves. -/
def genTotal (s : State) (k : Nat) (i : Issued) : Nat :=
  let d := issDesc (muOf s k) i
  if issZero s k i then 0 else if dType d = 2 then gCount s k d else prodOf ((issDims s k i).map (·.n))

/-- A generator that stores takes the words of its inbound lane, each with its credit, until it has what it needs. -/
def feedGen : Nat → State → Nat → Nat → State
  | 0, s, _, _ => s
  | n + 1, s, k, g =>
    let u := muOf s k
    let x := genOf u g
    match x.iss with
    | none => s
    | some i =>
      let d := issDesc u i
      if !x.started || !(dDir d) || dType d = 3 || genTotal s k i ≤ x.done then s
      else
        match sget [] u.lanes g with
        | [] => s
        | f :: r =>
          let x := { x with buf := x.buf ++ f.word.data }
          let s := laneCredit (setMu s k { u with lanes := sset [] u.lanes g r, gens := sset Gen.idle u.gens g x }) k f
          let accs := accessesOf s k i
          let s := match accs, x.slots with
            | [a], [sl] => storeElems s k g i a sl
            | [ia, ta], [il, tl] => scatterRows (f.word.data.length + x.buf.length) s k g i ia ta il tl
            | _, _ => s
          feedGen n s k g

/-- A descriptor begins its accesses. -/
def runGen (s : State) (k g : Nat) (i : Issued) : State :=
  let u := muOf s k
  let d := issDesc u i
  let x := genOf u g
  if issZero s k i then s
  else
    match dType d, accessesOf s k i, x.slots with
    | 1, [a], [sl] => if dDir d then feedGen 9 s k g else runLoad s k g i a sl
    | 2, [ia, ta], [il, tl] => if dDir d then feedGen 9 s k g else runGather s k g i ia ta il tl
    | 3, [sa, da], [sl, dl] => runCopy s k g i sa da sl dl
    | _, _, _ => s

/-- The footprints of a descriptor's writes, which the Hall Monitor logs: stores, scatters, layout copies and external reads
(R165, R270). -/
def hmFoots (s : State) (k : Nat) (i : Issued) (slots : List Nat) : List (Nat × Nat) :=
  let u := muOf s k
  if !u.hmEn then []
  else ((accessesOf s k i).zip slots).filterMap fun p => if p.1.write then accFoot u p.1 p.2 else none

/-- A generator tries to enter and to begin its descriptor; a full scoreboard makes it wait without a block (R162, R166). DESIGN CHOICE
(log entry 83): MU_FAULT_AT has ADDR 0 when the first address outside lies below 0. -/
def tryGen (s : State) (k g : Nat) : State :=
  let u := muOf s k
  let x := genOf u g
  match x.iss with
  | none => s
  | some i =>
    if x.started then s
    else
      let d := issDesc u i
      let accs := accessesOf s k i
      let entered : Option State :=
        if x.key != 0 then some s
        else match mayEnter u accs i.tag with
          | .past ring slot addr =>
            some (muFault s k 0x2002 0 g ring i.tag slot addr.toNat)
          | .wait => none
          | .block ring at_ => some (blockGen s k g false (ring, at_) i.tag)
          | .go =>
            let r := enter u accs i.tag
            let s := setMu s k { r.1 with gens := sset Gen.idle r.1.gens g { x with key := r.2.1, slots := r.2.2 } }
            match hmFoots s k i r.2.2 with
            | f :: _ =>
              let h := hmStore s k (dType d != 2) (dHalo d) f
              some (if h.1 then recFault h.2 k 0x4003 (.access k g 0x3F f.1 i.tag) else h.2)
            | [] => some s
      match entered with
      | none => setMu s k { u with gens := sset Gen.idle u.gens g { x with blockedSince := none } }
      | some s =>
        let u := muOf s k
        let x := genOf u g
        if x.key = 0 || !(unitLive s k) then s
        else if !(sbBlocked u x.key) then
          runGen (setMu s k { u with gens := sset Gen.idle u.gens g { x with started := true, blockedSince := none } }) k g i
        else blockGen s k g (haloWaits u x.key (dType d != 2 && dHalo d)) (blockedAt u x.key accs x.slots) i.tag

/-- A generator decodes the descriptor that its list has issued (R149, R150). -/
def takeDesc (s : State) (k g : Nat) (p : Nat → Bool) : State :=
  let u := muOf s k
  match pendOf u g with
  | none => s
  | some i =>
    let d := issDesc u i
    if !(unitLive s k) || (genOf u g).iss.isSome || !(p (if i.id < 256 then dType d else 0)) then s
    else
      let why := descReason d (decide (256 ≤ i.id)) (shapeAt s k) (shapeDeclared s k)
        (fun r => (ringShape u.stores r).1 != 0) (fun q => qbOutSlots (queueBind u.stores q) != 0) i.off
      let why := match why with
        | none => if 256 ≤ i.id || dGen d != g then some 5 else none
        | r => r
      let s := setMu s k { u with pend := sset none u.pend g none }
      match why with
      | some r => muFault s k 0x2004 r g (dRing d) i.tag 0 0
      | none =>
        let u := muOf s k
        tryGen (setMu s k { u with gens := sset Gen.idle u.gens g { Gen.idle with iss := some i } }) k g

/-- A site that holds an MU. -/
def isMu (k : Nat) : Bool := decide (k < 2048) && !(siteIsCu k)
/-- A site that holds a CU. -/
def isCu (k : Nat) : Bool := decide (k < 2048) && siteIsCu k

/-- A command that happens at a unit which reads its stores (R418, R419). -/
def atRow (p : Nat → Bool) (a : At) (s : State) (f : Nat → State → State) : Host.Outcome State Fault Refusal :=
  actIf (p a.site) s fun s => atRead a s (f a.site)

/-! ## Commands -/

/-- The offsets of an issue: the grid offsets of the map and the repetition (R223). -/
def issueOffsets (s : State) (k e r : Nat) : List Int :=
  let u := muOf s k
  let g := match counterSite s k with
    | some j => if inGroup u.stores then
        tcCoords (stEnt (muOf s j).stores 0x0F 32 0) (shapeAt s k) ((u.cur.map Grant.tile).getD 0) else [0, 0, 0, 0]
    | none => [0, 0, 0, 0]
  let m := if ieOffmap e = 15 then 0 else stEnt u.stores 0x0E 20 (ieOffmap e)
  (List.range 5).map fun j =>
    let w := dW m j
    (if bitOf w 31 then (g.getD (fld w 29 2) 0 : Int) * signed 16 (fld w 0 16) else 0) +
    (if ieRdim e = j then (r : Int) * ieRstep e else 0)

/-- ISSUE_ENTRY: a list's next entry waits on its condition and issues its descriptor (R222, R223, R237, R238). -/
def execIssueEntry (unit : At) (list : Nat) (s : State) : Host.Outcome State Fault Refusal :=
  atRow (fun k => isMu k && decide (list < 12)) unit s fun site s =>
    let u := muOf s site
    let p := listOf u list
    let full := 4 ≤ list && 64 ≤ (queueEads u (list - 4)).length
    if !(unitLive s site) || !u.run || u.fin || p.fin || p.pos = 0x3FF || u.cur.isNone || (pendOf u list).isSome || full then s
    else
      let e := stEnt u.stores 0x0A 16 p.pos
      let w := match listCond u list with
        | none => Wait.holds
        | some c => testWait s site c p.rep
      match w with
      | .past => waitFault s site 0x4004 (listCond u list) p.rep
      | .orphaned => waitFault s site 0x4002 (listCond u list) p.rep
      | .unmet =>
        setMu s site { u with lists := sset ListPos.idle u.lists list { p with waitSince := some (p.waitSince.getD s.fclk) } }
      | .holds =>
        let d := if ieSrc e = 1 then stEnt u.stores 0x09 128 (ieDesc e) else stEnt u.stores 0x08 128 (ieDesc e)
        let base := (u.cur.map Grant.tagBase).getD 0
        let i : Issued := { id := 256 * ieSrc e + ieDesc e, idx := p.pos, off := issueOffsets s site e p.rep,
                            tag := (dTag d + base + p.rep * ieTstep e) % 65536 }
        let next := if p.rep < ieRm1 e then { p with rep := p.rep + 1, waitSince := none }
          else { pos := ieNext e, rep := 0, fin := ieNext e = 0x3FF, waitSince := none }
        settleMu (setMu s site { u with pend := sset none u.pend list (some i), lists := sset ListPos.idle u.lists list next })
          site

/-- TILE_DESCRIPTOR: a generator takes a TD, or a descriptor that no type names (R149 to R160). -/
def execTileDescriptor (site gen : Nat) (sram : Sram) (s : State) : Host.Outcome State Fault Refusal :=
  actIf (isMu site && decide (gen < 4)) s fun s =>
    let u := muOf s site
    let tile := (pendOf u gen).any fun i => let d := if i.id < 256 then dType (issDesc u i) else 0
                                            d != 2 && d != 3
    if tile && (genOf u gen).iss.isNone && unitLive s site then
      sramRead s site sram fun s => takeDesc s site gen fun t => t != 2 && t != 3
    else s

/-- GATHER_SCATTER_DESCRIPTOR (R167 to R169). -/
def execGatherScatterDescriptor (unit : At) (gen : Nat) (s : State) : Host.Outcome State Fault Refusal :=
  atRow (fun k => isMu k && decide (gen < 4)) unit s fun site s => takeDesc s site gen fun t => t = 2

/-- LAYOUT_COPY_DESCRIPTOR (R171, R172). -/
def execLayoutCopyDescriptor (unit : At) (gen : Nat) (s : State) : Host.Outcome State Fault Refusal :=
  atRow (fun k => isMu k && decide (gen < 4)) unit s fun site s => takeDesc s site gen fun t => t = 3

/-- The counter of a load or a gather is signalled as the last word of its lane leaves; of any other descriptor, and of one
whose words have all left, at once (R148, R234). -/
def signalAfter (s : State) (k g sig : Nat) (waits : Bool) : State :=
  let u := muOf s k
  let slots := genSlots s k g
  match ((List.range u.outq.length).filter fun n =>
      waits && (u.outq[n]?).any fun w => w.lane = g && w.slots = slots).getLast? with
  | some n => setMu s k { u with outq := modAt u.outq n fun w => { w with mark := some sig } }
  | none => raiseCtr s k sig 1 (srcLocal k g)

/-- DESCRIPTOR_COMPLETE: the descriptor's last access is done: its entries leave the scoreboard, its slots change state, the
generator is free, and its counter is signalled (R148, R162, R163, R234). -/
def execDescriptorComplete (site gen : Nat) (s : State) : Host.Outcome State Fault Refusal :=
  actIf (isMu site && decide (gen < 4)) s fun s =>
    let u := muOf s site
    let x := genOf u gen
    match x.iss with
    | none => s
    | some i =>
      if !(unitLive s site) || !x.started || x.done < genTotal s site i then s
      else
        let u := finish u (accessesOf s site i) x.slots x.key
        let s := setMu s site { u with gens := sset Gen.idle u.gens gen Gen.idle }
        let d := issDesc u i
        let waits := !(dDir d) && dType d != 3 && !(issZero s site i)
        let s := if dSig d < 48 then signalAfter s site gen (dSig d) waits else s
        settleMu s site

/-- NARROW_STARVATION: a narrow request that has waited 256 FCLK takes its bank ahead of the beats. It changes no byte and
no order (R147). -/
def execNarrowStarvation (site : Nat) (s : State) : Host.Outcome State Fault Refusal :=
  actIf (isMu site) s fun s => s

end Sys2Proof.Machine
end

