-- ==== Sys2Proof/Machine/Twins.lean ====
section
/-! DEFINITION. Twin wings: comparison of their outputs, fencing and promotion (R431 to R435). -/

namespace Sys2Proof.Machine

/-- Clears the units and switches of a strip mask, and their import bindings. -/
def clearSites (s : State) (m : Nat) : State :=
  let s := { s with ctl := s.ctl.filter fun r => !(m.testBit (siteStrip r.site)) }
  (maskSites m).foldl (fun s k =>
    let s := setMu (setCu (setSw s k Switch.idle) k CU.idle) k MU.idle
    { s with objs := s.objs.map fun o => (o.1, { o.2 with importers := o.2.importers.filter fun i => i.1 != k }) }) s

/-- The context's twin has raised an object: the k-th increments of both twins are compared, and the primary's is applied
(R249, R433). The answer says whether the comparison agrees. -/
def twinIncrement (s : State) (c o : Nat) (shadow : Bool) (inc : Nat) : Bool × State :=
  let x := ctxOf s c
  let s := if shadow then s else ownRaise s c o inc
  match takeFirst (fun e => e.1 = o && e.2.1 != shadow) x.cmp with
  | some (e, rest) =>
    (e.2.2 = inc, modCtx s c fun x => { x with cmp := rest, twinErr := if e.2.2 = inc then (false, false) else x.twinErr })
  | none => (true, modCtx s c fun x => { x with cmp := x.cmp ++ [(o, shadow, inc)] })

/-- The shadow of a pair is FENCED and the primary continues as ACTIVE (R434). -/
def fenceShadow (s : State) (pair : Nat) (cause : W16) : State :=
  match (List.range 4).find? fun w => w / 2 = pair && (wingOf s w).st == .twinShadow with
  | none => s
  | some v =>
    let p := partner v
    let cs := ctxsWith s fun x => x.st != .free && fld x.strips (16 * p) 16 != 0
    let s := clearSites s (fld ((cs.map fun c => shadowMask s (ctxOf s c).strips).foldl Nat.lor 0) (16 * v) 16 * 2 ^ (16 * v))
    let s := cs.foldl (fun s c => modCtx s c fun x =>
      { x with twinFault := none, twinErr := (false, false), cmp := [], tensors := x.tensors.filter fun e => !(shadowKey e.1),
               before := x.before.map fun p => (p.1, p.2.filter fun e => !(shadowKey e.1)) }) s
    let s := if (wingOf s v).st == .failed then s else wingTo s v .fenced cause
    if (wingOf s p).st == .twinPrimary then wingTo s p .active 0 else s

/-- The promotion of a shadow starts; it ends within 8 µs (R435). -/
def startPromotion (s : State) (pair : Nat) : State :=
  { s with health := { s.health with promoteAt := sset none s.health.promoteAt pair (some s.fclk) } }

/-- A comparison of the pair's outputs disagrees: the one twin with a fault, or an uncorrectable error since the last comparison that
agreed, is FENCED, else the shadow is promoted (R434). -/
def twinMismatch (s : State) (c pair : Nat) : State :=
  let s := bump s 0x281005 1
  let x := ctxOf s c
  let atShadow := match x.twinFault with
    | some f => !f.2.1
    | none => x.twinErr.2 && !x.twinErr.1
  if atShadow then fenceShadow s pair 0x8004
  else
    let p := (List.range 4).find? fun w => w / 2 = pair && (wingOf s w).st == .twinPrimary
    let s := match p with
      | some w => modWing s w fun x => { x with cause := 0x8004 }
      | none => s
    startPromotion s pair

/-- The tensors of the promoted twin, kept at 256 + index, take the place of the primary's. -/
def shadowTensors (m : Sparse Tensor) : Sparse Tensor :=
  let sh := (m.filter fun e => shadowKey e.1).map fun e => (e.1 - 256, e.2)
  if sh.isEmpty then m else sh

/-- The promotion of a pair ends: the shadow's wing is ACTIVE and holds the grants, and the held increments are applied; those that only
the primary had raised stay on record, as the promoted twin is still to raise them (R433, R435). -/
def promote (s : State) (pair : Nat) : State :=
  let s := { s with health := { s.health with promoteAt := sset none s.health.promoteAt pair none } }
  match (List.range 4).find? fun w => w / 2 = pair && (wingOf s w).st == .twinShadow with
  | none => s
  | some v =>
    let p := partner v
    let cs := ctxsWith s fun x => x.st != .free && fld x.strips (16 * p) 16 != 0
    let old := fld ((cs.map fun c => (ctxOf s c).strips).foldl Nat.lor 0) (16 * p) 16 * 2 ^ (16 * p)
    let s := clearSites s old
    let s := if (wingOf s p).st == .failed then s else wingTo s p .fenced (wingOf s p).cause
    let s := bump (wingTo s v .active 0) 0x281004 1
    cs.foldl (fun s c =>
      let x := ctxOf s c
      let s := setCtx s c { x with strips := swapWings x.strips, stripUs := x.stripUs, promoted := !x.promoted,
                                   twinFault := none, twinErr := (false, false), cmp := x.cmp.filter fun e => !e.2.1,
                                   tensors := shadowTensors x.tensors,
                                   before := x.before.map fun p => (p.1, shadowTensors p.2) }
      (x.cmp.filter fun e => e.2.1).foldl (fun s e => ownRaise s c e.1 e.2.2) s) s

end Sys2Proof.Machine
end

