-- ==== Sys2Proof/Machine/Grants.lean ====
section
/-! DEFINITION. The tile counter and its grants (R225 to R227), signal packets (R240 to R242), and what a unit does with a
word, grant or packet of another Term (R194). -/

namespace Sys2Proof.Machine

/-- STRICT of the turn that runs at a site (R268). -/
def siteStrict (s : State) (k : Nat) : Bool :=
  match siteCtx s k with
  | none => false
  | some c =>
    let x := ctxOf s c
    match x.syl, x.run with
    | some y, some r => secStrict y.file r.turn || decide (1 ≤ y.level)
    | _, _ => false

/-- A unit or switch drops something that carries Term `term`: it is counted, and it faults the context that owns the site
when the Term was last that context's and STRICT or the Hall Monitor is on (R194). -/
def dropStale (s : State) (k term port slot tag : Nat) (strict : Bool) : State :=
  let s := modSw s k fun w => { w with stale := BitVec.ofNat 32 (satAdd 32 w.stale.toNat 1), lastStale := BitVec.ofNat 8 term }
  let s := bump s 0x230001 1
  match siteCtx s k with
  | none => s
  | some c =>
    if (sget (none, 0, 64) s.terms term).2.2 = c && (strict || monitored s k) then
      swFault s k 0x3001 port term tag (.stale k port slot term tag)
    else s

/-! ## Tile counter -/

/-- The members of a tile group of the section of a site. -/
def groupMembers (s : State) (k g : Nat) : List Nat :=
  (peerSites s k).filter fun j => unitRun s j && startGroup (unitStores s j) = g

/-- Free entries of a member's grant FIFO: two, less the grants it holds or that travel to it (R226). -/
def grantRoom (s : State) (j : Nat) : Bool :=
  decide ((unitGrants s j).length + b2n (unitCur s j).isSome + (s.flying.filter fun f => f.1 = j && f.2.term = unitTerm s j).length < 2)

/-- TILE_REQUEST: the counter at a site holds a request from every member of a group and serves it (R226, R227). -/
def execTileRequest (site group : Nat) (s : State) : Host.Outcome State Fault Refusal :=
  actIf (isMu site) s fun s =>
    let u := muOf s site
    let d := stEnt u.stores 0x0F 32 0
    let ms := groupMembers s site group
    if !(unitLive s site) || recessing s site || d = 0 || tcGroups d ≤ group || u.tcEnded.contains group || ms.isEmpty || !(ms.all (grantRoom s))
    then s
    else
      let twin := match siteCtx s site with
        | some c => twinned s (ctxOf s c)
        | none => false
      let fixed := tcStatic d || twin
      let given := sget 0 u.tcGiven group
      let t := if fixed then group + given * tcGroups d else u.tcNext
      let fin := decide (tcTotal d (shapeAt s site) ≤ t)
      let g : Grant := { tile := if fin then 0 else t, tagBase := if fin then 0 else t * tcStride d % 65536, fin := fin,
                         term := u.term }
      let u := if fin then { u with tcEnded := u.tcEnded ++ [group] }
        else { u with tcNext := if fixed then u.tcNext else t + 1, tcGiven := sset 0 u.tcGiven group (given + 1) }
      { setMu s site u with flying := s.flying ++ ms.map fun j => (j, g) }

/-- TILE_GRANT: the oldest grant on its way to a site arrives (R226, R239). -/
def execTileGrant (site : Nat) (s : State) : Host.Outcome State Fault Refusal :=
  actIf (decide (site < 2048)) s fun s =>
    match takeFirst (fun f => f.1 = site) s.flying with
    | none => s
    | some (f, rest) =>
      let s := { s with flying := rest }
      if f.2.term != unitTerm s site then dropStale s site f.2.term 0 0 0 (siteStrict s site)
      else if !(unitLive s site) then s
      else
        let s := if siteIsCu site then modCu s site fun u => { u with grants := u.grants ++ [f.2] }
          else modMu s site fun u => { u with grants := u.grants ++ [f.2] }
        let s := if f.2.fin then s else sendRoutes s site (fun e => rtEvent e = 2) 1
        if siteIsCu site then s else settleMu (takeGrant s site) site

/-! ## Signal packets -/

/-- A packet of a route of a site is delivered: to an object, or to a counter of a unit (R240 to R242, R247 to R250). -/
def deliverPacket (s : State) (site route : Nat) (p : Packet) : State :=
  let dst := if p.site = 4096 then site else p.site
  if p.site != 4096 && p.term != unitTerm s dst then dropStale s dst p.term 0 0 0 (siteStrict s dst)
  else match siteCtx s site with
    | none => s
    | some c =>
      let x := ctxOf s c
      if p.site = 4096 then
        match p.obj with
        | none => s
        | some o =>
          if p.term != unitTerm s site then s
          else if !(executes x) then
            -- a signal at the object of an owner that has stopped is dropped and counted
            if (objOf s o).orphan && !(onShadow s site) then (raiseObj s o p.inc srcObject).2 else s
          else if twinned s x then
            let r := twinIncrement s c o (onShadow s site) p.inc
            if r.1 then r.2 else twinMismatch r.2 c (wingPair (siteWing site))
          else match takeFirst (fun e => e.1 = o) x.cmp with
            -- the failed primary has raised it before the promotion (R433, R435)
            | some (_, rest) => setCtx s c { x with cmp := rest }
            | none => ownRaise s c o p.inc
      else if !(executes x) then s
      else raiseCtr s dst p.ctr p.inc (srcRoute site route)

/-- SIGNAL_PACKET: the oldest packet of a route is delivered, unless the store that held its route entry, or the word that carries it, is
uncorrectable (R240, R242, R418, R419). An object's packets wait while the twin's promotion is under way (R435). -/
def execSignalPacket (site route : Nat) (check : WordCheck) (s : State) : Host.Outcome State Fault Refusal :=
  actIf (decide (site < 2048) && decide (route < 64)) s fun s =>
    match takeFirst (fun p => p.src = site && p.route = route) s.mesh with
    | none => s
    | some (p, rest) =>
      let held := p.site = 4096 && (sget none s.health.promoteAt (wingPair (siteWing site))).isSome
      if held then s
      else
        let s := { s with mesh := rest }
        let dst := if p.site = 4096 then site else p.site
        match check with
        | .clean => deliverPacket s site route p
        | .corrected =>
          deliverPacket (bump (modSw s dst fun w => { w with ce := BitVec.ofNat 32 (satAdd 32 w.ce.toNat 1) }) 0x230003 1) site route p
        | .uncorrectable => swFault s dst 0x3004 0 p.term 0 (.link dst 0 0)
        | .table e => sramRead s site e fun s => deliverPacket s site route p

end Sys2Proof.Machine
end

