-- ==== Sys2Proof/Machine/Hbm.lean ====
section
/-! DEFINITION. HBM4E and the external-access port: decoupling queues (R210 to R215), error correction (R206, R207), refresh
(R208) and spare pseudo-channels (R424). -/

namespace Sys2Proof.Machine

/-! ## Uncorrectable words and counts -/

/-- The byte offset of a device address within its pseudo-channel (R204). -/
def pchanOffset (s : State) (a : Nat) : Nat := (a / 4096 / numStacks s / 8) * 512 + a % 512

/-- A corrected word or a clean retry (R206, R207), kept for an hour for its pseudo-channel (R424). -/
def countCorrected (s : State) (a : Nat) : State :=
  let i := 64 * stackOf s a + pchanOf s a
  bump { s with pchans := smod PChan.good s.pchans i fun p =>
    { p with recent := s.fclk :: p.recent.filter fun t => decide (s.fclk < t + ms 3600000) } } 0x220001 1

/-- A word is uncorrectable from now on (R207); the distinct ones are counted for their pseudo-channel (R424). -/
def markBad (s : State) (w : Nat) : State :=
  let i := 64 * stackOf s (32 * w) + pchanOf s (32 * w)
  let fresh := sget false s.hbmBad w == false
  { s with hbmBad := sset false s.hbmBad w true,
           pchans := smod PChan.good s.pchans i fun p => { p with badWords := p.badWords + b2n fresh } }

/-- A twin's copy of a context's extents has an uncorrectable word (R434). -/
def noteTwinWord (s : State) (a : Nat) : State :=
  let hit (l : List (Nat × Nat)) : Bool := l.any fun e => decide (e.1 < a + 32) && decide (a < e.1 + e.2)
  (ctxsWith s fun x => twinned s x && (hit x.extents || hit x.shadow)).foldl (fun s c =>
    modCtx s c fun x => { x with twinErr := (x.twinErr.1 || hit x.extents, x.twinErr.2 || hit x.shadow) }) s

/-- An uncorrectable word found by a read or the patrol (R207). -/
def countUncorrectable (s : State) (a : Nat) : State :=
  dset (bump (noteTwinWord (markBad s (a / 32)) (32 * (a / 32))) 0x220002 1) 0x220007 (32 * (a / 32))

/-- What the controllers meet in a read of [a, a + n): words that they correct, marked words whose second read is clean, and words that
they now find uncorrectable (R206, R207). -/
def readThrough (s : State) (a n : Nat) (r : HbmReads) : State :=
  let inside (w : Nat) : Bool := decide (32 * w < a + n) && decide (a < 32 * w + 32)
  let fixed := (r.fixed.map (· / 32)).eraseDups.filter fun w => inside w && !(sget false s.hbmBad w)
  let clean := (r.clean.map (· / 32)).eraseDups.filter fun w => inside w && sget false s.hbmBad w
  let s := fixed.foldl (fun s w => countCorrected s (32 * w)) s
  let s := clean.foldl (fun s w => countCorrected { s with hbmBad := sset false s.hbmBad w false } (32 * w)) s
  ((r.bad.map (· / 32)).eraseDups.filter inside).foldl markBad s

/-- The 32 B words of [a, a + n) that it does not cover whole, which a write reads first (R206). -/
def partWords (a n : Nat) : List Nat :=
  if n = 0 then [] else [a / 32, (a + n - 1) / 32].eraseDups.filter fun w => decide (32 * w < a) || decide (a + n < 32 * w + 32)

/-- What the controllers meet in the words that a write of [a, a + n) reads (R206). -/
def readPart (s : State) (a n : Nat) (r : HbmReads) : State :=
  (partWords a n).foldl (fun s w => readThrough s (32 * w) 32 r) s

/-- The uncorrectable words that [a, a + n) touches, ascending. -/
def badIn (s : State) (a n : Nat) : List Nat :=
  (s.hbmBad.filter fun e => e.2 && decide (32 * e.1 < a + n) && decide (a < 32 * e.1 + 32)).map (·.1)

/-! ## The work of an EAD -/

/-- The elements of an EAD in walk order: scratchpad bit offset, and the HBM4E bit address of an inside element (R213). -/
def eadElems (d bits : Nat) (dims : List Dim) : List (Int × Option Int) :=
  (viewIdx (walkOrder d) dims).map fun idx =>
    (spadBit bits dims idx, if insideTensor dims idx then some (hbmBit d bits dims idx) else none)

/-- The bit address that a site's twin uses for a bit address of its context. -/
def twinBit (s : State) (x : Ctx) (k : Nat) (b : Int) : Int :=
  8 * ((twinAddr s x (siteWing k) (b / 8).toNat : Nat) : Int) + b % 8

/-- The 32 B words that a list of codes written at bit addresses covers whole. -/
def wholeWord (bits : Nat) (bs : List Int) (w : Nat) : Bool :=
  (List.range 256).all fun i => bs.any fun b => decide (b ≤ (256 * w + i : Nat)) && decide (((256 * w + i : Nat) : Int) < b + bits)

/-- Writes codes to HBM4E, of an EAD that writes at the bit addresses `all`. A word that is uncorrectable and that the EAD does not
cover whole stays as it is; the answer says whether one was met (R206, R207). -/
def eadWriteCodes (s : State) (bits : Nat) (cs : List (Int × Nat)) (all : List Int) : State × Option Nat :=
  let words := (cs.map fun c => (c.1 / 256).toNat).eraseDups
  let bad := words.filter fun w => sget false s.hbmBad w
  let stay := bad.filter fun w => !(wholeWord bits all w)
  let m := cs.foldl (fun m c => if stay.contains (c.1 / 256).toNat then m else spadPut m bits c.1 c.2) s.hbm
  ({ s with hbm := m, hbmBad := s.hbmBad.filter fun e => !(bad.contains e.1) || stay.contains e.1 }, stay.head?)

/-- The addresses that a read EAD requests, in walk order (twin's copy applied). -/
def eadAddrs (s : State) (x : Ctx) (k bits : Nat) (es : List (Int × Option Int)) : List Nat :=
  es.flatMap fun e => match e.2 with
    | none => []
    | some b => let a := (twinBit s x k b / 8).toNat
                if 8 < bits then [a, a + bits / 8 - 1] else [a]

/-! ## What travels between a port and the controllers (R210, R211)

An EAD's requests and write data leave on the queue's outbound circuit, eight requests to a word; a read acts as its requests have
reached grid-side port GSP, a write as its data have; read data come back on the inbound circuit. DESIGN CHOICE (log entry 60): the port
makes one request for every data word of 128 B. -/

/-- The grid-side port of a queue (R211). -/
def qbGsp (w : Nat) : Nat := fld w 0 7

/-- A queue's grid-side port by its number 0–383: it lies in the MU's own wing. -/
def qbPort (k w : Nat) : Nat := 96 * siteWing k + qbGsp w

/-- The elements of an EAD at run time; a zero-extent run has none. -/
def eadEls (s : State) (k : Nat) (e : Ead) : List (Int × Option Int) :=
  let d := issDesc (muOf s k) e.iss
  if issZero s k e.iss then [] else eadElems d (fmtBits (dFmt d)) (issDims s k e.iss)

/-- Element width of an EAD in bits. -/
def eadBits (s : State) (k : Nat) (e : Ead) : Nat := fmtBits (dFmt (issDesc (muOf s k) e.iss))

/-- DIR of an EAD. -/
def eadDir (s : State) (k : Nat) (e : Ead) : Nat := eDir (issDesc (muOf s k) e.iss)

/-- Stores an EAD in its queue, by its number in the scoreboard. -/
def putEad (s : State) (k q : Nat) (e : Ead) : State :=
  modMu s k fun u => { u with queues := sset [] u.queues q ((queueEads u q).map fun x => if x.key = e.key then e else x) }

/-- The port sends `n` requests and some write data on a queue's outbound circuit; the answer counts the words. -/
def sendPort (s : State) (k q : Nat) (e : Ead) (n : Nat) (bs : List Byte) : Nat × State :=
  let u := muOf s k
  let b := queueBind u.stores q
  let m := ceilDiv n 8
  let asks := (List.range m).map fun i =>
    ({ data := leBytes 128 (Config.requestWord (s.free + i)).toNat, term := u.term, tag := e.iss.tag, last := false,
       req := some { site := k, queue := q, key := e.key, ask := true } } : FWord)
  let data := (laneWords e.iss.tag u.term true (ceilDiv bs.length 128) bs).map fun w =>
    { w with req := some { site := k, queue := q, key := e.key, ask := false } }
  let ws := asks ++ data
  (ws.length, setMu { s with free := s.free + m } k
    { u with outq := u.outq ++ ws.map fun w => { lane := qbOutLane b, slots := qbOutSlots b, word := w, mark := none } })

/-- The codes of the inside elements among some elements of an EAD, as bytes in walk order. -/
def insideBytes (bits : Nat) (es : List (Int × Option Int)) (cs : List Nat) : List Byte :=
  packCodes bits ((es.zip cs).filterMap fun p => if p.1.2.isSome then some p.2 else none)

/-- The codes of elements from `n` on that the inbound bytes in hand complete: outside elements are +0 and take none (R213). -/
def readyCodes (bits : Nat) (es : List (Int × Option Int)) (n : Nat) (buf : List Byte) : List Nat :=
  let have_ := 8 * buf.length / bits
  let first := ((es.take n).filter fun e => e.2.isSome).length
  ((es.drop n).foldl (fun (a : Bool × Nat × List Nat) e =>
    if !a.1 then a
    else match e.2 with
      | none => (true, a.2.1, 0 :: a.2.2)
      | some _ => if a.2.1 < have_ then (true, a.2.1 + 1, elemAt bits buf a.2.1 :: a.2.2) else (false, a.2)) (true, first, [])).2.2.reverse

/-- The scratchpad origin of an EAD's access. -/
def eadOrigin (s : State) (k : Nat) (e : Ead) : Nat :=
  match accessesOf s k e.iss, e.slots with
  | [a], [sl] => (accRegion (muOf s k) a sl).org
  | _, _ => 0

/-- Stores the elements that the read data in hand complete (R211, R213). -/
def storeRead (s : State) (k q : Nat) (e : Ead) : State :=
  let bits := eadBits s k e
  let es := eadEls s k e
  let cs := readyCodes bits es e.done e.buf
  let org := eadOrigin s k e
  let s := modMu s k fun u => { u with spad := ((es.drop e.done).zip cs).foldl (fun m p => spadPut m bits (absBit org p.1.1) p.2) u.spad }
  putEad s k q { e with done := e.done + cs.length }

/-- Once all read data are there, the elements leave packed in walk order on the queue's outbound circuit (DIR 0b10, R213). -/
def passRead (s : State) (k q : Nat) (e : Ead) : State :=
  if e.got < e.need then putEad s k q e
  else
    let b := queueBind (muOf s k).stores q
    let bits := eadBits s k e
    let es := eadEls s k e
    sendLane (putEad s k q { e with done := es.length }) k (qbOutLane b) (qbOutSlots b) e.iss.tag true
      (packCodes bits (readyCodes bits es 0 e.buf))

/-- Once all lane data are there, the inside elements leave for the controller (DIR 0b11, R213). -/
def passWrite (s : State) (k q : Nat) (e : Ead) : State :=
  if e.got < e.need then putEad s k q e
  else
    let bits := eadBits s k e
    let es := eadEls s k e
    let bs := insideBytes bits es ((List.range es.length).map (elemAt bits e.buf))
    let r := sendPort s k q e (ceilDiv bs.length 128) bs
    putEad r.2 k q { e with words := ceilDiv bs.length 128, due := r.1, done := es.length }

/-- The port takes a word for an EAD: read data, or lane data of DIR 0b11. -/
def takeInbound (s : State) (k q : Nat) (e : Ead) : State :=
  match eadDir s k e with
  | 0 => storeRead s k q e
  | 2 => passRead s k q e
  | _ => passWrite s k q e

/-- An EAD takes a word of its queue's inbound circuit: read data name their EAD, and lane data are for the first DIR 0b11 EAD that
takes some. -/
def takesWord (s : State) (k : Nat) (w : FWord) (e : Ead) : Bool :=
  e.sent && decide (e.got < e.need) && (match w.req with
    | some t => e.key = t.key && eadDir s k e != 3
    | none => eadDir s k e = 3)

/-- The port takes the words of a queue's inbound circuit as they arrive, each with its credit (R183, R211). -/
def feedQueue : Nat → State → Nat → Nat → State
  | 0, s, _, _ => s
  | n + 1, s, k, q =>
    let u := muOf s k
    match sget [] u.lanes (4 + q) with
    | [] => s
    | f :: r => match (queueEads u q).find? (takesWord s k f.word) with
      | none => s
      | some e =>
        let s := laneCredit (setMu s k { u with lanes := sset [] u.lanes (4 + q) r }) k f
        feedQueue n (takeInbound s k q { e with got := e.got + 1, buf := e.buf ++ f.word.data }) k q

/-- An EAD starts: a read sends its requests, a write from the scratchpad its requests and data, and a write from the lane takes
its words first. -/
def startEad (s : State) (k q : Nat) (e : Ead) : State :=
  let bits := eadBits s k e
  let es := eadEls s k e
  let inside := (es.filter fun x => x.2.isSome).length
  let e := { e with sent := true, blockedSince := none }
  match eadDir s k e with
  | 1 =>
    let org := eadOrigin s k e
    let bs := insideBytes bits es (es.map fun x => spadGet (muOf s k).spad bits (absBit org x.1))
    let r := sendPort s k q e (ceilDiv bs.length 128) bs
    putEad r.2 k q { e with words := ceilDiv bs.length 128, due := r.1, done := es.length }
  | 3 =>
    let e := { e with need := ceilDiv (es.length * bits) 1024 }
    feedQueue 9 (passWrite s k q e) k q
  | dir =>
    let need := ceilDiv (inside * bits) 1024
    let r := sendPort s k q e need []
    let e := { e with words := need, need := need, due := r.1 }
    if inside = 0 then (if dir = 0 then storeRead r.2 k q e else passRead r.2 k q e) else putEad r.2 k q e

/-! ## Queues -/

/-- An EAD still has to send its requests: it has not started, or takes its lane data first. -/
def owesRequests (s : State) (k : Nat) (e : Ead) : Bool := !e.sent || (eadDir s k e = 3 && decide (e.got < e.need))

/-- Tries to start the first EAD of a queue that has sent no request, once those before it have sent theirs: its scratchpad access is
ordered like a generator's (R157, R162 to R166, R210, R219). The number bounds the EADs it starts. -/
def pumpQueue : Nat → State → Nat → Nat → State
  | 0, s, _, _ => s
  | n + 1, s, k, q =>
    let u := muOf s k
    let es := queueEads u q
    match es.findIdx? (owesRequests s k) with
    | none => s
    | some j =>
      match es[j]? with
      | none => s
      | some e =>
        if e.sent then s else
        let accs := accessesOf s k e.iss
        let put (s : State) (e : Ead) : State :=
          modMu s k fun u => { u with queues := sset [] u.queues q ((queueEads u q).set j e) }
        let block (s : State) (e : Ead) (at_ : Nat × Nat) : State :=
          if u.hmEn then recFault s k 0x4003 (.access k (4 + q) at_.1 at_.2 e.iss.tag)
          else put s { e with blockedSince := some (e.blockedSince.getD s.fclk) }
        let entered : Option (State × Ead) :=
          if e.key != 0 then some (s, e)
          else match mayEnter u accs e.iss.tag with
            | .past ring slot addr => some (muFault s k 0x2002 0 0 ring e.iss.tag slot addr.toNat, e)
            | .wait => none
            | .block ring at_ => some (block s e (ring, at_), e)
            | .go =>
              let r := enter u accs e.iss.tag
              let e := { e with key := r.2.1, slots := r.2.2 }
              let s := put (setMu s k r.1) e
              let s := (hmFoots s k e.iss e.slots).foldl (fun s f => (hmStore s k false false f).2) s
              some (s, e)
        match entered with
        | none => put s { e with blockedSince := none }
        | some (s, e) =>
          if e.key = 0 || !(unitLive s k) then s
          else if sbBlocked (muOf s k) e.key then block s e (blockedAt (muOf s k) e.key accs e.slots)
          else pumpQueue n (startEad s k q e) k q

/-- An external access faults with its queue and address (R205, R207). -/
def eadFault (s : State) (k q : Nat) (word : W16) (ring tag addr : Nat) : State :=
  muFault (recordAt s k (.external k q tag addr)) k word 0 0 ring tag 0 addr

/-- EXTERNAL_ACCESS_DESCRIPTOR: the EAD that a list has issued enters its queue, is checked, and the queue sends what it may
(R205, R210, R213, R214). DESIGN CHOICE (log entry 83): MU_FAULT_AT has ADDR 0 when the first address outside lies below 0. -/
def execExternalAccessDescriptor (unit : At) (queue : Nat) (s : State) : Host.Outcome State Fault Refusal :=
  atRow (fun k => isMu k && decide (queue < 8)) unit s fun site s =>
    let u := muOf s site
    match pendOf u (4 + queue) with
    | none => s
    | some i =>
      let es := queueEads u queue
      if !(unitLive s site) || 64 ≤ es.length then s
      else
        let d := issDesc u i
        let bits := fmtBits (dFmt d)
        let why := descReason d (decide (256 ≤ i.id)) (shapeAt s site) (shapeDeclared s site)
          (fun r => (ringShape u.stores r).1 != 0) (fun q => qbOutSlots (queueBind u.stores q) != 0) i.off
        let why := match why with
          | none => if i.id < 256 || eQueue d != queue then some 5 else none
          | r => r
        let s := setMu s site { u with pend := sset none u.pend (4 + queue) none }
        match why with
        | some r => muFault s site 0x2004 r 0 (dRing d) i.tag 0 0
        | none =>
          let dims := issDims s site i
          let x := ((siteCtx s site).map (ctxOf s)).getD Ctx.free
          let zero := issZero s site i
          let out := if zero then none else (eadHull d bits dims).bind fun h =>
            if h.1 < 0 then some h.1
            else match firstOutside x.extents 64 h.1.toNat (h.2 - h.1).toNat with
              | some a => some (a : Int)
              | none => if (hbmTop s : Int) < h.2 then some (hbmTop s : Int) else none
          match out with
          | some a => eadFault s site queue 0x2005 (dRing d) i.tag (a % ((2 ^ 64 : Nat) : Int)).toNat
          | none =>
            let far := s.health.split != 0 && !zero &&
              ((eadAddrs s x site bits (eadElems d bits dims)).any fun a => apart s (siteWing site) (stackOf s a / 4))
            if far then unitFault s site 0x8002
            else
              let e : Ead := { iss := i, slots := [], key := 0, sent := false, blockedSince := none, words := 0, due := 0,
                               wdone := 0, need := 0, got := 0, buf := [], done := 0 }
              let u := muOf s site
              let s := setMu s site { u with queues := sset [] u.queues queue (es ++ [e]) }
              pumpQueue 65 s site queue

/-- ACCESS_UNBLOCK: a generator or a queue tries its blocked access again (R162 to R166, R219). Lists 0–3 are the
generators', 4–11 the queues'. -/
def execAccessUnblock (unit : At) (list : Nat) (s : State) : Host.Outcome State Fault Refusal :=
  atRow (fun k => isMu k && decide (list < 12)) unit s fun site s =>
    if !(unitLive s site) then s
    else if list < 4 then tryGen s site list
    else pumpQueue 65 s site (list - 4)

/-- The twin rule, the counts and the fault of an uncorrectable word (R207). -/
def hbmFault (s : State) (k q : Nat) (e : Ead) (a : Nat) : State :=
  eadFault s k q 0x2003 (dRing (issDesc (muOf s k) e.iss)) e.iss.tag a

/-! ## The controllers (R206, R207, R210) -/

/-- The slots of a queue's inbound circuit on its grid-side port: the circuit is followed back from the MU's lane, hop by hop; where
it does not come from that port, IN_SLOTS. -/
def circuitBack : Nat → State → Nat → Nat → Nat → Nat × Nat × Nat
  | 0, _, k, p, slots => (k, p, slots)
  | n + 1, s, k, p, slots =>
    -- the entry that sends on output `p` of site `k` in these slots
    match (List.range 64).find? fun i =>
        let e := circuit (swOf s k) i
        ceValid e && (ceOut e).testBit p && Nat.land (outSlots e) slots != 0 with
    | none => (k, p, slots)
    | some i =>
      let e := circuit (swOf s k) i
      if 4 ≤ ceInA e then (k, 4, slots)
      else match neighbour k (ceInA e) with
        | none => (k, ceInA e, ceSlotsA e)
        | some j => circuitBack n s j (oppositePort (ceInA e)) (ceSlotsA e)

/-- The slots in which the ring sends a queue's read data into the grid. -/
def inboundSlots (s : State) (k q : Nat) : Nat :=
  let b := queueBind (muOf s k).stores q
  let r := circuitBack 2048 s k (4 + qbInLane b) (qbInSlots b)
  if (r.1, r.2.1) = gridPlace (qbPort k b) then r.2.2 else qbInSlots b

/-- The bit addresses of the inside elements of an EAD, in walk order. -/
def eadInside (s : State) (k : Nat) (e : Ead) : List Int :=
  let x := ((siteCtx s k).map (ctxOf s)).getD Ctx.free
  ((eadEls s k e).filterMap (·.2)).map (twinBit s x k)

/-- Those that data word `n` of the EAD holds. -/
def wordInside (s : State) (k : Nat) (e : Ead) (n : Nat) : List Int :=
  let per := 1024 / eadBits s k e
  ((eadInside s k e).drop (per * n)).take per

/-- The EAD of a request. -/
def reqEad (s : State) (r : CtlReq) : Option Ead := (queueEads (muOf s r.site) r.queue).find? fun e => e.key = r.key

/-- The 32 B words of HBM4E that a request touches. -/
def reqWords (s : State) (r : CtlReq) : List Nat :=
  match reqEad s r with
  | some e => ((wordInside s r.site e r.n).map fun b => (b / 256).toNat).eraseDups
  | none => []

/-- The stack of a request lies in the other part of a split (R429). -/
def reqApart (s : State) (r : CtlReq) : Bool :=
  s.health.split != 0 && (reqWords s r).any fun w => apart s (siteWing r.site) (stackOf s (32 * w) / 4)

/-- The controllers do a request: a read that meets no uncorrectable word sends its data back, and one that does waits for its second
read (HBM_ECC_RETRY), the answer being none; a write lands; an access to a far stack faults (R206, R207, R210, R429). -/
def doReq (s : State) (r : CtlReq) (e : Ead) : Option State :=
  let k := r.site
  let q := r.queue
  let bits := eadBits s k e
  let els := wordInside s k e r.n
  if reqApart s r then some (unitFault s k 0x8002)
  else if eadDir s k e % 2 = 0 then
    if !(unitLive s k) then some s
    else if els.any fun b => sget false s.hbmBad (b / 256).toNat then none
    else
      let pl := gridPlace (qbPort k (queueBind (muOf s k).stores q))
      let w : FWord := { data := padTo 128 (packCodes bits (els.map (spadGet s.hbm bits))), term := (muOf s k).term, tag := e.iss.tag,
                         last := r.n + 1 = e.words, req := some { site := k, queue := q, key := e.key, ask := false } }
      let slots := inboundSlots s k q
      let s := putEad s k q { e with wdone := e.wdone + 1 }
      some { s with gridIn := s.gridIn ++ [{ site := pl.1, port := pl.2, slots := slots, word := w }] }
  else match eadWriteCodes s bits (els.zipIdx.map fun p => (p.1, elemAt bits r.data p.2)) (eadInside s k e) with
    | (s, none) => some (putEad s k q { e with wdone := e.wdone + 1 })
    | (s, some w) => some (hbmFault s k q e (32 * w))

/-- A request waits behind another: they are of one EAD, or touch one 32 B word (R210). -/
def reqBehind (s : State) (a b : CtlReq) : Bool :=
  (a.site = b.site && a.queue = b.queue && a.key = b.key) || (reqWords s a).any (reqWords s b).contains

/-- The controllers take a request in arrival order: it joins those that wait, or is done (R210). -/
def takeReq (s : State) (r : CtlReq) : State :=
  let wait : State := { s with ctl := s.ctl ++ [r] }
  match reqEad s r with
  | none => s
  | some e => if s.ctl.any (reqBehind s r) then wait else (doReq s r e).getD wait

/-- The controllers try the requests that wait again, in arrival order. -/
def serveCtl (s : State) : State := s.ctl.foldl takeReq { s with ctl := [] }

/-- A word of a port's traffic reaches the controllers beyond the MU's grid-side port: eight requests, or a word of write data (R210,
R211). -/
def portArrive (s : State) (t : PortTag) (w : FWord) : State :=
  match (queueEads (muOf s t.site) t.queue).find? fun e => e.key = t.key && decide (0 < e.due) with
  | none => s
  | some e =>
    let s' := putEad s t.site t.queue { e with due := e.due - 1 }
    let req (n : Nat) (bs : List Byte) : CtlReq := { site := t.site, queue := t.queue, key := t.key, n := n, data := bs }
    if !t.ask then takeReq s' (req (e.words - e.due) w.data)
    else if eadDir s t.site e % 2 = 0 then
      let first := 8 * (ceilDiv e.words 8 - e.due)
      ((List.range 8).filter fun i => decide (first + i < e.words)).foldl (fun s i => takeReq s (req (first + i) [])) s'
    else s'

/-- All that an EAD moves has been moved. -/
def eadDone (s : State) (k q : Nat) (e : Ead) : Bool :=
  let u := muOf s k
  let b := queueBind u.stores q
  e.sent && decide (e.due = 0) && decide (e.words ≤ e.wdone) && decide (e.need ≤ e.got) && decide ((eadEls s k e).length ≤ e.done) &&
  (eadDir s k e != 2 || !(u.outq.any fun w => w.lane = qbOutLane b && w.slots = qbOutSlots b && w.word.req.isNone))

/-- EAD_COMPLETE: the oldest EAD of a queue has moved its data, frees its slot and signals (R210, R213, R234); the words that the
controllers corrected while they served it are counted (R206). -/
def execEadComplete (site : Nat) (done : EadEnd) (s : State) : Host.Outcome State Fault Refusal :=
  let queue := done.queue
  actIf (isMu site && decide (queue < 8)) s fun s =>
    let u := muOf s site
    match queueEads u queue with
    | [] => s
    | e :: rest =>
      if !(unitLive s site) || !(eadDone s site queue e) then s
      else
        let d := issDesc u e.iss
        let x := ((siteCtx s site).map (ctxOf s)).getD Ctx.free
        let words := (eadAddrs s x site (eadBits s site e) (eadEls s site e)).map (· / 32)
        let u := { finish u (accessesOf s site e.iss) e.slots e.key with queues := sset [] u.queues queue rest }
        let s := ((done.fixed.map (· / 32)).eraseDups.filter fun w => words.contains w).foldl (fun s w => countCorrected s (32 * w))
          (setMu s site u)
        let s := if dSig d < 48 then raiseCtr s site (dSig d) 1 (srcLocal site queue) else s
        settleMu s site

/-- The list without the entries of a kind that come after its first `n`. -/
def keepFirst {α : Type} (p : α → Bool) : Nat → List α → List α
  | _, [] => []
  | n, x :: l => if !(p x) then x :: keepFirst p n l else match n with
    | 0 => keepFirst p 0 l
    | m + 1 => x :: keepFirst p m l

/-- The number of the data word of a read EAD that holds some word of HBM4E. -/
def wordOf (s : State) (k : Nat) (e : Ead) (w : Nat) : Option Nat :=
  (List.range e.words).find? fun n => (wordInside s k e n).any fun b => (b / 256).toNat = w

/-- A word is read data of an EAD. -/
def dataOf (k q : Nat) (e : Ead) (i : Inbound) : Bool := i.word.req.any fun t => t.site = k && t.queue = q && t.key = e.key && !t.ask

/-- Data words of a read EAD that its controllers have read and not yet sent into the grid. -/
def unsentWords (s : State) (k q : Nat) (e : Ead) : Nat := (s.gridIn.filter (dataOf k q e)).length

/-- A read EAD has a word of HBM4E at the controllers: read and not sent, or met and to be read once more. -/
def readsNow (s : State) (k q w : Nat) (e : Ead) : Bool :=
  e.sent && eadDir s k e % 2 = 0 && (wordOf s k e w).any fun n => decide (e.wdone ≤ n + unsentWords s k q e) &&
    (decide (n < e.wdone) || s.ctl.any fun r => r.site = k && r.queue = q && r.key = e.key && r.n = n)

/-- HBM_ECC_RETRY: the second read of an uncorrectable word that a queue's oldest read of it has met. A clean one delivers the word; a
second uncorrectable one faults, and none of its bytes nor anything more of the descriptor is delivered (R207). -/
def execHbmEccRetry (site queue addr : Nat) (clean : Bool) (s : State) : Host.Outcome State Fault Refusal :=
  actIf (isMu site && decide (queue < 8)) s fun s =>
    match (queueEads (muOf s site) queue).find? (readsNow s site queue (addr / 32)) with
    | none => s
    | some e =>
      if !(unitLive s site) then s
      else if clean then serveCtl (countCorrected { s with hbmBad := sset false s.hbmBad (addr / 32) false } addr)
      else
        let n := (wordOf s site e (addr / 32)).getD 0
        let drop := e.wdone - n
        let keep := unsentWords s site queue e - drop
        let s := { s with gridIn := keepFirst (dataOf site queue e) keep s.gridIn,
                          ctl := s.ctl.filter fun r => !(r.site = site && r.queue = queue && r.key = e.key) }
        hbmFault (countUncorrectable s addr) site queue e addr

/-- SCRUB_PATROL: the patrol reads a word (R206, R207). -/
def execScrubPatrol (addr : Nat) (ecc : Ecc) (s : State) : Host.Outcome State Fault Refusal :=
  act s fun s =>
    if hbmTop s ≤ addr then s
    else match ecc with
    | .clean => s
    | .corrected => countCorrected s addr
    | .uncorrectable => countUncorrectable s addr

/-- HBM_REFRESH: a pseudo-channel is refreshed. It costs time only (R208). -/
def execHbmRefresh (stack pc : Nat) (s : State) : Host.Outcome State Fault Refusal :=
  actIf (decide (stack < numStacks s) && decide (pc < 64)) s fun s => s

/-- The spares of a stack that are taken, being filled, or failed. -/
def sparesUsed (s : State) (stack : Nat) : List Nat :=
  (List.range 64).flatMap fun p => let c := sget PChan.good s.pchans (64 * stack + p)
                                   c.spare.toList ++ c.copying.toList ++ c.dead

/-- A remap record (R425); the firmware keeps 64. -/
def addRemap (s : State) (kind origin wing stack item plane dest cause : Nat) : State :=
  let w0 := kind * 2 ^ 28 + origin * 2 ^ 26 + wing * 2 ^ 24 + stack * 2 ^ 22 + item * 2 ^ 16 + plane * 2 ^ 10 + dest * 2 ^ 8
  let r := w0 + cause * 2 ^ 48 + (if origin = 0 then 0 else s.fclk % 2 ^ 64) * 2 ^ 64
  if s.health.remaps.length < 64 then { s with health := { s.health with remaps := s.health.remaps ++ [r] } } else s

/-- PSEUDO_CHANNEL_FAILING: a pseudo-channel has returned uncorrectable data at more than 8 words, or its corrections of an hour exceed
0x2840:02; the copy to a free spare of the stack starts, if there is one. One that runs on a spare may fail again (R424; the lowest free
spare: DESIGN CHOICE, log entry 85). -/
def execPseudoChannelFailing (stack pc : Nat) (cause : W16) (s : State) : Host.Outcome State Fault Refusal :=
  actIf (decide (stack < numStacks s) && decide (pc < 64)) s fun s =>
    let i := 64 * stack + pc
    let c := sget PChan.good s.pchans i
    if c.failing || (c.badWords ≤ 8 && c.recent.length ≤ dget s 0x284002) then s
    else
      let used := sparesUsed s stack
      let free := (List.range 4).find? fun n => !(used.contains n)
      { s with pchans := sset PChan.good s.pchans i { c with failing := true, copying := free, cause := cause } }

/-- PSEUDO_CHANNEL_SWITCH: the copy has ended, and the controller serves the pseudo-channel from the spare (R424, R425). -/
def execPseudoChannelSwitch (stack pc : Nat) (s : State) : Host.Outcome State Fault Refusal :=
  actIf (decide (stack < numStacks s) && decide (pc < 64)) s fun s =>
    let i := 64 * stack + pc
    let c := sget PChan.good s.pchans i
    match c.copying with
    | none => s
    | some n =>
      let s := { s with pchans := sset PChan.good s.pchans i { PChan.good with spare := some n, dead := c.spare.toList ++ c.dead } }
      addRemap (bump s 0x220006 1) 3 2 (stack / 4) (stack % 4) pc 0 n c.cause.toNat

end Sys2Proof.Machine
end

