-- ==== Sys2Proof/Machine/Links.lean ====
section
/-! DEFINITION. The Trien link layer: frames and sequence numbers (R336, R337), control words (R338), sending, replay and
retraining (R337, R339). -/

namespace Sys2Proof.Machine

/-! ## Frame headers (R336) -/

def fhType (h : Nat) : Nat := fld h 0 4
def fhSeq (h : Nat) : Nat := fld h 4 12
def fhAck (h : Nat) : Nat := fld h 16 12
def fhNak (h : Nat) : Bool := bitOf h 28
def fhChan (h : Nat) : Nat := fld h 32 6
def fhLen (h : Nat) : Nat := fld h 38 10
def fhFirst (h : Nat) : Bool := bitOf h 48
def fhLast (h : Nat) : Bool := bitOf h 49
def fhBlock (h : Nat) : Nat := fld h 64 32
def fhFidx (h : Nat) : Nat := fld h 96 12

/-- The header obeys R336: reserved bits and the fields that its type fixes. -/
def fhOk (h : Nat) : Bool :=
  fld h 29 3 = 0 && fld h 50 14 = 0 && fld h 108 20 = 0 &&
  (match fhType h with
    | 0 => fhSeq h = 0 && fld h 32 18 = 0 && fld h 64 44 = 0
    | 1 => decide (8 ≤ fhLen h) && decide (fhLen h ≤ 616) && fhLen h % 8 = 0
    | 2 => fhChan h = 0 && decide (1 ≤ fhLen h) && decide (fhLen h ≤ 38) && fld h 48 2 = 0 && fld h 64 44 = 0
    | _ => false)

/-! ## Control words (R338) -/

def cwType (w : Nat) : Nat := fld w 0 8
def cwChan (w : Nat) : Nat := fld w 8 6

/-- The bits that a control word of a type uses beyond CTYPE and CHAN, as a mask. -/
def cwMask (ty : Nat) : Nat :=
  let bits (lo n : Nat) : Nat := (2 ^ n - 1) * 2 ^ lo
  match ty with
  | 0x01 => bits 32 64
  | 0x02 | 0x03 => bits 32 32
  | 0x04 | 0x07 => bits 32 40
  | 0x05 => bits 32 48
  | 0x06 => bits 32 16 + bits 64 32
  | 0x10 => bits 16 1 + bits 32 96
  | 0x11 | 0x12 => bits 32 16
  | 0x13 | 0x14 => bits 32 12 + bits 48 12
  | _ => 0

/-- The types of R338. -/
def cwKnown (ty : Nat) : Bool := [1, 2, 3, 4, 5, 6, 7, 0x10, 0x11, 0x12, 0x13, 0x14].contains ty

/-- A control word of a known type with clear reserved bits; the link-level types have CHAN 0. -/
def cwOk (w : Nat) : Bool :=
  cwKnown (cwType w) && Nat.land w (2 ^ 128 - 1 - cwMask (cwType w) - 0x3FFF) = 0 && decide (w < 2 ^ 128) &&
  (decide (cwType w < 0x10) || cwChan w = 0)

/-- A control word of a type and channel with its fields. -/
def cw (ty chan fields : Nat) : Nat := ty + 256 * (chan % 64) + fields

/-! ## Sending (R333, R335 to R337, R349) -/

/-- A frame leaves in the next codeword; each of the five lanes sends its marker before the codeword of index 0 (R332, R333). -/
def putFrame (s : State) (p : Nat) (bytes : List Byte) : State :=
  let t := tportOf s p
  let idx := t.txIdx.toNat
  let m := t.txMap.toNat
  let lanes := laneBits m t.prbs idx bytes
  let s := if idx = 0 then emit s (.markers p ((List.range 5).map fun q => laneMarker m q (t.bip.getD q 0))) else s
  let bip := if idx = 0 then [0, 0, 0, 0, 0] else t.bip
  let s := setTport s p { t with txIdx := t.txIdx + 1, prbs := (prbs31 1360 t.prbs).2,
                                 bip := (bip.zip lanes).map fun b => bipNext b.1 b.2 }
  emit s (.frame p idx bytes (lanes.map pam4))

/-- An IDLE frame with the port's ACK, and with NAK when `nak` (R336, R337). -/
def putIdle (s : State) (p : Nat) (nak : Bool) : State :=
  putFrame s p (frameBytes ((tportOf s p).expect.toNat * 2 ^ 16 + b2n nak * 2 ^ 28) [])

/-- A DATA or CONTROL frame leaves with the port's present ACK. -/
def putItem (s : State) (p : Nat) (f : TxFrame) : State :=
  putFrame s p (frameBytes (setFld f.hdr 16 12 (tportOf s p).expect.toNat) f.body)

/-- A frame waits behind those of its class and of the classes before it (R349). -/
def queueFrame (q : List TxFrame) (f : TxFrame) : List TxFrame :=
  (q.filter fun e => decide (e.cls ≤ f.cls)) ++ f :: q.filter fun e => decide (f.cls < e.cls)

/-- Sends one frame under the next SEQ, or keeps it when the replay buffer is full (R337). -/
def sendItem (s : State) (p : Nat) (f : TxFrame) : State :=
  let t := tportOf s p
  if 1024 ≤ t.replay.length then
    setTport s p { t with sendq := queueFrame t.sendq f, replayFull := some (t.replayFull.getD s.fclk) }
  else
    let q := t.nextSeq.toNat
    let f := { f with hdr := setFld f.hdr 4 12 q }
    putItem (setTport s p { t with nextSeq := t.nextSeq + 1, replay := t.replay ++ [(q, f)] }) p f

/-- A frame can leave or be read: the link is UP, or it negotiates. -/
def linkTalks (t : TPort) : Bool := t.link == .up || t.link == .negotiate || (t.link == .retrain && t.locked)

/-- The CONTROL frame of one control word. -/
def wordFrame (w : Nat) : TxFrame := { cls := 0, hdr := 2 + 1 * 2 ^ 38, body := leBytes 16 w }

/-- Sends a control word; a link that is not up loses it, and the windows state theirs anew when it returns (R360). -/
def sendWord (s : State) (p w : Nat) : State :=
  let t := tportOf s p
  if linkTalks t then
    if t.sendq.isEmpty then sendItem s p (wordFrame w) else setTport s p { t with sendq := queueFrame t.sendq (wordFrame w) }
  else s

/-- Sends what waits, as far as the replay buffer has room. -/
def pumpSend : Nat → State → Nat → State
  | 0, s, _ => s
  | n + 1, s, p =>
    let t := tportOf s p
    match t.sendq with
    | [] => s
    | e :: r =>
      if 1024 ≤ t.replay.length then s
      else pumpSend n (sendItem (setTport s p { t with sendq := r, replayFull := none }) p e) p

/-! ## Retraining (R337, R339) -/

/-- The link retrains; the eighth retrain within 1 s after protocol errors makes it INCOMPATIBLE. -/
def retrain (s : State) (p : Nat) (proto : Bool) : State :=
  let t := tportOf s p
  if t.link != .up && t.link != .retrain then s
  else
    let recent := if proto then (s.fclk :: t.protoAt).filter fun a => decide (s.fclk < a + ms 1000) else t.protoAt
    let bad := proto && decide (8 ≤ recent.length)
    let t := { t with protoAt := recent.take 8, protoErr := if proto then satAdd 16 t.protoErr 1 else t.protoErr,
                      retrains := satAdd 32 t.retrains 1, since := s.fclk, naks := 0, nakAt := none, ctlRest := [],
                      offered := none, confirmed := none, echoes := [], notUpSince := some (t.notUpSince.getD s.fclk),
                      replayFull := none, laneAsk := none, pendMap := none, txPend := none, locked := false }
    setTport s p (if bad then { t with link := .incompatible, cause := 3 } else { t with link := .retrain })

/-! ## Receiving (R337) -/

/-- Sends NAK with the expected SEQ. -/
def sendNak (s : State) (p : Nat) : State :=
  putIdle (modTport s p fun t => { t with nakAt := some s.fclk }) p true

/-- NAK, unless one for the same SEQ went out within the last round trip. -/
def softNak (s : State) (p : Nat) : State :=
  let t := tportOf s p
  match t.nakAt with
  | some a => if s.fclk < a + t.rtt * 9 / 5 then s else sendNak s p
  | none => sendNak s p

/-- The ACK and NAK of a frame: the replay buffer shrinks, a NAK sends again what is left, and eight NAKs without progress
retrain the link. -/
def takeAck (s : State) (p h : Nat) : State :=
  let t := tportOf s p
  let a := fhAck h
  let rest := t.replay.filter fun e => seqDiff 12 a e.1 = 0 || decide (2048 < seqDiff 12 a e.1)
  let moved := decide (rest.length < t.replay.length)
  let t := { t with replay := rest, naks := if moved then 0 else t.naks,
                    replayFull := if moved then none else t.replayFull }
  let s := setTport s p t
  let s := if !(fhNak h) then s
    else
      let s := rest.foldl (fun s e => putItem s p e.2) s
      let s := modTport s p fun t => { t with replayed := satAdd 32 t.replayed rest.length, naks := t.naks + 1 }
      if 8 ≤ (tportOf s p).naks then retrain s p false else s
  if linkTalks (tportOf s p) then pumpSend 1025 s p else s

/-- CWIDX follows the index of the codeword before; the first codeword after a training may have any. -/
def cwFollows (t : TPort) (c : Codeword) : Bool := t.rxIdx.all fun i => c.idx = (i + 1).toNat

/-- An accepted frame: the expected SEQ advances, its ACK and NAK act, and when nothing else waits the next frame is an IDLE one with
the new ACK. -/
def acceptFrame (s : State) (p h : Nat) : State :=
  let s := takeAck (modTport s p fun t => { t with expect := t.expect + 1, nakAt := none }) p h
  let t := tportOf s p
  if t.sendq.isEmpty && linkTalks t then putIdle s p false else s

/-- A codeword of a port is examined: the answer says that its frame is accepted (DATA, CONTROL). An IDLE frame is read. -/
def takeFrame (s : State) (p : Nat) (c : Codeword) : Bool × State :=
  let t := tportOf s p
  let h := frameHdr c.frame
  let next := if c.fec then some (BitVec.ofNat 12 c.idx) else t.rxIdx.map (· + 1)
  let t := { t with rxIdx := next, ctlRest := [] }
  if !c.fec || !(cwFollows (tportOf s p) c) then (false, sendNak (setTport s p { t with uncorr := satAdd 32 t.uncorr 1 }) p)
  else if !(crcGood c.frame) then (false, sendNak (setTport s p { t with crcErr := satAdd 32 t.crcErr 1 }) p)
  else
    let s := setTport s p { t with lastFrame := s.fclk }
    if fhType h = 0 then (false, if fhOk h then takeAck s p h else retrain s p true)
    else if fhSeq h != t.expect.toNat then (false, softNak s p)
    else if !(fhOk h) then (false, retrain s p true)
    else (true, acceptFrame s p h)

/-- A codeword whose frame the link can read is of an accepted type. -/
def cwTyped (c : Codeword) (ok : Nat → Bool) : Bool := !c.fec || !(crcGood c.frame) || ok (fhType (frameHdr c.frame))

/-- A control word arrives: as the first word of the codeword of a CONTROL frame, or as the next word of the frame accepted before it. The
answer says that it is acted on. -/
def takeWord (s : State) (p : Nat) (cw : Option Codeword) (w : Nat) : Bool × State :=
  if !(linkTalks (tportOf s p)) then (false, s)
  else
    let r : Bool × State := match cw with
      | some c =>
        let r := takeFrame s p c
        let h := frameHdr c.frame
        if r.1 && fhType h = 2 then
          (true, modTport r.2 p fun t => { t with ctlRest := (List.range (fhLen h - 1)).map fun i => frameWord c.frame (i + 1) })
        else (false, r.2)
      | none =>
        let t := tportOf s p
        match t.ctlRest with
        | v :: rest => if v = w then (true, setTport s p { t with ctlRest := rest }) else (false, s)
        | [] => (false, s)
    if !r.1 then r
    else if cwOk w then r
    else (false, retrain r.2 p true)

end Sys2Proof.Machine
end

