-- ==== Sys2Proof/Machine/Phase.lean ====
section
/-! DEFINITION. Phase sources, their lock and interpolation (R301 to R312), PTP (R390), the entries that a rise of H passes
(R316, R317), and the passing of device time. -/

namespace Sys2Proof.Machine

/-! ## Timetable entries (R314) -/

def teOffset (e : Nat) : Nat := fld e 0 64
def teAction (e : Nat) : Nat := fld e 92 4
def teAuto (e : Nat) : Bool := bitOf e 91
def teExport (e : Nat) : Nat := fld e 84 4
def teCount (e : Nat) : Nat := fld e 64 16
def teDl (e : Nat) : Nat := fld e 96 32
def entryOf (s : State) (i : Nat) : Nat := sget 0 s.entries i

/-- Objects of timetable `t` (R330). -/
def ttObj (t sub : Nat) : Nat := 0x252000 + 0x100 * t + sub
def ttSource (s : State) (t : Nat) : Nat := dget s (ttObj t 2)
def ttCycleLen (s : State) (t : Nat) : Nat := dget s (ttObj t 5)
def ttOrigin (s : State) (t : Nat) : Nat := dget s (ttObj t 6)
def ttCtx (s : State) (t : Nat) : Nat := dget s (ttObj t 7)
def ttResponse (s : State) (t : Nat) : Nat := dget s (ttObj t 8)

/-- The 32-bit detail of a class-5 event (R324). -/
def timingDetail (t : Nat) (unlocked : Bool) (kind entry cycle : Nat) : Nat :=
  t * 2 ^ 29 + b2n unlocked * 2 ^ 28 + kind * 2 ^ 26 + (entry % 4096) * 2 ^ 12 + cycle % 4096

/-- Posts a TIMING event to the context bound to a timetable (R322, R381). -/
def timingEvent (s : State) (t : Nat) (word : W16) (detail : Nat) : State :=
  let c := ttCtx s t
  if c < 64 && (ctxOf s c).st != .free then ctxEvent s c 4 word 0 detail else s

def srcLocked (s : State) (i : Nat) : Bool := (srcOf s i).st == .locked

/-- The values of all objects, which a CHECK compares with (R315). -/
def objValues (s : State) : Sparse Nat := s.objs.foldl (fun m o => sset 0 m o.1 o.2.value) []

/-- Records what the CHECK entries of a cycle compare with (R315). -/
def setBase (s : State) (t cyc : Nat) : State :=
  modTt s t fun x => { x with base := (cyc, objValues s) :: (x.base.filter fun b => b.1 != cyc).take 1 }

/-- Cycle starts at the front of the due entries take effect, once every entry before them has acted (R315, R316). -/
def settleDue : Nat → State → State
  | 0, s => s
  | n + 1, s =>
    match s.due with
    | d :: rest => if d.start then settleDue n (setBase { s with due := rest } d.tt d.cycle) else s
    | [] => s

/-- The due entries `lo` to `hi - 1` of a cycle whose phase H has reached, NOP entries left out (R314, R316). -/
def dueOf (s : State) (t cyc lo h : Nat) : List Due :=
  let x := ttOf s t
  let start := ttOrigin s t + cyc * ttCycleLen s t
  ((List.range x.count).filter fun i => decide (lo ≤ i)).filterMap fun i =>
    let e := entryOf s (x.first + i)
    if start + teOffset e ≤ h && teAction e != 0 then
      some { tt := t, entry := x.first + i, cycle := cyc, phase := start + teOffset e, start := false }
    else none

/-- The number of leading entries of a cycle whose phase H has reached. -/
def passedIn (s : State) (t cyc h : Nat) : Nat :=
  let x := ttOf s t
  let start := ttOrigin s t + cyc * ttCycleLen s t
  ((List.range x.count).filter fun i => decide (start + teOffset (entryOf s (x.first + i)) ≤ h)).length

/-- Order of R316: phase, timetable, entry; a cycle's start stands before its entries. -/
def dueBefore (a b : Due) : Bool :=
  decide (a.phase < b.phase) ||
  (a.phase = b.phase && (decide (a.tt < b.tt) || (a.tt = b.tt && !b.start && (a.start || decide (a.entry < b.entry)))))

/-- Inserts in the order of R316. -/
def dueInsert (a : Due) : List Due → List Due
  | [] => [a]
  | b :: l => if dueBefore b a then b :: dueInsert a l else a :: b :: l

/-- A rise of H on one timetable: the entries it passes become due, and cycles start or are skipped (R316, R317). While it
quiesces, only the CHECK entries of its last cycle act (R322, R329). -/
def ttRise (s : State) (t h : Nat) : List Due × State :=
  let x := ttOf s t
  let cl := ttCycleLen s t
  let org := ttOrigin s t
  if x.state = 3 then
    match x.cycle with
    | some c => ((dueOf s t c x.next h).filter fun d => teAction (entryOf s d.entry) = 3,
                 modTt s t fun x => { x with next := passedIn s t c h })
    | none => ([], s)
  else if x.state != 1 || cl = 0 || h < org || (h - org) / cl < x.firstCycle then ([], s)
  else
    let now := (h - org) / cl
    let passed := match x.cycle with
      | some c => now - c
      | none => now - x.firstCycle + 1
    if passed = 0 then
      (dueOf s t now x.next h, modTt s t fun x => { x with next := passedIn s t now h })
    else
      let old := match x.cycle with
        | some c => if passed = 1 then dueOf s t c x.next (org + now * cl) else []
        | none => []
      let s := modTt s t fun x =>
        { x with cycle := some now, next := 0, first := dget s (ttObj t 3), count := dget s (ttObj t 4),
                 cycles := min (x.cycles + 1) (2 ^ 64 - 1), skipped := satAdd 16 x.skipped (passed - 1) }
      let s := if 2 ≤ passed then
          timingEvent s t 0x5004 (timingDetail t (!srcLocked s (ttSource s t)) 0 (ttOf s t).first now)
        else s
      let mark : Due := { tt := t, entry := 0, cycle := now, phase := org + now * cl, start := true }
      (old ++ mark :: dueOf s t now 0 h, modTt s t fun x => { x with next := passedIn s t now h })

/-- Sets the counter of a source, raises H and collects the entries passed (R302, R316). -/
def setPhase (s : State) (i p : Nat) : State :=
  let x := srcOf s i
  let p := p % 2 ^ 64
  let s := setSrc s i { x with phase := p, high := max x.high p }
  if p ≤ x.high then s
  else
    let r := (List.range 8).foldl (fun (r : List Due × State) t =>
      if ttSource r.2 t = i then let q := ttRise r.2 t p
                                 (r.1 ++ q.1, q.2)
      else r) ([], s)
    settleDue 8 { r.2 with due := r.2.due ++ r.1.foldl (fun l d => dueInsert d l) [] }

/-! ## Lock (R307) -/

/-- An interval lies within the tolerance of the mean of four intervals whose sum is `sum`. -/
def within (tol d sum : Nat) : Bool :=
  decide ((max (4 * d) sum - min (4 * d) sum) * 100 ≤ tol * sum)

/-- Intervals between consecutive stamps, newest first. -/
def intervals : List Nat → List Nat
  | a :: b :: l => (a - b) :: intervals (b :: l)
  | _ => []

/-- A source that is not LOCKED has fraction 0 (R306). -/
def noFraction (x : Source) : Source := { x with phase := x.phase / 65536 * 65536 }

/-- Lock is lost: ACQUIRING with the interval history cleared (R307), and the fraction 0 (R306). -/
def dropLock (x : Source) (stamps : List Nat) : Source :=
  if x.st == .locked then noFraction { x with st := .acquiring, stamps := stamps, losses := satAdd 8 x.losses 1 } else x

/-- The lock state after a counted forward event at FCLK `t` (R307). -/
def lockEvent (tol t : Nat) (x : Source) : Source :=
  let x := { x with lastEvent := t }
  let st := (t :: x.stamps).take 5
  match x.st with
  | .off => x
  | .lost => { x with st := .acquiring, stamps := [t] }
  | .acquiring =>
    let iv := intervals st
    if iv.length = 4 && iv.all (fun d => within tol d (sumOf iv)) then { x with st := .locked, stamps := st }
    else { x with stamps := st }
  | .locked =>
    if within tol (t - x.stamps.headD t) (sumOf (intervals x.stamps)) then { x with stamps := st } else dropLock x [t]

/-- A forward event that takes the integer part to `n` (R303, R309, R310). -/
def forward (s : State) (i n : Nat) : State :=
  let s := setSrc s i (lockEvent (dget s 0x250005) s.fclk (srcOf s i))
  setPhase s i (n * 65536)

/-- A backward count (R303, R307). -/
def backward (s : State) (i : Nat) : State :=
  let x := srcOf s i
  let y := match x.st with
    | .lost => { x with st := .acquiring }
    | .locked => dropLock x []
    | _ => x
  let s := setSrc s i { y with stamps := if x.st == .off then x.stamps else [s.fclk], lastEvent := s.fclk }
  setPhase s i ((x.phase / 65536 - 1) * 65536)

/-- A step token's step number at a stream step source (R310). -/
def stepSource (s : State) (i step : Nat) : State :=
  let x := srcOf s i
  if x.phase / 65536 < step then forward s i step
  else setSrc s i { x with stale := satAdd 8 x.stale 1 }

/-- Whether a source is configured (R307, R311). -/
def srcConfigured (s : State) (i : Nat) : Bool :=
  match i with
  | 0 => dget s 0x250001 != 0
  | 1 => dget s 0x250101 != 0xFF
  | 2 => dget s 0x250104 = 1
  | 3 => false
  | _ => dget s (0x250101 + i) != 0xFFFF

/-- A source follows its configuration: OFF when unconfigured, ACQUIRING when newly configured (R307). -/
def configureSrc (s : State) (i : Nat) : State :=
  let x := srcOf s i
  if srcConfigured s i then
    if x.st == .off then setSrc s i { x with st := .acquiring, stamps := [] } else s
  else setSrc s i { (if i = 1 then x else noFraction x) with st := .off, stamps := [] }

/-! ## Interpolation and PTP -/

/-- The time of a port's PTP clock now: from its last Sync it runs on from its own oscillator with the last frequency correction, which
stands in parts per billion (R390). -/
def ptpNow (s : State) (n : Nat) : Nat :=
  let p := ptpOf s n
  let d := nsOf (s.fclk - p.at_)
  p.time + ((d : Int) + (d : Int) * p.corr / 10 ^ 9).toNat

/-- The frequency correction that the servo takes at a Sync: within ±20 ppm, and otherwise free, for the spec gives no law of the servo
(R390; DESIGN CHOICE, log entry 89). -/
def servoCorr (free : Nat) : Int := ((Config.freeDetail free).toNat % 40001 : Nat) - 20000

/-- Source 1 follows the clock and the servo of its port (R308). -/
def ptpPhase (s : State) : State :=
  let n := dget s 0x250101
  if n = 0xFF then s
  else
    let x := srcOf s 1
    let s := if x.st == .lost then s else
      setSrc s 1 { x with st := if (ptpOf s n).locked then .locked else .acquiring,
                          losses := if x.st == .locked && !(ptpOf s n).locked then satAdd 8 x.losses 1 else x.losses }
    let t := ptpNow s n
    let epoch := dget s 0x250103
    setPhase s 1 (if t < epoch then 0 else (t - epoch) * 65536 / dget s 0x250102)

/-- The fraction of a LOCKED source at this FCLK (R306). -/
def interpolate (s : State) (i : Nat) : State :=
  let x := srcOf s i
  match x.st, x.stamps with
  | .locked, [a, _, _, _, b] =>
    if b < a then
      setPhase s i (x.phase / 65536 * 65536 + min 0xFFFF ((s.fclk - a) * 262144 / (a - b)))
    else s
  | _, _ => s

/-- One emergency message leaves over EtherCAT while a port has a link (R399). -/
def sendEmergency (s : State) : State :=
  match s.health.emerg with
  | (word, reg, wing) :: rest =>
    if s.ecatLink = 0 || s.boot.alState == .init then s
    else emit { s with health := { s.health with emerg := rest } }
      (.emergency (leBytes 2 0xFF00 ++ leBytes 1 reg ++ leBytes 2 word.toNat ++ leBytes 1 wing ++ leBytes 2 0))
  | [] => s

/-- One FCLK of device time: interpolation, PTP, and the oldest emergency (R304, R306). -/
def tick (s : State) : State :=
  let s := { s with fclk := s.fclk + 1 }
  sendEmergency (ptpPhase ([0, 2, 4, 5, 6, 7].foldl interpolate s))

/-! ## Prediction of releases (R326) -/

/-- The next RELEASE entry of an enabled timetable with its cycle: one of the present cycle, else the first one of the next cycle, for
which a range that has been written takes effect (R318). -/
def nextEntry (s : State) (t : Nat) : Option (Nat × Nat) :=
  let x := ttOf s t
  if x.state != 1 then none
  else
    let rel (cyc first count lo : Nat) : Option (Nat × Nat) :=
      (((List.range count).filter fun i => decide (lo ≤ i)).find? fun i => teAction (entryOf s (first + i)) = 1).map fun i =>
        (entryOf s (first + i), cyc)
    let coming (cyc : Nat) := rel cyc (dget s (ttObj t 3)) (dget s (ttObj t 4)) 0
    match x.cycle with
    | none => coming x.firstCycle
    | some c => (rel c x.first x.count x.next).or (coming (c + 1))

/-- The phase of the next RELEASE of an enabled timetable, if its range has one. -/
def nextRelease (s : State) (t : Nat) : Option Nat :=
  (nextEntry s t).map fun e => ttOrigin s t + e.2 * ttCycleLen s t + teOffset e.1

/-- FCLK until the next predicted RELEASE: 0 while the source is not LOCKED, none when no release is to come. -/
def predict (s : State) (t : Nat) : Option Nat :=
  let i := ttSource s t
  let x := srcOf s i
  if x.st != .locked then some 0
  else match nextRelease s t with
  | none => none
  | some p =>
    if i = 1 then some ((p - x.high) * dget s 0x250102 / 65536 * 9 / 5)
    else
      let iv := intervals x.stamps
      some ((p - x.high) * iv.foldl min (iv.headD 0) / 65536)

/-! ## Commands -/

/-- BELL_EDGE: the filtered levels of BELL_A and BELL_B (R303). -/
def execBellEdge (a b : Bool) (s : State) : Host.Outcome State Fault Refusal :=
  act s fun s =>
    let pa := s.bell.getLsbD 0
    let pb := s.bell.getLsbD 1
    let s := { s with bell := BitVec.ofNat 2 (b2n a + 2 * b2n b) }
    let x := srcOf s 0
    let n := x.phase / 65536
    match dget s 0x250001 with
    | 1 => if a && !pa then forward s 0 (n + 1) else s
    | 2 => if a && !pa then (if b then forward s 0 (n + 1) else backward s 0) else s
    | 3 =>
      if a != pa && b != pb then
        setSrc s 0 (dropLock { x with illegal := satAdd 8 x.illegal 1 } [])
      else if a != pa then (if a != b then forward s 0 (n + 1) else backward s 0)
      else if b != pb then (if a == b then forward s 0 (n + 1) else backward s 0)
      else s
    | _ => s

/-- BELL_INDEX_EDGE: an edge of BELL_Z (R305). -/
def execBellIndexEdge (forward : Bool) (s : State) : Host.Outcome State Fault Refusal :=
  act s fun s =>
    let x := srcOf s 0
    let n := dget s 0x250004
    let i := x.phase / 65536
    if !forward then s
    else match dget s 0x250003 with
    | 2 => setSrc s 0 { x with zSeen := true }
    | 1 =>
      if n = 0 then s
      else
        let m := (2 * i + n) / (2 * n) * n
        let d := max i m - min i m
        if d = 0 then setSrc s 0 { x with zSeen := true }
        else if d ≤ 4 then
          let x := { x with zSeen := true }
          setPhase (setSrc s 0 (if d = 1 then x else dropLock x [])) 0 (m * 65536)
        else setSrc s 0 (dropLock { x with zFaults := satAdd 2 x.zFaults 1 } [])
    | _ => s

/-- INTERVAL_TIMEOUT: a LOCKED source has had no event within 2 × T̂ (R307). -/
def execIntervalTimeout (source : Nat) (s : State) : Host.Outcome State Fault Refusal :=
  actIf (source < 8) s fun s =>
    if source = 1 || source = 3 then s else setSrc s source (dropLock (srcOf s source) [])

/-- SOURCE_LOSS_TIMEOUT: no event for the loss timeout; PHASE_LOST goes to every context bound to a timetable on the source
(R307, R308). -/
def execSourceLossTimeout (source : Nat) (s : State) : Host.Outcome State Fault Refusal :=
  actIf (source < 8) s fun s =>
    let x := srcOf s source
    if x.st == .acquiring || x.st == .locked then
      let s' := setSrc s source { (if source = 1 then x else noFraction x) with st := .lost, stamps := [] }
      (List.range 8).foldl (fun s t =>
        if ttSource s t = source then
          let r := freshDetail s
          timingEvent r.2 t 0x5003 (timingDetail t (x.st != .locked) 0 r.1 ((ttOf s t).cycle.getD 0))
        else s) s'
    else s

/-- PTP_SYNC: a Sync message at a host port with the measured offset (R390). -/
def execPtpSync (port time : Nat) (offset : Int) (s : State) : Host.Outcome State Fault Refusal :=
  actIf (port < 4) s fun s =>
    if !s.hlink.getLsbD port then s
    else
      let p := ptpOf s port
      let a := offset.natAbs
      let good := if a ≤ 100 then min 16 (p.good + 1) else 0
      let p := { p with offset := offset, time := time, at_ := s.fclk, good := good, corr := servoCorr s.free,
                        locked := if 1000 < a then false else p.locked || good = 16 }
      let s := setPtp { s with free := s.free + 1 } port p
      if dget s 0x250101 = port then
        let x := srcOf s 1
        ptpPhase (if x.st == .lost then setSrc s 1 { x with st := .acquiring } else s)
      else s

/-- PTP_SYNC_LOSS: no Sync for 4 Sync intervals (R390). -/
def execPtpSyncLoss (port : Nat) (s : State) : Host.Outcome State Fault Refusal :=
  actIf (port < 4) s fun s =>
    let s := setPtp s port { ptpOf s port with locked := false, good := 0 }
    if dget s 0x250101 = port then ptpPhase s else s

end Sys2Proof.Machine
end

