-- ==== Sys2Proof/Machine/Windows.lean ====
section
/-! DEFINITION. Stream windows: descriptors and checks (R342, R343), opening and closing (R345, R358, R359), blocks and credit
(R346 to R348), rings and HBM4E buffers (R350 to R354), Recess (R357), loss (R360) and twins (R361). -/

namespace Sys2Proof.Machine

/-! ## Window descriptors (R342) -/

def wdKind (d : Nat) : Nat := fld d 30 2
def wdEgress (d : Nat) : Bool := bitOf d 29
def wdEvtEn (d : Nat) : Bool := bitOf d 28
def wdShift (d : Nat) : Nat := fld d 24 4
def wdCtx (d : Nat) : Nat := fld d 0 6
def wdQueue (d : Nat) : Nat := fld d 48 16
def wdBlock64 (d : Nat) : Nat := fld d 32 15
def wdTurn (d : Nat) : Nat := fld d 88 8
def wdWing (d : Nat) : Nat := fld d 86 2
def wdRow (d : Nat) : Nat := fld d 82 4
def wdCol (d : Nat) : Nat := fld d 77 5
def wdRing (d : Nat) : Nat := fld d 72 5
def wdMuQueue (d : Nat) : Nat := fld d 69 3
def wdCtr (d : Nat) : Nat := fld d 96 6
def wdAddr (d : Nat) : Nat := fld d 64 64
def wdNbuf (d : Nat) : Nat := fld d 144 16
def wdProd (d : Nat) : Nat := fld d 160 12
def wdCons (d : Nat) : Nat := fld d 192 12
/-- Bytes of a block. -/
def wdBytes (d : Nat) : Nat := 64 * wdBlock64 d

/-- Reserved bits and the fields that a kind fixes (R342). -/
def wdReservedOk (d : Nat) : Bool :=
  fld d 6 18 = 0 && fld d 47 1 = 0 && fld d 128 16 = 0 && fld d 172 20 = 0 && fld d 204 52 = 0 &&
  (match wdKind d with
    | 0 => !(wdEgress d) && wdBlock64 d = 0 && fld d 64 64 = 0 && wdNbuf d = 0 && wdProd d = 0 && wdCons d = 0
    | 1 => fld d 64 5 = 0 && fld d 102 26 = 0 && wdNbuf d = 0 && wdProd d = 0 && wdCons d = 0
    | 2 => fld d 64 12 = 0
    | _ => false)

/-! ## Where a RING window acts -/

/-- The site of the window's ring after relocation, in the wing of the primary or of the promoted twin (R342, R361). -/
def ringSite (x : Ctx) (d : Nat) : Nat :=
  match x.syl with
  | none => 0
  | some y =>
    let col := ((wdCol d : Int) + 2 * sigmaOf y (wdTurn d) (wdWing d)).toNat
    siteKey (if x.promoted then partner (wdWing d) else wdWing d) (wdRow d) col

/-- The ring's sites: the primary's, and the shadow's in twin mode (R361). -/
def ringSites (s : State) (x : Ctx) (d : Nat) : List Nat :=
  let k := ringSite x d
  if twinned s x then [k, siteKey (partner (siteWing k)) (siteRow k) (siteCol k)] else [k]

/-- A RING window acts: its turn runs (R352). -/
def ringActive (s : State) (d : Nat) : Bool :=
  let x := ctxOf s (wdCtx d)
  wdKind d = 1 && executes x && !x.termWait &&
  (match x.run with
    | some r => r.turn = wdTurn d && !r.zero && !r.staged && !r.held
    | none => false) && (x.recess.all fun r => !r.saving)

/-- Slots of the window's ring. -/
def ringSlots (s : State) (k d : Nat) : Nat := (ringShape (muOf s k).stores (wdRing d)).1
/-- Base of a slot and slot bytes. -/
def ringSlotAt (s : State) (k d slot : Nat) : Nat :=
  let q := ringShape (muOf s k).stores (wdRing d)
  q.2.1 + slot * q.2.2

/-- Occupied slots of the ring: the fuller of the two twins' (R361). -/
def ringOcc (s : State) (d : Nat) : Nat :=
  ((ringSites s (ctxOf s (wdCtx d)) d).map fun k => (ringOf (muOf s k) (wdRing d)).occ).foldl max 0

/-! ## Events of a window (R355, R381, R383) -/

/-- The queue that a window's events go to: 65536, no queue, where it is not its host's (R380, R381). -/
def chanQueue (s : State) (d : Nat) : Nat :=
  let x := ctxOf s (wdCtx d)
  let q := if wdEvtEn d then wdQueue d else x.evq
  if ownQueue s q x.host then q else 65536

/-- A STREAM event. -/
def streamEvent (s : State) (c : Nat) (fault : W16) : State :=
  let w := chanOf s c
  let n := if wdEgress w.wd then w.acked.toNat else w.cursor.toNat
  post s (chanQueue s w.wd)
    { kind := 5, status := 0, fault := fault, cookie := 0, ctx := wdCtx w.wd, flags := 0,
      detail := c + winCode w.st * 2 ^ 16 + n * 2 ^ 32 }

/-- A window changes its state; with EVT_EN an event says so. -/
def chanTo (s : State) (c : Nat) (st : WinSt) : State :=
  let s := modChan s c fun w => { w with st := st }
  if wdEvtEn (chanOf s c).wd then streamEvent s c 0 else s

/-- Blocks landed or acknowledged: one event for every 2^EVT_SHIFT. -/
def countBlock (s : State) (c : Nat) : State :=
  let w := chanOf s c
  let n := w.events + 1
  let s := setChan s c { w with events := n }
  if wdEvtEn w.wd && n % 2 ^ wdShift w.wd = 0 then streamEvent s c 0 else s

/-! ## Credit (R347, R350, R353) -/

/-- The first block that an ingress window has not received whole. -/
def expectedBlock (w : Chan) : W32 := w.cursor + BitVec.ofNat 32 (w.landing.length + w.held.length)

/-- `a` is behind `b` in serial arithmetic (R338). -/
def behind (a b : W32) : Bool := decide (2 ^ 31 < (a - b).toNat)

/-- FREED: blocks that have landed and left the ring (R350). -/
def freedOf (s : State) (w : Chan) : W32 := w.cursor - BitVec.ofNat 32 (ringOcc s w.wd)

/-- ACKED and LIMIT of an ingress window as they stand. -/
def creditOf (s : State) (w : Chan) : W32 × W32 :=
  match wdKind w.wd with
  | 1 =>
    if ringActive s w.wd then
      let f := freedOf s w
      (f, f + BitVec.ofNat 32 (ringSlots s (ringSite (ctxOf s (wdCtx w.wd)) w.wd) w.wd))
    else (w.acked, w.limit)
  | 2 => (w.cursor, BitVec.ofNat 32 ((objOf s (wdCons w.wd)).value - w.c0 + wdNbuf w.wd))
  | _ => (0, 0)

/-- CREDIT with the current values of an open ingress window goes out, and its 256 ns begin (R338). -/
def putCredit (s : State) (c : Nat) : State :=
  let w := chanOf s c
  if w.st != .opened || wdEgress w.wd || wdKind w.wd = 0 then s
  else
    let q := creditOf s w
    let s := setChan s c { w with acked := q.1, limit := q.2, creditAt := some s.fclk }
    sendWord s (c / 64) (cw 0x01 c (q.1.toNat * 2 ^ 32 + q.2.toNat * 2 ^ 64))

/-- Sends CREDIT with the current values, unless one has gone out within 256 ns: then CREDIT_COALESCE sends what holds at its end (R338). -/
def sendCredit (s : State) (c : Nat) : State :=
  if (chanOf s c).creditAt.any (fun a => decide (5 * (s.fclk - a) < 9 * 256)) then s else putCredit s c

/-! ## Opening (R345) -/

/-- The OPEN word of a window. -/
def openWord (c d : Nat) : Nat := cw 0x06 c (b2n (wdEgress d) * 2 ^ 32 + wdBlock64 d * 2 ^ 33)

/-- The partner's window is of the opposite direction and of the same block size. A TOKEN window receives. -/
def opensMatch (d sends block64 : Nat) : Bool := block64 = wdBlock64 d && sends = b2n (!(wdEgress d))

/-- The window is OPEN. -/
def windowOpened (s : State) (c : Nat) : State :=
  let w := chanOf s c
  let s := chanTo (setChan s c { w with cmd := none, since := s.fclk }) c .opened
  let s := match w.cmd with
    | some d => complete s d (wdCtx w.wd) 0 0
    | none => s
  sendCredit s c

/-- The window does not open: PARTNER (R343). -/
def windowRefused (s : State) (c : Nat) : State :=
  let w := chanOf s c
  let s := chanTo (setChan s c { w with cmd := none }) c .closed
  let s := setChan s c Chan.closed
  match w.cmd with
  | some d => complete s d (wdCtx w.wd) 0x0A 0x09
  | none => s

/-- An accepted WD: the window is OPENING. On a link that is UP, an OPEN that is held for it opens it at once, and one whose parameters
differ is answered with CLOSE, REASON 0x02 (R345). -/
def windowOpen (s : State) (c d : Nat) (cmd : CmdRef) : State :=
  let held := (chanOf s c).heldOpen
  let s := setChan s c { Chan.closed with st := .opening, wd := d, cmd := some cmd, since := s.fclk,
                                          p0 := (objOf s (wdProd d)).value, c0 := (objOf s (wdCons d)).value }
  let s := if wdEvtEn d then streamEvent s c 0 else s
  let s := sendWord s (c / 64) (openWord c d)
  if (tportOf s (c / 64)).link != .up then s
  else match held with
  | some (v, _) => if opensMatch d (v % 2) (v / 2) then windowOpened s c else sendWord s (c / 64) (cw 0x07 c (2 * 2 ^ 64))
  | none => s

/-! ## Closing (R358, R359) -/

/-- The block after the last one that an egress window has sent. -/
def nextBlock (w : Chan) : W32 := if behind w.cursor w.sent then w.sent else w.cursor

/-- The close has completed: the window is CLOSED and its context hears of it. -/
def closeDone (s : State) (c : Nat) (forced : Bool) : State :=
  let w := chanOf s c
  let fin := (w.fin.getD (if wdEgress w.wd then nextBlock w else expectedBlock w)).toNat
  let s := chanTo s c .closed
  let s := post s (chanQueue s w.wd)
    { kind := 7, status := 0, fault := 0x7001, cookie := 0, ctx := wdCtx w.wd, flags := 2 * b2n forced,
      detail := c + fin * 2 ^ 32 }
  let s := setChan s c Chan.closed
  match w.closeCmd with
  | some d => complete s d (wdCtx w.wd) 0 0
  | none => s

/-- The close completes once accepted blocks have landed, sent ones are acknowledged, and the partner has answered CLOSE. -/
def tryClose (s : State) (c : Nat) : State :=
  let w := chanOf s c
  if w.st != .closing then s
  else
    let s := if wdEgress w.wd && w.fin.isNone && w.acked = nextBlock w then
        sendWord (setChan s c { w with fin := some (nextBlock w) }) (c / 64) (cw 0x07 c ((nextBlock w).toNat * 2 ^ 32))
      else s
    let w := chanOf s c
    let clear := if wdEgress w.wd then w.acked = nextBlock w else w.landing.isEmpty && w.held.isEmpty && w.partBlock.isNone
    if w.fin.isSome && w.partnerClosed && clear then closeDone s c w.forced else s

/-- A window starts to close. `partner` is the FINAL of a close that the partner started. A RING window whose run is over has nowhere to
land a block, and those it holds are counted as discarded; in a RECESS they land at the resume (R357 to R359). A window that is still
OPENING is CLOSED at once (DESIGN CHOICE, log entry 87: it waits for no answer). -/
def startClose (s : State) (c : Nat) (cmd : Option CmdRef) (partner : Option W32) : State :=
  let w := chanOf s c
  let w := { w with closeCmd := if cmd.isSome then cmd else w.closeCmd, since := s.fclk }
  match w.st with
  | .closed => s
  | .lost => closeDone (setChan s c w) c false
  | .opening =>
    let s := match w.cmd with
      | some d => complete s d (wdCtx w.wd) 0x0A 0x09
      | none => s
    closeDone (sendWord (setChan s c { w with cmd := none }) (c / 64) (cw 0x07 c 0)) c false
  | .closing => setChan s c w
  | .opened =>
    let idle := wdKind w.wd = 1 && !(ringActive s w.wd) && (ctxOf s (wdCtx w.wd)).st != .recess
    if wdEgress w.wd then
      let cur := match partner with
        | some f => if behind f w.cursor then f else w.cursor
        | none => w.cursor
      let w := { w with cursor := cur, sent := if partner.isSome && behind cur (nextBlock w) then cur else w.sent,
                        acked := if behind cur w.acked then cur else w.acked, partnerClosed := partner.isSome }
      tryClose (chanTo (setChan s c w) c .closing) c
    else
      let fin := match partner with
        | some f => f
        | none => expectedBlock w + BitVec.ofNat 32 (b2n w.partBlock.isSome)
      let n := w.landing.length + w.held.length + b2n w.partBlock.isSome
      let w := if idle then { w with landing := [], held := [], part := [], partBlock := none, discarded := satAdd 32 w.discarded n }
        else w
      let s := chanTo (setChan s c { w with fin := some fin, partnerClosed := partner.isSome }) c .closing
      tryClose (sendWord s (c / 64) (cw 0x07 c (fin.toNat * 2 ^ 32))) c

/-- The windows of a context that are not CLOSED. -/
def windowsOf (s : State) (ctx : Nat) : List Nat :=
  (s.chans.filter fun e => e.2.st != .closed && wdCtx e.2.wd = ctx).map (·.1)

/-- The RING windows of a context. -/
def ringWindows (s : State) (ctx : Nat) : List Nat := (windowsOf s ctx).filter fun c => wdKind (chanOf s c).wd = 1

/-! ## Turns and Recess (R352, R357) -/

/-- The turn of a context starts: its ring is empty, and an ingress window grants the whole of it. -/
def ringTurnStart (s : State) (ctx : Nat) : State :=
  (ringWindows s ctx).foldl (fun s c =>
    let w := chanOf s c
    if !(ringActive s w.wd) then s
    else sendCredit (setChan s c { w with freed := w.cursor, shadowCrc := none, egressAt := none }) c) s

/-- The turn of a ring's window is that of the run. -/
def ofTurn (s : State) (ctx c : Nat) : Bool := wdTurn (chanOf s c).wd = ((ctxOf s ctx).run.map Run.turn).getD 256

/-- The turn ends: an ingress window revokes what has not left the ring, and while gate 0x2060:04 is quiescing its windows
close (R413). -/
def ringTurnEnd (s : State) (ctx : Nat) : State :=
  let s := (ringWindows s ctx).foldl (fun s c =>
    let w := chanOf s c
    if !(ofTurn s ctx c) then s
    else if wdEgress w.wd then
      setChan s c { w with cursor := w.acked, freed := w.acked, sent := w.acked, shadowCrc := none, egressAt := none }
    else if w.st != .opened then
      setChan s c { w with landing := [], held := [], part := [], partBlock := none }
    else
      let f := freedOf s w
      let s := setChan s c { w with cursor := f, acked := f, limit := f, revoked := true, landing := [], held := [],
                                    part := [], partBlock := none }
      sendWord s (c / 64) (cw 0x02 c (f.toNat * 2 ^ 32))) s
  if (sget (0, 0) s.gates 4).1 != 1 then s
  else (ringWindows s ctx).foldl (fun s c =>
    if ofTurn s ctx c && ((chanOf s c).st == .opened || (chanOf s c).st == .opening) then startClose s c none none else s) s

/-- The context is saved: blocks that have not landed stay in its save area (R292, R357). -/
def ringRecess (s : State) (ctx : Nat) : State :=
  (ringWindows s ctx).foldl (fun s c =>
    modChan s c fun w => { w with held := w.held ++ w.landing, landing := [] }) s

/-- Puts a block into slot HEAD of a ring, and CTR rises by 1 (R219, R350). -/
def ringPut (s : State) (k d : Nat) (num : W32) (data : List Byte) : State :=
  let u := muOf s k
  let r := ringOf u (wdRing d)
  let slot := r.head
  let n := ringSlots s k d
  let u := { u with spad := mwrite u.spad (ringSlotAt s k d slot) data }
  let u := if usesTags u then
      { u with tags := sset SlotTag.none u.tags (16 * wdRing d + slot)
                 { st := .full, tag := (Config.streamTag num.toNat).toNat, open_ := 0, lastDue := false } }
    else u
  let r := { r with head := (r.head + 1) % n, occ := r.occ + 1, full := r.full ||| BitVec.ofNat 16 (2 ^ slot) }
  raiseCtr (setMu s k { u with rings := sset Ring.empty u.rings (wdRing d) r }) k (wdCtr d) 1 srcObject

/-- The ring has a free slot in every twin. -/
def ringRoom (s : State) (d : Nat) : Bool :=
  decide (ringOcc s d < ringSlots s (ringSite (ctxOf s (wdCtx d)) d) d)

/-- Lands one block in every ring of the window. -/
def landRing (s : State) (c : Nat) (data : List Byte) : State :=
  let w := chanOf s c
  let s := (ringSites s (ctxOf s (wdCtx w.wd)) w.wd).foldl (fun s k => ringPut s k w.wd w.cursor data) s
  let s := modChan s c fun w => { w with cursor := w.cursor + 1 }
  countBlock s c

/-- Releases slot TAIL of the rings of an egress window, and CTR rises by 1 (R351). -/
def ringRelease (s : State) (d : Nat) : State :=
  (ringSites s (ctxOf s (wdCtx d)) d).foldl (fun s k =>
    let u := muOf s k
    let r := ringOf u (wdRing d)
    let n := ringSlots s k d
    let slot := r.tail
    let r := { r with tail := (r.tail + 1) % n, occ := r.occ - 1, full := r.full &&& ~~~(BitVec.ofNat 16 (2 ^ slot)) }
    let u := { u with rings := sset Ring.empty u.rings (wdRing d) r,
                      tags := sset SlotTag.none u.tags (16 * wdRing d + slot) SlotTag.none }
    raiseCtr (setMu s k u) k (wdCtr d) 1 srcObject) s

/-- An egress ring gives back the slots that ACKED has passed (R351). -/
def releaseAcked (s : State) (c : Nat) : State :=
  let w := chanOf s c
  if !(ringActive s w.wd) then s
  else
    let n := (w.acked - w.freed).toNat
    let s := (List.range (min n 16)).foldl (fun s _ => ringRelease s w.wd) s
    modChan s c fun w => { w with freed := w.acked }

/-- A resume: held blocks land before any unit tests its waits, and a window marked rewind asks or offers again (R357). -/
def ringResume (s : State) (ctx : Nat) : State :=
  let s := (ringWindows s ctx).foldl (fun s c =>
    let w := chanOf s c
    let port := c / 64
    if !(ringActive s w.wd) then s
    else if wdEgress w.wd then
      let s := releaseAcked s c
      let w := chanOf s c
      if w.rewind then
        sendWord (setChan s c { w with rewind := false, cursor := w.acked }) port (cw 0x03 c (w.acked.toNat * 2 ^ 32))
      else s
    else
      let s := w.held.foldl (fun s b => landRing s c b) (setChan s c { w with held := [] })
      let w := chanOf s c
      if w.rewind then
        sendCredit (sendWord (setChan s c { w with rewind := false }) port (cw 0x03 c (w.cursor.toNat * 2 ^ 32))) c
      else tryClose s c) s
  modCtx s ctx fun x => { x with rewind := false }

/-! ## Loss (R360) -/

/-- A window of a lost port: LOST, its SW_OPEN ended if it was still OPENING, an event to its host, and a RUNNING or saved context with a RING window is detained. -/
def loseWindow (s : State) (c : Nat) : State :=
  let w := chanOf s c
  if w.st == .closed || w.st == .lost then s
  else
    let closing := w.st == .closing
    let s := match w.cmd with
      | some d => complete s d (wdCtx w.wd) 0x0A 0x09
      | none => s
    let s := chanTo (setChan s c { w with cmd := none, landing := [], held := [], part := [], partBlock := none, limit := w.cursor }) c .lost
    let s := streamEvent s c 0x6001
    let st := (ctxOf s (wdCtx w.wd)).st
    let s := if wdKind w.wd = 1 && (st == .running || st == .recess) then detain s (wdCtx w.wd) 0x6001 none none else s
    if closing then closeDone s c w.forced else s

/-- Every window of a port is lost. -/
def loseWindows (s : State) (p : Nat) : State := (List.range 64).foldl (fun s i => loseWindow s (64 * p + i)) s

/-- A window that has been opened since the link left UP stays OPENING (R345). -/
def openedSince (s : State) (c : Nat) : Bool :=
  (chanOf s c).st == .opening && (tportOf s (c / 64)).notUpSince.any fun t => decide (t ≤ (chanOf s c).since)

/-- The link is UP: windows that open or close say so again, open ones rewind (R345, R360). -/
def windowsUp (s : State) (p : Nat) : State :=
  (List.range 64).foldl (fun s i =>
    let c := 64 * p + i
    let w := chanOf s c
    match w.st with
    | .opening => sendWord s p (openWord c w.wd)
    | .opened | .closing =>
      let s := if wdEgress w.wd then
          sendWord (setChan s c { w with cursor := w.acked }) p (cw 0x03 c (w.acked.toNat * 2 ^ 32))
        else
          let w := { w with part := [], partBlock := none, revoked := false }
          sendCredit (sendWord (setChan s c w) p (cw 0x03 c ((expectedBlock w).toNat * 2 ^ 32))) c
      match w.st, w.fin with
      | .closing, some f => tryClose (sendWord s p (cw 0x07 c (f.toNat * 2 ^ 32))) c
      | _, _ => s
    | _ => s) s

/-! ## HBM4E windows (R353) -/

/-- The port raises an object; a raise past the limit is refused, and the window closes with CTR_OVERRUN. -/
def portRaise (s : State) (c o : Nat) : State :=
  match raiseObj s o 1 srcObject with
  | (.overrun, s) => startClose (streamEvent s c 0x4004) c none none
  | (_, s) => s

/-- Address of block `b` of the buffer, in the copy that hosts see. -/
def hbmBlockAt (s : State) (d b : Nat) : Nat := hostAddr (ctxOf s (wdCtx d)) (wdAddr d + (b % wdNbuf d) * wdBytes d)

/-- A block meets a stack that the split has parted from the port's wing (R429). -/
def blockApart (s : State) (c a n : Nat) : Bool :=
  s.health.split != 0 && (List.range (n / 4096 + 2)).any fun i =>
    decide (4096 * i < n + 4096) && apart s (c / 1024) (stackOf s (min (a + 4096 * i) (a + n - 1)) / 4)

/-! ## Egress (R351, R353, R361) -/

/-- The slot of the block that an egress ring sends next. -/
def egressSlot (s : State) (k : Nat) (w : Chan) : Nat :=
  let r := ringOf (muOf s k) (wdRing w.wd)
  (r.tail + (w.cursor - w.freed).toNat) % ringSlots s k w.wd

/-- The block of the ring of a site that an egress window would send next, if it is written whole. -/
def ringBlock (s : State) (k : Nat) (w : Chan) : Option (List Byte) :=
  let d := w.wd
  if !(ringActive s d) || ringSlots s k d = 0 then none
  else
    let slot := egressSlot s k w
    if (ringOf (muOf s k) (wdRing d)).full.getLsbD slot && decide ((w.cursor - w.freed).toNat < ringSlots s k d) then
      some (mread (muOf s k).spad (ringSlotAt s k d slot) (wdBytes d))
    else none

/-- The block that an egress window would send next, if it is written whole. -/
def egressBlock (s : State) (w : Chan) : Option (List Byte) :=
  let d := w.wd
  if wdKind d = 1 then ringBlock s (ringSite (ctxOf s (wdCtx d)) d) w
  else if wdKind d = 2 then
    if w.cursor.toNat < (objOf s (wdProd d)).value - w.p0 then
      some (hread s (hbmBlockAt s d w.cursor.toNat) (wdBytes d))
    else none
  else none

/-- The DATA frames of a block, for a window of a class of R349 (R346). -/
def blockFrames (cls c : Nat) (num : W32) (data : List Byte) : List TxFrame :=
  let bytes := data.length
  let n := ceilDiv bytes 616
  (List.range n).map fun i =>
    let len := if i + 1 = n then bytes - 616 * i else 616
    { cls := cls, body := (data.drop (616 * i)).take len,
      hdr := 1 + (c % 64) * 2 ^ 32 + len * 2 ^ 38 + b2n (i = 0) * 2 ^ 48 + b2n (i + 1 = n) * 2 ^ 49 + num.toNat * 2 ^ 64 + i * 2 ^ 96 }

/-- Sends a block of an egress window. -/
def sendBlock (s : State) (c : Nat) (data : List Byte) : State :=
  let w := chanOf s c
  let p := c / 64
  let s := (ringSites s (ctxOf s (wdCtx w.wd)) w.wd).foldl (fun s k =>
    if wdKind w.wd != 1 || !(usesTags (muOf s k)) then s
    else modMu s k fun u =>
      let i := 16 * wdRing w.wd + egressSlot s k w
      { u with tags := sset SlotTag.none u.tags i { sget SlotTag.none u.tags i with st := .draining } }) s
  let s := setChan s c { w with cursor := w.cursor + 1, sent := if behind w.sent (w.cursor + 1) then w.cursor + 1 else w.sent,
                                shadowCrc := none, egressAt := none }
  let cls := if (ctxOf s (wdCtx w.wd)).lc then 1 else 2
  pumpSend 1702 (modTport s p fun t =>
    { t with sendq := (blockFrames cls c w.cursor data).foldl queueFrame t.sendq,
             turn := if cls = 1 then (c % 64, t.turn.2) else (t.turn.1, c % 64) }) p

/-- Whether the pair of a context awaits a promotion, in which its egress is held (R435). -/
def promoting (s : State) (x : Ctx) : Bool :=
  (List.range 4).any fun w => fld x.strips (16 * w) 16 != 0 && (sget none s.health.promoteAt (wingPair w)).isSome

/-- An egress window may send: it is OPEN, or it closes and a REWIND asks for blocks that it has sent before (R358). -/
def maySend (w : Chan) : Bool := wdEgress w.wd && (w.st == .opened || (w.st == .closing && behind w.cursor w.sent))

/-- The controllers read the block that an HBM4E egress window sends next (R206, R207). -/
def egressReads (s : State) (c : Nat) (reads : HbmReads) : State :=
  let w := chanOf s c
  if maySend w && wdKind w.wd = 2 && (egressBlock s w).isSome then
    readThrough s (hbmBlockAt s w.wd w.cursor.toNat) (wdBytes w.wd) reads
  else s

/-- An egress window has a block to send: written whole, below the partner's LIMIT, and in twin mode with the shadow's CRC at hand. -/
def egressReady (s : State) (c : Nat) : Bool :=
  let w := chanOf s c
  let x := ctxOf s (wdCtx w.wd)
  maySend w && behind w.cursor w.limit && (egressBlock s w).isSome &&
    (wdKind w.wd != 1 || (!(promoting s x) && (!(twinned s x) || w.shadowCrc.isSome)))

/-- The window that a port takes next: those of LC contexts first, and within a class in round-robin order of channel number (R349). -/
def nextWindow (s : State) (p : Nat) : Option Nat :=
  let t := tportOf s p
  let lc (c : Nat) : Bool := (ctxOf s (wdCtx (chanOf s c).wd)).lc
  let pick (last : Nat) (ok : Nat → Bool) : Option Nat :=
    ((List.range 64).map fun i => 64 * p + (last + 1 + i) % 64).find? fun c => ok c && egressReady s c
  (pick t.turn.1 lc).or (pick t.turn.2 fun c => !(lc c))

/-- Tries to send the next block, when it is the window's turn: in twin mode only once the shadow's CRC agrees (R349, R351, R361). -/
def tryEgress (s : State) (c : Nat) : State :=
  let w := chanOf s c
  let x := ctxOf s (wdCtx w.wd)
  if !(maySend w) || (tportOf s (c / 64)).link != .up || !(behind w.cursor w.limit) then s
  else match egressBlock s w with
    | none => s
    | some data =>
      if egressReady s c && nextWindow s (c / 64) != some c then s
      else if wdKind w.wd = 1 && promoting s x then s
      else if wdKind w.wd = 1 && twinned s x then
        match w.shadowCrc with
        | none => setChan s c { w with egressAt := some (w.egressAt.getD s.fclk) }
        | some v =>
          if v = crc64 data then
            sendBlock (modCtx s (wdCtx w.wd) fun x => { x with twinErr := (false, false) }) c data
          else twinMismatch (setChan s c { w with shadowCrc := none }) (wdCtx w.wd) (wingPair (siteWing (ringSite x w.wd)))
      else if wdKind w.wd = 2 then
        let a := hbmBlockAt s w.wd w.cursor.toNat
        if blockApart s c a data.length then loseWindow s c
        else match badIn s a data.length with
        | [] => sendBlock s c data
        | b :: _ => detain (countUncorrectable s (32 * b)) (wdCtx w.wd) 0x2003 none none
      else sendBlock s c data

/-! ## Ingress blocks (R346, R348, R359) -/

/-- Refuses a block with WCLOSED. -/
def refuseBlock (s : State) (c num reason : Nat) : State :=
  sendWord (modChan s c fun w => if w.st == .closed then w else { w with wclosed := satAdd 32 w.wclosed 1 }) (c / 64)
    (cw 0x04 c (num * 2 ^ 32 + reason * 2 ^ 64))

/-- A block is whole: it waits to land, or is kept while the context is saved (R350, R357). -/
def blockWhole (s : State) (c : Nat) (data : List Byte) : State :=
  modChan s c fun w =>
    let saved := wdKind w.wd = 1 && (ctxOf s (wdCtx w.wd)).st == .recess
    if saved then { w with held := w.held ++ [data], part := [], partBlock := none }
    else { w with landing := w.landing ++ [data], part := [], partBlock := none }

/-- An incomplete or out-of-order block is discarded, and the partner is asked to send it again. -/
def askAgain (s : State) (c num : Nat) : State :=
  let s := modChan s c fun w =>
    { w with part := [], partBlock := none, skip := some num, discarded := satAdd 32 w.discarded 1 }
  sendWord s (c / 64) (cw 0x03 c ((expectedBlock (chanOf s c)).toNat * 2 ^ 32))

/-- An accepted DATA frame (R348). A block that is discarded counts once: its further frames meet no case. -/
def dataFrame (s : State) (p h : Nat) (body : List Byte) : State :=
  let c := 64 * p + fhChan h
  let w := chanOf s c
  let num : W32 := BitVec.ofNat 32 (fhBlock h)
  let next := expectedBlock w
  let first := fhFirst h
  let skipped := !first && w.skip = some (fhBlock h)
  let s := modChan s c fun w => { w with skip := if skipped then w.skip else none }
  let drop (f : Chan → Chan) : State := modChan s c fun w => { f w with skip := some (fhBlock h) }
  if wdEgress w.wd || (w.st != .opened && w.st != .closing) then refuseBlock s c (fhBlock h) 0x01
  else if w.st == .closing && !(w.fin.any (behind num)) then refuseBlock s c (fhBlock h) 0x02
  else if skipped then s
  else if w.revoked && !(behind num next) then drop fun w => { w with discarded := satAdd 32 w.discarded 1 }
  else if behind num next then sendCredit (drop fun w => { w with duplicates := satAdd 32 w.duplicates 1 }) c
  else if w.st == .opened && !(behind num w.limit) then
    streamEvent (drop fun w => { w with violations := satAdd 32 w.violations 1 }) c 0x6002
  else
    let due := match w.partBlock with
      | some (b, i) => b = fhBlock h && i = fhFidx h && !first
      | none => first && fhFidx h = 0 && num = next
    let bytes := wdBytes w.wd
    let n := ceilDiv bytes 616
    let len := if fhFidx h + 1 = n then bytes - 616 * fhFidx h else 616
    if !due || decide (n ≤ fhFidx h) || fhLast h != decide (fhFidx h + 1 = n) || fhLen h != len then
      askAgain s c (fhBlock h)
    else if fhLast h then tryClose (blockWhole s c (w.part ++ body)) c
    else modChan s c fun w => { w with part := w.part ++ body, partBlock := some (fhBlock h, fhFidx h + 1) }

/-! ## Words of a channel -/

/-- ACKED moves: egress slots or buffer blocks are free again (R351, R353). -/
def ackedTo (s : State) (c : Nat) (a : W32) : State :=
  let w := chanOf s c
  let n := if behind w.acked a then min (a - w.acked).toNat (nextBlock w - w.acked).toNat else 0
  let upTo := w.acked + BitVec.ofNat 32 n
  let s := setChan s c { w with acked := upTo, cursor := if behind w.cursor upTo then upTo else w.cursor }
  let s := (List.range n).foldl (fun s _ =>
    countBlock (if wdKind w.wd = 2 then portRaise s c (wdCons w.wd) else s) c) s
  tryClose (releaseAcked s c) c

/-- CREDIT: ACKED and LIMIT of an egress window (R347, R348). -/
def onCredit (s : State) (c w : Nat) : State :=
  let x := chanOf s c
  if !(wdEgress x.wd) || (x.st != .opened && x.st != .closing) then s
  else
    let lim : W32 := BitVec.ofNat 32 (fld w 64 32)
    let s := setChan s c { x with limit := if behind x.limit lim then lim else x.limit }
    ackedTo s c (BitVec.ofNat 32 (fld w 32 32))

/-- REVOKE: LIMIT falls to CURSOR, and the sender answers REWIND with it (R347). -/
def onRevoke (s : State) (c w : Nat) : State :=
  let x := chanOf s c
  if !(wdEgress x.wd) || (x.st != .opened && x.st != .closing) then s
  else
    let cur : W32 := BitVec.ofNat 32 (fld w 32 32)
    sendWord (setChan s c { x with limit := cur, cursor := if behind cur x.cursor then cur else x.cursor }) (c / 64)
      (cw 0x03 c (cur.toNat * 2 ^ 32))

/-- REWIND: the channel continues at CURSOR; the receiver discards an incomplete block (R347). -/
def onRewind (s : State) (c w : Nat) : State :=
  let x := chanOf s c
  let cur : W32 := BitVec.ofNat 32 (fld w 32 32)
  if x.st != .opened && x.st != .closing then s
  else if wdEgress x.wd then 
    setChan s c { x with cursor := if behind cur x.acked then x.acked else if behind (nextBlock x) cur then nextBlock x else cur }
  else
    let x := { x with part := [], partBlock := none }
    if x.revoked then
      if cur = expectedBlock x then sendCredit (setChan s c { x with revoked := false }) c else setChan s c x
    else if behind (expectedBlock x) cur && x.landing.isEmpty && x.held.isEmpty then setChan s c { x with cursor := cur }
    else setChan s c x

/-- OPEN: it completes a handshake, is answered again by a window that is OPEN, is refused, or is held (R345). -/
def onOpen (s : State) (c w : Nat) : State :=
  let x := chanOf s c
  let sends := fld w 32 1
  let block := fld w 33 15
  match x.st with
  | .opening => if opensMatch x.wd sends block then windowOpened s c
                else sendWord s (c / 64) (cw 0x07 c (2 * 2 ^ 64))
  | .closed => setChan s c { x with heldOpen := some (sends + 2 * block, s.fclk) }
  | .opened => sendWord s (c / 64) (if opensMatch x.wd sends block then openWord c x.wd else cw 0x07 c (2 * 2 ^ 64))
  | _ => s

/-- CLOSE: the partner refuses an open, starts a close or answers one (R345, R358). -/
def onClose (s : State) (c w : Nat) : State :=
  let x := chanOf s c
  let fin : W32 := BitVec.ofNat 32 (fld w 32 32)
  match x.st with
  | .opening => windowRefused s c
  | .opened => startClose s c none (some fin)
  | .closing => tryClose (setChan s c { x with partnerClosed := true }) c
  | .closed => setChan s c { x with heldOpen := none }
  | .lost => s

end Sys2Proof.Machine
end

