-- ==== Sys2Proof/WellFormed.lean ====
section
/-! DEFINITION. Which commands are well formed: every operand that names an item of the module names one that some grade
has, and a message or a header has a size that its carrier transports. -/

namespace Sys2Proof

/-- A SEND message of 64, 128, 192 or 256 B (R373). -/
def msgLenOk (msg : List W32) : Bool :=
  msg.length == 16 || msg.length == 32 || msg.length == 48 || msg.length == 64

/-- The requester is the master or one of the sixteen hosts (R370, R402). -/
def reqOk : Requester → Bool
  | .master => true
  | .host h => h < 16

/-- A codeword of a Trien port: CWIDX of 12 bits and a frame of 640 bytes. -/
def Codeword.ok (c : Codeword) : Bool := decide (c.idx < 4096) && c.frame.length = 640

/-- The codeword of a CONTROL frame, when the word is its first. -/
def cwGiven : Option Codeword → Bool
  | some c => c.ok
  | none => true

/-- The well-formed commands. -/
def Instr.wf (i : Instr) : Bool :=
  match i with
  | .nop conn msg => conn < 256 && msgLenOk msg.words
  | .queueCreate conn msg => conn < 256 && msgLenOk msg.words
  | .queueDestroy conn msg => conn < 256 && msgLenOk msg.words
  | .queueAck conn msg => conn < 256 && msgLenOk msg.words
  | .queueModify conn msg => conn < 256 && msgLenOk msg.words
  | .leaseAcquire conn msg => conn < 256 && msgLenOk msg.words
  | .leaseRenew conn msg => conn < 256 && msgLenOk msg.words
  | .leaseRelease conn msg => conn < 256 && msgLenOk msg.words
  | .openCtx conn msg => conn < 256 && msgLenOk msg.words
  | .extentAdd conn msg => conn < 256 && msgLenOk msg.words
  | .extentFree conn msg => conn < 256 && msgLenOk msg.words
  | .extentGrantComplete ctx => ctx < 64
  | .load conn msg => conn < 256 && msgLenOk msg.words
  | .loadFetchComplete ctx _ => ctx < 64
  | .unload conn msg => conn < 256 && msgLenOk msg.words
  | .launch conn msg => conn < 256 && msgLenOk msg.words
  | .recess conn msg => conn < 256 && msgLenOk msg.words
  | .resume conn msg => conn < 256 && msgLenOk msg.words
  | .release conn msg => conn < 256 && msgLenOk msg.words
  | .close conn msg => conn < 256 && msgLenOk msg.words
  | .mwOpen conn msg => conn < 256 && msgLenOk msg.words
  | .mwClose conn msg => conn < 256 && msgLenOk msg.words
  | .mwCloseComplete win => win < 4096
  | .swOpen conn msg => conn < 256 && msgLenOk msg.words
  | .swClose conn msg => conn < 256 && msgLenOk msg.words
  | .objCreate conn msg => conn < 256 && msgLenOk msg.words
  | .objDestroy conn msg => conn < 256 && msgLenOk msg.words
  | .objGrant conn msg => conn < 256 && msgLenOk msg.words
  | .objSignal conn msg => conn < 256 && msgLenOk msg.words
  | .objWait conn msg => conn < 256 && msgLenOk msg.words
  | .rcRead conn msg => conn < 256 && msgLenOk msg.words
  | .rcReset conn msg => conn < 256 && msgLenOk msg.words
  | .rollCall conn msg => conn < 256 && msgLenOk msg.words
  | .ctxRead conn msg => conn < 256 && msgLenOk msg.words
  | .dbgRead conn msg => conn < 256 && msgLenOk msg.words
  | .rdmaWriteAcked p => p.conn < 256
  | .remoteAccessError p => p.conn < 256
  | .cmReq port _ _ => port < 4
  | .cmDreq p => p.conn < 256
  | .ackTimeout p => p.conn < 256
  | .livenessTimeout conn => conn < 256
  | .hostGraceExpiry host => host < 16
  | .rdmaWriteRequest conn _ _ _ => conn < 256
  | .rdmaReadRequest conn _ _ _ => conn < 256
  | .unsupportedRequest p => p.conn < 256
  | .ecnMarkedPacket p => p.conn < 256
  | .cnpReceived p => p.conn < 256
  | .sendRateRaise conn => conn < 256
  | .leaseExpiry => true
  | .ptpSync port _ _ => port < 4
  | .ptpSyncLoss port => port < 4
  | .sdoUdpDatagram port _ _ => port < 4
  | .coeSdoUpload _ _ _ => true
  | .coeSdoDownload _ _ _ => true
  | .sdoInformation => true
  | .alStateRequest _ => true
  | .ecatSupervisionTimeout => true
  | .sync0Event => true
  | .inputRefresh => true
  | .dictWrite req _ _ _ _ => reqOk req
  | .powerCapWrite req _ _ => reqOk req
  | .aclkCeilingWrite req _ _ => reqOk req
  | .reportCardReset req _ _ => reqOk req
  | .watchdogPeriodWrite req _ _ _ => reqOk req
  | .rollCallTrigger req _ => reqOk req
  | .rollCallDone => true
  | .rejoinThresholdWrite req _ _ => reqOk req
  | .forceClose req _ _ => reqOk req
  | .debugPermittedWrite req _ _ => reqOk req
  | .timetableEntryWrite req _ _ => reqOk req
  | .timetableEnable req _ tt => reqOk req && tt < 8
  | .timetableDisable req _ tt => reqOk req && tt < 8
  | .timetableRangeWrite req _ tt _ _ => reqOk req && tt < 8
  | .timetableQuiesceTimeout tt => tt < 8
  | .trienPortEnable req _ port => reqOk req && port < 64
  | .trienPortDisable req _ port => reqOk req && port < 64
  | .hostPortEnableWrite req _ port _ => reqOk req && port < 4
  | .hostPortAddressWrite req _ port _ _ => reqOk req && port < 4
  | .hostGidWrite req _ host _ => reqOk req && host < 16
  | .hostEnableWrite req _ host _ => reqOk req && host < 16
  | .leaseRevoke req _ => reqOk req
  | .serviceWrite req _ _ => reqOk req
  | .gateDisable req _ gate => reqOk req && 1 ≤ gate && gate ≤ 5
  | .gateEnable req _ gate => reqOk req && 1 ≤ gate && gate ≤ 5
  | .quiesceTimeout gate => 1 ≤ gate && gate ≤ 5
  | .errorHistoryClear req _ _ => reqOk req
  | .sm3SyncModeWrite req _ _ => reqOk req
  | .twinModeWrite req _ pair _ => reqOk req && pair < 2
  | .wingFence req _ wing => reqOk req && wing < 4
  | .wingUnfence req _ wing => reqOk req && wing < 4
  | .fullResetRequest req _ => reqOk req
  | .planeResetRequest req _ => reqOk req
  | .commit req _ => reqOk req
  | .commitComplete _ => true
  | .syllabusPolicyWrite req _ _ => reqOk req
  | .syllabusKeyHashWrite req _ _ _ => reqOk req
  | .attestationTrigger req _ => reqOk req
  | .attestationSigned => true
  | .debugDataRead req => reqOk req
  | .powerWindowEnd _ => true
  | .thermalReading _ _ _ _ => true
  | .coolantFlowLow _ _ _ _ => true
  | .coolantFlowShutdown => true
  | .pwrEnRise => true
  | .pwrEnFall => true
  | .resetNAssert => true
  | .resetNRelease => true
  | .inputUndervoltage => true
  | .inputOvervoltage => true
  | .railFault => true
  | .vcmpFault wing => wing < 4
  | .voptFault wing => wing < 4
  | .railEnable => true
  | .romStart _ _ => true
  | .dhcpOffer port _ => port < 4
  | .dhcpRetry port => port < 4
  | .tftpRetry port => port < 4
  | .tftpBlock port _ => port < 4
  | .foeWrite _ _ => true
  | .firmwareImageReceived path => path < 5
  | .mc1ImageCheck _ => true
  | .hbmTraining _ => true
  | .siteSelfTest _ _ => true
  | .linkTraining _ => true
  | .dictionaryOnline => true
  | .contextsMayOpen => true
  | .bellEdge _ _ => true
  | .bellIndexEdge _ => true
  | .intervalTimeout source => source < 8
  | .sourceLossTimeout source => source < 8
  | .timetableRelease tt => tt < 8
  | .timetableSignal tt => tt < 8
  | .timetableCheck tt => tt < 8
  | .phaseDeadlinePass tt => tt < 8
  | .timeDeadlineExpiry tt => tt < 8
  | .stagingStart ctx => ctx < 64
  | .stagingComplete ctx => ctx < 64
  | .lendRecessRequest ctx => ctx < 64
  | .beQuantumExpiry ctx => ctx < 64
  | .schedulerStart => true
  | .recessPointReached ctx => ctx < 64
  | .saveComplete ctx => ctx < 64
  | .restoreComplete ctx => ctx < 64
  | .preemptTimeout ctx => ctx < 64
  | .recessPartnerSilence chan => chan < 4096
  | .teardownComplete ctx => ctx < 64
  | .closeTimeout ctx => ctx < 64
  | .closeComplete ctx => ctx < 64
  | .turnComplete ctx => ctx < 64
  | .zeroExtentComplete ctx => ctx < 64
  | .termCooled => true
  | .passDescriptor u => u.site < 2048
  | .columnTableLoad u => u.site < 2048
  | .freeHandle u => u.site < 2048
  | .drainHandle u => u.site < 2048
  | .cuGateRelease u => u.site < 2048
  | .passFire u k => u.site < 2048 && k < 4
  | .weightTileComplete site => site < 2048
  | .slotReady site slot => site < 2048 && slot < 16
  | .steeringToken site word => site < 2048 && word < 2 ^ 32
  | .drainStart site _ => site < 2048
  | .slotRelease u => u.site < 2048
  | .drainComplete u => u.site < 2048
  | .tileIndexTake u => u.site < 2048
  | .stepMerge ctx card => ctx < 64 && card < 256
  | .heldStepRelease ctx card => ctx < 64 && card.card < 256
  | .issueEntry u list => u.site < 2048 && list < 12
  | .tileDescriptor site gen _ => site < 2048 && gen < 4
  | .gatherScatterDescriptor u gen => u.site < 2048 && gen < 4
  | .layoutCopyDescriptor u gen => u.site < 2048 && gen < 4
  | .externalAccessDescriptor u queue => u.site < 2048 && queue < 8
  | .accessUnblock u list => u.site < 2048 && list < 12
  | .narrowStarvation site => site < 2048
  | .descriptorComplete site gen => site < 2048 && gen < 4
  | .eadComplete site done => site < 2048 && done.queue < 8
  | .hbmEccRetry site queue _ _ => site < 2048 && queue < 8
  | .scrubPatrol _ _ => true
  | .hbmRefresh stack pc => stack < 16 && pc < 64
  | .pseudoChannelFailing stack pc _ => stack < 16 && pc < 64
  | .pseudoChannelSwitch stack pc => stack < 16 && pc < 64
  | .tileRequest site _ => site < 2048
  | .tileGrant site => site < 2048
  | .signalPacket site route _ => site < 2048 && route < 64
  | .watchdogExpiry site wait => site < 2048 && wait < 96
  | .fabricWord site port _ => site < 2440 && port < 12
  | .creditReturn site port => site < 2048 && port < 8
  | .forkSend u entry => u.site < 2048 && entry < 64
  | .reduceFire u entry => u.site < 2048 && entry < 64
  | .rejoinImbalance site entry => site < 2048 && entry ≤ 64
  | .linkErrorRate site port => site < 2048 && port < 8
  | .unitFailed site => site < 2048
  | .sramRetest site _ _ _ => site < 2048
  | .pairRetirement wing pair _ => wing < 4 && pair < 17
  | .pairRemap wing _ => wing < 4
  | .bridgeLoss bridge => bridge < 4
  | .splitFence => true
  | .twinFaultWindowClose ctx => ctx < 64
  | .twinEgressCompare chan _ => chan < 4096
  | .twinEgressTimeout late => match late with
    | .block chan => chan < 4096
    | .increment ctx obj => ctx < 64 ∧ obj < 4096
  | .promotionComplete pair => pair < 2
  | .lightDetected port _ => port < 64
  | .lightLost port => port < 64
  | .trainLock port => port < 64
  | .trainTimeout port => port < 64
  | .negotiateTimeout port => port < 64
  | .hello port cw word => port < 64 && cwGiven cw && word < 2 ^ 128
  | .echo port cw word => port < 64 && cwGiven cw && word < 2 ^ 128
  | .echoReply port cw word => port < 64 && cwGiven cw && word < 2 ^ 128
  | .linkIdleTimeout port => port < 64
  | .dataFrame port fec idx frame => port < 64 && (Codeword.mk fec idx frame).ok
  | .idleFrame port idx frame => port < 64 && (Codeword.mk idx.isSome (idx.getD 0) frame).ok
  | .replayBufferFullTimeout port => port < 64
  | .credit port cw word => port < 64 && cwGiven cw && word < 2 ^ 128
  | .creditCoalesce chan => chan < 4096
  | .revoke port cw word => port < 64 && cwGiven cw && word < 2 ^ 128
  | .rewind port cw word => port < 64 && cwGiven cw && word < 2 ^ 128
  | .wclosed port cw word => port < 64 && cwGiven cw && word < 2 ^ 128
  | .stepToken port cw word => port < 64 && cwGiven cw && word < 2 ^ 128
  | .windowOpenWord port cw word => port < 64 && cwGiven cw && word < 2 ^ 128
  | .windowOpenTimeout chan => chan < 4096
  | .windowCloseWord port cw word => port < 64 && cwGiven cw && word < 2 ^ 128
  | .windowCloseTimeout chan => chan < 4096
  | .laneMap port cw word => port < 64 && cwGiven cw && word < 2 ^ 128
  | .laneMapAck port cw word => port < 64 && cwGiven cw && word < 2 ^ 128
  | .laneErrorWindow port _ => port < 64
  | .laneSwitch turn => turn.port < 64
  | .blockLand chan => chan < 4096
  | .hbmBlockLand chan => chan < 4096
  | .egressBlockSend block => block.chan < 4096
  | .streamHoldExpiry port => port < 64
  | .trainRetryTimer port => port < 64
  | .laneMarkersLost port lane => port < 64 && lane < 5
  | .inputStartThreshold => true
  | .powerUpHoldoffExpiry => true
  | .voltageToleranceChange rail _ => rail < 33
  | .hostLinkChange port _ => port < 4
  | .ecatLinkChange port _ => port < 2

end Sys2Proof
end

