-- ==== Sys2Proof/Machine/Ports.lean ====
section
/-! DEFINITION. Trien commands: the link state machine (R339), versions (R340), spare lanes (R341), frames (R337), control
words (R338) and blocks (R346 to R361). -/

namespace Sys2Proof.Machine

def isPort (s : State) (p : Nat) : Bool := decide (p < numPorts s)
def isChan (s : State) (c : Nat) : Bool := decide (c < numChans s)

/-- A port changes its link state. -/
def linkTo (s : State) (p : Nat) (l : Link) : State :=
  modTport s p fun t => { t with link := l, since := s.fclk,
                                 notUpSince := if l == .up then none else some (t.notUpSince.getD s.fclk) }

/-! ## Negotiation (R339, R340) -/

/-- A HELLO: CONFIRM, the lowest and the highest version, and this device's identity. -/
def helloWord (s : State) (confirm : Bool) (low high : Nat) : Nat :=
  cw 0x10 0 (b2n confirm * 2 ^ 16 + low * 2 ^ 48 + high * 2 ^ 32 + 0x00534A4C * 2 ^ 64 + s.fuse.product.toNat * 2 ^ 96)

/-- NEGOTIATE starts: SEQ restarts, HELLO and 16 ECHO words go out. -/
def negotiate (s : State) (p : Nat) : State :=
  let s := modTport s p fun t =>
    { t with nextSeq := 0, expect := 0, replay := [], sendq := [], ctlRest := [], nakAt := none, naks := 0, replayFull := none,
             offered := none, confirmed := none, rtt := 0, since := s.fclk, locked := true, txIdx := 0, rxIdx := none,
             bip := [0, 0, 0, 0, 0],
             echoes := (List.range 16).map fun i => (i, s.fclk) }
  let s := sendWord s p (helloWord s false 0x0100 0x0101)
  (List.range 16).foldl (fun s i => sendWord s p (cw 0x11 0 (i * 2 ^ 32))) s

/-- The highest version that both windows hold, within one major version: versions 1.0 and 1.1 are this device's. -/
def commonVersion (o : Nat × Nat × Nat × Nat) : Option Nat :=
  let lo := o.1 * 256 + o.2.1
  let hi := o.2.2.1 * 256 + o.2.2.2
  [0x0101, 0x0100].find? fun v => decide (lo ≤ v) && decide (v ≤ hi)

/-- The link reaches UP once both confirmations agree and the round trip is known and short enough. -/
def tryUp (s : State) (p : Nat) : State :=
  let t := tportOf s p
  match t.offered.bind commonVersion, t.confirmed with
  | some v, some c =>
    if c != (v, v) || !t.echoes.isEmpty || (t.link != .negotiate && t.link != .retrain) then s
    else windowsUp (modTport (linkTo s p .up) p fun t => { t with version := v, lastFrame := s.fclk }) p
  | _, _ => s

/-- The link cannot come up. -/
def incompatible (s : State) (p cause : Nat) : State :=
  modTport (linkTo s p .incompatible) p fun t => { t with cause := cause }

def onHello (s : State) (p w : Nat) : State :=
  let t := tportOf s p
  let s := setTport s p { t with partner := BitVec.ofNat 64 (fld w 64 32 + fld w 96 32 * 2 ^ 32) }
  if bitOf w 16 then tryUp (modTport s p fun t => { t with confirmed := some (fld w 48 16, fld w 32 16) }) p
  else
    let o := (fld w 56 8, fld w 48 8, fld w 40 8, fld w 32 8)
    let s := modTport s p fun t => { t with offered := some o }
    match commonVersion o with
    | none => incompatible s p 1
    | some v => tryUp (sendWord s p (helloWord s true v v)) p

def onEchoReply (s : State) (p w : Nat) : State :=
  let t := tportOf s p
  match takeFirst (fun e => e.1 = fld w 32 16) t.echoes with
  | none => s
  | some (e, rest) =>
    let d := nsOf (s.fclk - e.2)
    let s := setTport s p { t with echoes := rest, rtt := max t.rtt d }
    if rest.isEmpty && 10000 < max t.rtt d && (t.link == .negotiate || t.link == .retrain) then incompatible s p 2
    else tryUp s p

/-! ## The spare lane (R341) -/

/-- The lane that no logical lane uses. -/
def spareLane (m : Nat) : Nat := ((List.range 5).find? fun q => (List.range 4).all fun l => physLane m l != q).getD 4

/-- The codeword index for a change of lanes: 512 codewords after the last one received (log entry 24). -/
def switchAt (t : TPort) : Nat := ((t.rxIdx.getD 0).toNat + 512) % 4096

/-- A physical lane of the direction received is unfit: its logical lane is mapped onto a healthy spare that is not in use, else the link
retrains (R339, R341). -/
def laneUnfit (s : State) (p lane : Nat) : State :=
  let t := tportOf s p
  let ok : BitVec 5 := t.lanesOk &&& ~~~(BitVec.ofNat 5 (2 ^ lane))
  let m := t.map.toNat
  let s := setTport s p { t with lanesOk := ok }
  match (List.range 4).find? fun l => physLane m l = lane with
  | none => s
  | some l =>
    let sp := spareLane m
    let n := setFld m (3 * l) 3 sp
    if m != 0x688 || t.laneAsk.any (· != n) || !(ok.getLsbD sp) then retrain s p false
    else sendWord (modTport s p fun t => { t with laneAsk := some n }) p (cw 0x13 0 (n * 2 ^ 32 + switchAt t * 2 ^ 48))

/-! ## Link commands -/

/-- LIGHT_DETECTED: the lanes of a mask see light (R339). -/
def execLightDetected (port lanes : Nat) (s : State) : Host.Outcome State Fault Refusal :=
  actIf (isPort s port) s fun s =>
    if s.boot.step < 6 || s.power.opticsOff.getLsbD (port / 16) then s else
    let s := modTport s port fun t => { t with light := true, lit := BitVec.ofNat 5 lanes, lanesOk := BitVec.ofNat 5 lanes }
    if (tportOf s port).link == .down && 4 ≤ popBits lanes 5 then linkTo s port .train else s

/-- A port loses its light; an INCOMPATIBLE one goes DOWN (R339). -/
def lightOut (s : State) (p : Nat) : State :=
  let s := modTport s p fun t => { t with light := false, lit := 0, lanesOk := 0 }
  if (tportOf s p).link == .incompatible then modTport (linkTo s p .down) p fun t => { t with cause := 0 } else s

/-- LIGHT_LOST, R339. -/
def execLightLost (port : Nat) (s : State) : Host.Outcome State Fault Refusal :=
  actIf (isPort s port) s fun s => lightOut s port

/-- TRAIN_LOCK: four lanes have locked, and the port negotiates (R339). -/
def execTrainLock (port : Nat) (s : State) : Host.Outcome State Fault Refusal :=
  actIf (isPort s port) s fun s =>
    let t := tportOf s port
    if popBits t.lanesOk.toNat 5 < 4 then s
    else match t.link with
      | .train => negotiate (linkTo s port .negotiate) port
      | .retrain => negotiate s port
      | _ => s

/-- TRAIN_TIMEOUT: no lock in 100 ms, or a retrain not complete in 110 ms (R339). -/
def execTrainTimeout (port : Nat) (s : State) : Host.Outcome State Fault Refusal :=
  actIf (isPort s port) s fun s =>
    let t := tportOf s port
    if t.link == .train || t.link == .retrain then
      modTport (linkTo s port .down) port fun t => { t with trainFails := satAdd 16 t.trainFails 1 }
    else s

/-- TRAIN_RETRY_TIMER: a new attempt 1 s after a failed training (R339). -/
def execTrainRetryTimer (port : Nat) (s : State) : Host.Outcome State Fault Refusal :=
  actIf (isPort s port) s fun s =>
    let t := tportOf s port
    if t.link == .down && 4 ≤ popBits t.lanesOk.toNat 5 then linkTo s port .train else s

/-- NEGOTIATE_TIMEOUT: no HELLO within 1 ms (R339). -/
def execNegotiateTimeout (port : Nat) (s : State) : Host.Outcome State Fault Refusal :=
  actIf (isPort s port) s fun s =>
    let t := tportOf s port
    if t.link == .negotiate && t.offered.isNone then
      modTport (linkTo s port .down) port fun t => { t with trainFails := satAdd 16 t.trainFails 1 }
    else s

/-- LINK_IDLE_TIMEOUT: no frame for 100 µs (R339). -/
def execLinkIdleTimeout (port : Nat) (s : State) : Host.Outcome State Fault Refusal :=
  actIf (isPort s port) s fun s => if (tportOf s port).link == .up then retrain s port false else s

/-- REPLAY_BUFFER_FULL_TIMEOUT: the replay buffer has been full for 1 ms (R337). -/
def execReplayBufferFullTimeout (port : Nat) (s : State) : Host.Outcome State Fault Refusal :=
  actIf (isPort s port) s fun s =>
    let t := tportOf s port
    if t.link == .up && 1024 ≤ t.replay.length then retrain s port false else s

/-- LANE_ERROR_WINDOW: the corrected symbols of a 1 ms window by physical lane; a lane carries 12,800,000 symbols in it
(R332, R341). -/
def execLaneErrorWindow (port : Nat) (errors : List Nat) (s : State) : Host.Outcome State Fault Refusal :=
  actIf (isPort s port) s fun s =>
    let m := (tportOf s port).map.toNat
    let limit := dget s 0x260005
    ((List.range 4).filter fun l => decide (limit * 12800000 < errors.getD (physLane m l) 0 * 1000000000)).foldl
      (fun s l => if (tportOf s port).link == .up then laneUnfit s port (physLane m l) else s) s

/-- LANE_MARKERS_LOST: a physical lane loses its markers (R341). -/
def execLaneMarkersLost (port lane : Nat) (s : State) : Host.Outcome State Fault Refusal :=
  actIf (isPort s port && decide (lane < 5)) s fun s =>
    if (tportOf s port).link == .up then laneUnfit s port lane else s

/-- LANE_SWITCH: codeword SWITCH_AT of the direction received, or of the one sent, is reached, and its map changes; the switch is a remap
record (R341, R423, R425). -/
def execLaneSwitch (turn : LaneTurn) (s : State) : Host.Outcome State Fault Refusal :=
  actIf (isPort s turn.port) s fun s =>
    let port := turn.port
    let sent := turn.sent
    let t := tportOf s port
    match if sent then t.txPend else t.pendMap with
    | none => s
    | some (m, _) =>
      let old := if sent then t.txMap.toNat else t.map.toNat
      let moved := ((List.range 4).find? fun l => physLane m l != physLane old l).getD 0
      let t := if sent then { t with txMap := BitVec.ofNat 12 m, txPend := none }
        else { t with map := BitVec.ofNat 12 m, pendMap := none, laneAsk := none }
      let s := setTport s port { t with spareUsed := t.map != 0x688 || t.txMap != 0x688 }
      addRemap s 2 2 (port / 16) 0 (port % 16) (physLane old moved) moved 0

/-! ## Frames -/

/-- The codeword of an IDLE frame arrives. -/
def idleArrives (port : Nat) (cw : Codeword) (s : State) : Host.Outcome State Fault Refusal :=
  actIf (isPort s port && cw.ok && cwTyped cw fun ty => ty = 0) s fun s => if linkTalks (tportOf s port) then (takeFrame s port cw).2 else s

/-- IDLE_FRAME: only its ACK and NAK count (R337). `idx` is the CWIDX of its codeword, none for one that is uncorrectable. -/
def execIdleFrame (port : Nat) (idx : Option Nat) (frame : List Byte) (s : State) : Host.Outcome State Fault Refusal :=
  idleArrives port { fec := idx.isSome, idx := idx.getD 0, frame := frame } s

/-- The codeword of a DATA frame arrives. -/
def dataArrives (port : Nat) (cw : Codeword) (s : State) : Host.Outcome State Fault Refusal :=
  actIf (isPort s port && cw.ok && cwTyped cw fun ty => ty != 0 && ty != 2) s fun s =>
    if !(linkTalks (tportOf s port)) then s
    else
      let r := takeFrame s port cw
      let h := frameHdr cw.frame
      if r.1 then dataFrame r.2 port h (frameBody cw.frame (fhLen h)) else r.2

/-- DATA_FRAME: an accepted frame's block bytes are handled (R337, R348). `fec` says that its codeword is clean or corrected. -/
def execDataFrame (port : Nat) (fec : Bool) (idx : Nat) (frame : List Byte) (s : State) : Host.Outcome State Fault Refusal :=
  dataArrives port { fec := fec, idx := idx, frame := frame } s

/-! ## Control words -/

/-- A word that a codeword brings is the first one of a CONTROL frame, as far as the frame can be read. -/
def wordGiven (cw : Option Codeword) (w : Nat) : Bool := match cw with
  | some c => c.ok && cwTyped c (fun ty => ty = 2) && (!c.fec || !(crcGood c.frame) || frameWord c.frame 0 = w)
  | none => true

/-- A control word of a type: received under R337, then acted on. A word of another known type is another command, and nothing happens (log
entry 10). -/
def word (ty port : Nat) (cw : Option Codeword) (w : Nat) (s : State) (f : State → State) : Host.Outcome State Fault Refusal :=
  actIf (isPort s port && decide (w < 2 ^ 128) && (!(cwKnown (cwType w)) || cwType w = ty) && wordGiven cw w) s fun s =>
    let r := takeWord s port cw w
    if r.1 then f r.2 else r.2

/-- The device channel of a word. -/
def wordChan (port w : Nat) : Nat := 64 * port + cwChan w

/-- HELLO (R340). -/
def execHello (port : Nat) (cw : Option Codeword) (w : Nat) (s : State) : Host.Outcome State Fault Refusal :=
  word 0x10 port cw w s fun s => onHello s port w
/-- ECHO: answered at once (R339). -/
def execEcho (port : Nat) (cw : Option Codeword) (w : Nat) (s : State) : Host.Outcome State Fault Refusal :=
  word 0x11 port cw w s fun s => sendWord s port (Machine.cw 0x12 0 (fld w 32 16 * 2 ^ 32))
/-- ECHO_REPLY: the largest delay is the round trip (R339). -/
def execEchoReply (port : Nat) (cw : Option Codeword) (w : Nat) (s : State) : Host.Outcome State Fault Refusal :=
  word 0x12 port cw w s fun s => onEchoReply s port w
/-- CREDIT (R348). -/
def execCredit (port : Nat) (cw : Option Codeword) (w : Nat) (s : State) : Host.Outcome State Fault Refusal :=
  word 0x01 port cw w s fun s => onCredit s (wordChan port w) w
/-- REVOKE (R347). -/
def execRevoke (port : Nat) (cw : Option Codeword) (w : Nat) (s : State) : Host.Outcome State Fault Refusal :=
  word 0x02 port cw w s fun s => onRevoke s (wordChan port w) w
/-- REWIND (R347). -/
def execRewind (port : Nat) (cw : Option Codeword) (w : Nat) (s : State) : Host.Outcome State Fault Refusal :=
  word 0x03 port cw w s fun s => onRewind s (wordChan port w) w
/-- WCLOSED: an egress window closes as if the partner had closed it (R359). -/
def execWclosed (port : Nat) (cw : Option Codeword) (w : Nat) (s : State) : Host.Outcome State Fault Refusal :=
  word 0x04 port cw w s fun s =>
    let c := wordChan port w
    let x := chanOf s c
    let b : W32 := BitVec.ofNat 32 (fld w 32 32)
    if !(wdEgress x.wd) then s
    else match x.st with
      | .opened => startClose s c none (some b)
      | .closing =>
        tryClose (setChan s c { x with partnerClosed := true, cursor := if behind b x.cursor then b else x.cursor }) c
      | _ => s
/-- STEP: the token goes to its step source (R356, R310); version 1.0 has no such word (R338, R340). -/
def execStepToken (port : Nat) (cw : Option Codeword) (w : Nat) (s : State) : Host.Outcome State Fault Refusal :=
  word 0x05 port cw w s fun s =>
    let c := wordChan port w
    let x := chanOf s c
    if (tportOf s port).version < 0x0101 then retrain s port true
    else if x.st == .opened && !(wdEgress x.wd) then
      (List.range 4).foldl (fun s i => if dget s (0x250105 + i) = c then stepSource s (4 + i) (fld w 32 48) else s) s
    else if x.st == .closed then s
    else setChan s c { x with discarded := satAdd 32 x.discarded 1 }
/-- OPEN (R345). -/
def execWindowOpenWord (port : Nat) (cw : Option Codeword) (w : Nat) (s : State) : Host.Outcome State Fault Refusal :=
  word 0x06 port cw w s fun s => onOpen s (wordChan port w) w
/-- CLOSE (R345, R358). -/
def execWindowCloseWord (port : Nat) (cw : Option Codeword) (w : Nat) (s : State) : Host.Outcome State Fault Refusal :=
  word 0x07 port cw w s fun s => onClose s (wordChan port w) w
/-- LANE_MAP: the partner asks for a map of the lanes sent; the port acknowledges it and changes to it at SWITCH_AT (R341). -/
def execLaneMap (port : Nat) (cw : Option Codeword) (w : Nat) (s : State) : Host.Outcome State Fault Refusal :=
  word 0x13 port cw w s fun s =>
    sendWord (modTport s port fun t => { t with txPend := some (fld w 32 12, fld w 48 12) }) port
      (Machine.cw 0x14 0 (fld w 32 12 * 2 ^ 32 + fld w 48 12 * 2 ^ 48))
/-- LANE_MAP_ACK: the switch of the lanes received is confirmed (R341). -/
def execLaneMapAck (port : Nat) (cw : Option Codeword) (w : Nat) (s : State) : Host.Outcome State Fault Refusal :=
  word 0x14 port cw w s fun s => modTport s port fun t => { t with pendMap := some (fld w 32 12, fld w 48 12) }

/-! ## Windows -/

/-- CREDIT_COALESCE: the 256 ns end, and the current credit of an ingress window goes out (R338, R350, R353). -/
def execCreditCoalesce (chan : Nat) (s : State) : Host.Outcome State Fault Refusal :=
  actIf (isChan s chan) s fun s => putCredit s chan

/-- WINDOW_OPEN_TIMEOUT: the open timeout of a window, or of an OPEN that is held (R343, R345). -/
def execWindowOpenTimeout (chan : Nat) (s : State) : Host.Outcome State Fault Refusal :=
  actIf (isChan s chan) s fun s =>
    let w := chanOf s chan
    match w.st with
    | .opening => windowRefused s chan
    | .closed =>
      if w.heldOpen.isSome then
        sendWord (setChan s chan { w with heldOpen := none }) (chan / 64) (cw 0x07 chan (1 * 2 ^ 64))
      else s
    | _ => s

/-- A window closes by force: incomplete blocks are discarded and counted, and CLOSE goes out with REASON 0x03 (R358). -/
def forceWindow (s : State) (c : Nat) : State :=
  let w := chanOf s c
  let n := w.landing.length + w.held.length + b2n w.partBlock.isSome
  let fin := (w.fin.getD (if wdEgress w.wd then nextBlock w else expectedBlock w)).toNat
  let s := match w.cmd with
    | some d => complete s d (wdCtx w.wd) 0x0A 0x09
    | none => s
  let w := { w with cmd := none }
  let s := sendWord (setChan s c { w with discarded := satAdd 32 w.discarded n }) (c / 64) (cw 0x07 c (fin * 2 ^ 32 + 3 * 2 ^ 64))
  closeDone s c true

/-- WINDOW_CLOSE_TIMEOUT: incomplete blocks are discarded, and the close completes forced (R358). -/
def execWindowCloseTimeout (chan : Nat) (s : State) : Host.Outcome State Fault Refusal :=
  actIf (isChan s chan) s fun s => if (chanOf s chan).st != .closing then s else forceWindow s chan

/-- BLOCK_LAND: the oldest whole block of a RING ingress window lands in its ring (R350). -/
def execBlockLand (chan : Nat) (s : State) : Host.Outcome State Fault Refusal :=
  actIf (isChan s chan) s fun s =>
    let w := chanOf s chan
    match w.landing with
    | [] => s
    | b :: rest =>
      if !(ringActive s w.wd) || !(ringRoom s w.wd) then s
      else tryClose (landRing (setChan s chan { w with landing := rest }) chan b) chan

/-- HBM_BLOCK_LAND: the oldest whole block of an HBM ingress window is written, and PROD_OBJ rises (R353, R429). -/
def execHbmBlockLand (chan : Nat) (s : State) : Host.Outcome State Fault Refusal :=
  actIf (isChan s chan) s fun s =>
    let w := chanOf s chan
    let d := w.wd
    match w.landing with
    | [] => s
    | b :: rest =>
      if wdKind d != 2 || (w.st != .opened && w.st != .closing) then s
      else
        let a := hbmBlockAt s d w.cursor.toNat
        if blockApart s chan a b.length then loseWindow s chan
        else
          let s := hwrite (setChan s chan { w with landing := rest, cursor := w.cursor + 1, acked := w.cursor + 1 }) a b
          tryClose (portRaise (countBlock s chan) chan (wdProd d)) chan

/-- EGRESS_BLOCK_SEND (R349, R351, R353, R361), with what the controllers or the MU's scratchpad find in the block (R206, R418). -/
def execEgressBlockSend (block : BlockRead) (s : State) : Host.Outcome State Fault Refusal :=
  actIf (isChan s block.chan) s fun s =>
    let w := chanOf s block.chan
    let s := egressReads s block.chan block.reads
    if wdKind w.wd = 1 && egressReady s block.chan && nextWindow s (block.chan / 64) = some block.chan then
      sramRead s (ringSite (ctxOf s (wdCtx w.wd)) w.wd) block.sram fun s => tryEgress s block.chan
    else tryEgress s block.chan

/-- STREAM_HOLD_EXPIRY: the link has not come back within the stream hold time (R360). -/
def execStreamHoldExpiry (port : Nat) (s : State) : Host.Outcome State Fault Refusal :=
  actIf (isPort s port) s fun s =>
    if (tportOf s port).link == .up then s
    else (List.range 64).foldl (fun s i => if openedSince s (64 * port + i) then s else loseWindow s (64 * port + i)) s

/-- RECESS_PARTNER_SILENCE: P after a Recess, credit is withdrawn or blocks are unacknowledged, and the window is marked
rewind on resume (R294, R357). -/
def execRecessPartnerSilence (chan : Nat) (s : State) : Host.Outcome State Fault Refusal :=
  actIf (isChan s chan) s fun s =>
    let w := chanOf s chan
    let ctx := wdCtx w.wd
    if w.st != .opened || wdKind w.wd != 1 || (ctxOf s ctx).st != .recess || w.rewind then s
    else
      let mark (s : State) : State := modCtx s ctx fun x => { x with rewind := true }
      if wdEgress w.wd then
        if w.acked = w.cursor then s else mark (setChan s chan { w with rewind := true })
      else
        let e := expectedBlock w
        if !(behind e w.limit) then s
        else mark (sendWord (setChan s chan { w with rewind := true, revoked := true, limit := e, part := [], partBlock := none })
          (chan / 64) (cw 0x02 chan (e.toNat * 2 ^ 32)))

/-- The site of the shadow's ring of a window. -/
def shadowSite (x : Ctx) (d : Nat) : Nat :=
  let k := ringSite x d
  siteKey (partner (siteWing k)) (siteRow k) (siteCol k)

/-- TWIN_EGRESS_COMPARE: the shadow's CRC of its next block, which its MU holds whole, arrives (R361, R434). -/
def execTwinEgressCompare (chan : Nat) (sram : Sram) (s : State) : Host.Outcome State Fault Refusal :=
  actIf (isChan s chan) s fun s =>
    let w := chanOf s chan
    let x := ctxOf s (wdCtx w.wd)
    if !(maySend w) || wdKind w.wd != 1 || !(twinned s x) then s
    else match ringBlock s (shadowSite x w.wd) w with
      | none => s
      | some data => sramRead s (shadowSite x w.wd) sram fun s =>
          tryEgress (modChan s chan fun w => { w with shadowCrc := some (crc64 data) }) chan

/-- TWIN_EGRESS_TIMEOUT: the shadow's CRC of a block, or its increment of an object that the primary has raised, has not arrived, and the
shadow is FENCED (R361, R433, R434). -/
def execTwinEgressTimeout (late : TwinValue) (s : State) : Host.Outcome State Fault Refusal :=
  act s fun s =>
    match late with
    | .block chan =>
      let w := chanOf s chan
      let x := ctxOf s (wdCtx w.wd)
      if !(isChan s chan) || w.egressAt.isNone || w.shadowCrc.isSome || !(twinned s x) then s
      else fenceShadow (setChan s chan { w with egressAt := none }) (wingPair (siteWing (ringSite x w.wd))) 0x8004
    | .increment ctx obj =>
      let x := ctxOf s ctx
      match (List.range 4).find? fun w => fld x.strips (16 * w) 16 != 0 with
      | some w => if twinned s x && x.cmp.any (fun e => e.1 = obj && !e.2.1) then fenceShadow s (wingPair w) 0x8004 else s
      | none => s

end Sys2Proof.Machine
end

