-- ==== Sys2Proof/Machine/Dot.lean ====
section
/-! DEFINITION. The defined dot product (R67 to R84): operand pairs, weight expansion, k-groups and the running sum. -/

namespace Sys2Proof.Machine

/-- Formats the weight port expands or widens from (R67). -/
def isCompressed : Fmt → Bool
  | .int2 | .uint2 | .int4 | .uint4 => true
  | _ => false

/-- The rate class and accumulator kind of an operand pair; `none` for a pair R67 refuses. -/
def operandPair (act wgt : Fmt) : Option (RateClass × AccKind) :=
  match act with
  | .fp4 => if wgt == .fp4 then some (.fp4, .fp32) else none
  | .e4m3 | .e5m2 =>
    if wgt == .e4m3 || wgt == .e5m2 || wgt == .fp4 || isCompressed wgt then some (.fp8, .fp32) else none
  | .bf16 => if wgt == .bf16 || isCompressed wgt then some (.bf16, .fp32) else none
  | .fp16 => if wgt == .fp16 then some (.fp16, .fp32) else none
  | .int4 | .uint4 => if wgt == .int4 || wgt == .uint4 then some (.int4, .int32) else none
  | .int8 | .uint8 =>
    if wgt == .int8 || wgt == .uint8 || wgt == .int4 || wgt == .uint4 then some (.int8, .int32) else none
  | _ => none

/-- Whether a weight of this format is expanded under a WXC in a pass with this activation format (R67, R80). -/
def pairExpands (act wgt : Fmt) : Bool :=
  isCompressed wgt && (act == .e4m3 || act == .e5m2 || act == .bf16)

/-- Tile depth D: 128 for the FP4 and INT4 classes, 64 otherwise. -/
def tileDepth : RateClass → Nat
  | .fp4 | .int4 => 128
  | _ => 64

/-- ACLK per activation vector (R68). -/
def aclkPerVector : RateClass → Nat
  | .bf16 | .fp16 => 2
  | _ => 1

/-- The WXC fields of R80. -/
def wxcSource (w : Nat) : Nat := fld w 0 4
def wxcTarget (w : Nat) : Nat := fld w 4 4
def wxcMethod (w : Nat) : Nat := fld w 8 2
def wxcGroup (w : Nat) : Nat := fld w 10 2
def wxcZp (w : Nat) : Bool := bitOf w 12

/-- The target formats a pass with this activation format accepts (R67, R80). -/
def wxcTargetOk (act : Fmt) (t : Nat) : Bool :=
  match act with
  | .bf16 => t = 0x1
  | .e4m3 | .e5m2 => t = 0x3 || t = 0x4
  | _ => false

/-- The refusal cases of R80 that concern a format code (reason 0x03 of R115 under R52). -/
def wxcCodesOk (act wgt : Fmt) (w : Nat) : Bool :=
  wxcSource w = fmtCode wgt && isCompressed wgt && wxcTargetOk act (wxcTarget w)

/-- Every refusal case of R80 on the control word itself. -/
def wxcOk (act wgt : Fmt) (w : Nat) : Bool :=
  fld w 13 19 = 0 && (wxcMethod w = 1 || wxcMethod w = 2) && wxcGroup w != 3 &&
  wxcCodesOk act wgt w && !(wxcZp w && wxcMethod w = 1)

/-- Local groups per column of the group method for a tile of depth 64 (R83). -/
def wxcGroups (w : Nat) : Nat := if wxcGroup w = 0 then 2 else 1

/-- Bytes of the expansion parameter block (R81, R83). -/
def wxcBlockBytes (w : Nat) : Nat :=
  if wxcMethod w = 1 then 32
  else
    let g := wxcGroups w
    ceilDiv (128 * g + (if wxcZp w then 64 * g else 0)) 64 * 64

/-- The table entries a table-method block may hold (R81). DEDUCED (log entry 68): an entry beyond those a 2-bit source can name,
which R81 wants 0, is refused as bits [15:8] are. -/
def wxcTableOk (w : Nat) (blk : List Byte) : Bool :=
  wxcMethod w != 1 ||
  ((List.range 16).all fun i =>
    let e := leAt blk (2 * i) 2
    (wxcTarget w = 0x1 || e < 256) &&
    ((wxcSource w != 0xD && wxcSource w != 0xE) || i < 4 || e = 0))

/-- Expands one stored element of column `n` at tile row `k` to a code of the target format (R81, R82). -/
def expand (w : Nat) (blk : List Byte) (k n c : Nat) : Nat :=
  let tf := (fmtOf (wxcTarget w)).getD .bf16
  let sf := (fmtOf (wxcSource w)).getD .int4
  if wxcMethod w = 1 then
    let e := leAt blk (2 * c) 2
    if tf == .bf16 then e else e % 256
  else
    let g := wxcGroups w
    let j := if g = 2 then k / 32 else 0
    let s := readCode .bf16 (leAt blk (2 * (64 * j + n)) 2)
    let z := if wxcZp w then signed 8 (leAt blk (128 * g + 64 * j + n) 1) else 0
    let q := match readCode sf c with
      | .fin m _ => m
      | _ => 0
    (narrow tf (vmul (.fin (q - z) 0) s)).code

/-- The value a weight code enters the cells as: expanded, widened or as stored, then read under R59 (R67, R72). -/
def weightVal (act wgt : Fmt) (wxc : Nat) (blk : List Byte) (k n c : Nat) : FVal :=
  if pairExpands act wgt then readCode ((fmtOf (wxcTarget wxc)).getD .bf16) (expand wxc blk k n c)
  else readCode wgt c

/-- The exact sum of a group's products; NaN, 0 × ∞ and infinities of both signs give NaN (R72 to R74). -/
def groupExact (ps : List (FVal × FVal)) : FVal :=
  ps.foldl (fun s p => vadd s (vmul p.1 p.2)) (.fin 0 0)

/-- Saturates into INT32 and says whether that changed the value (R78). -/
def satAcc (t : Int) : Int × Bool :=
  let v := max (-2147483648) (min 2147483647 t)
  (v, v != t)

/-- Adds one non-empty k-group to a running sum code: R75 for FP32, R78 for INT32. The flag is a saturation. -/
def addGroup (kind : AccKind) (s : Nat) (ps : List (FVal × FVal)) : Nat × Bool :=
  match kind with
  | .fp32 => (fadd s (fp32 (groupExact ps)), false)
  | .int32 =>
    let g := match groupExact ps with
      | .fin m e => roundInt m e
      | _ => 0
    let r := satAcc (signed 32 s + g)
    (unsignedOf 32 r.1, r.2)

/-- The unmasked rows of k-group `j` in a pass of extent `d` (R69, R70). -/
def groupRows (d j : Nat) : List Nat :=
  ((List.range 32).map (32 * j + ·)).filter (· < d)

/-- One pass over one slot element: the non-empty k-groups in ascending group position (R70, R71, R75, R78). -/
def passElement (kind : AccKind) (depth d : Nat) (act wgt : Nat → FVal) (s : Nat) : Nat × Bool :=
  (List.range (depth / 32)).foldl (fun r j =>
    match groupRows d j with
    | [] => r
    | rows =>
      let q := addGroup kind r.1 (rows.map fun k => (act k, wgt k))
      (q.1, r.2 || q.2)) (s, false)

end Sys2Proof.Machine
end

