-- ==== Sys2Proof/Machine/Element.lean ====
section
/-! DEFINITION. The drain's element programs (R128 to R134): instructions, row reductions, and the correctly rounded
transcendental operations of R131. -/

namespace Sys2Proof.Machine

/-! ## 2^x, log2 x and 1 / √x, correctly rounded (R131) -/

/-- The least number of 25 significant bits that is not below `m * 2 ^ e`: the rounding boundary of FP32 above it. -/
def boundaryUp (m : Int) (e : Int) : Int × Int :=
  let d := m.natAbs.log2 - 24
  (-((-m) / (2 ^ d : Nat)), e + d)

/-- Rounds a value that is no rounding boundary and lies between two others closer than half a boundary's distance. Where the
two round apart, one boundary lies between them, and `above` says whether the value is greater than it: the rounding of R61 is
decided exactly in every case (R131). -/
def roundBetween (above : Int → Int → Bool) (m n e : Int) : Nat :=
  let a := fp32 (.fin m e)
  let b := fp32 (.fin n e)
  if a = b then a
  else
    let t := boundaryUp m e
    if above t.1 t.2 then b else a

/-- 2 ^ (m / 2 ^ k) is greater than M * 2 ^ E: both raised to 2 ^ k are whole powers. -/
def exp2Above (m : Int) (k : Nat) (M E : Int) : Bool :=
  let d := m - E * (2 ^ k : Nat)
  decide (0 ≤ d) && decide (M.toNat ^ 2 ^ k < 2 ^ d.toNat)

/-- log2 (a * 2 ^ e) is greater than M / 2 ^ k: 2 to the power of both, raised to 2 ^ k. -/
def log2Above (a : Nat) (e : Int) (M : Int) (k : Nat) : Bool :=
  let d := M - e * (2 ^ k : Nat)
  decide (d < 0) || decide (2 ^ d.toNat < a ^ 2 ^ k)

/-- Lower bounds of 2^(2^−1), 2^(2^−2), …, each with 192 fraction bits: the square root of the one before. -/
def rootChain : Nat → Nat → List Nat
  | 0, _ => []
  | n + 1, r => let q := isqrt (r * 2 ^ 192)
                q :: rootChain n q

/-- Bounds of 2^f with 192 fraction bits, for f given by its fraction bits, most significant first. -/
def exp2Frac : List Bool → List Nat → Nat × Nat → Nat × Nat
  | b :: bs, r :: rs, (lo, hi) =>
    exp2Frac bs rs (if b then (lo * r / 2 ^ 192, hi * (r + 1) / 2 ^ 192 + 1) else (lo, hi))
  | _, _, a => a

/-- 2^x for an FP32 code. -/
def fexp2 (x : Nat) : Nat :=
  match rd32 x with
  | .nan => canonNan .fp32
  | .inf neg => if neg then 0 else infCode .fp32 false
  | .fin m e =>
    if m = 0 then one32_
    else
      -- x = n + f / 2^64 with 0 ≤ f < 2^64, cut below 2^−64
      let v : Int := if 0 ≤ e + 64 then m * (2 ^ (e + 64).toNat : Nat) else m / (2 ^ (-(e + 64)).toNat : Nat)
      let n := v / (2 ^ 64 : Nat)
      let f := (v % ((2 ^ 64 : Nat) : Int)).toNat
      if 200 ≤ n then infCode .fp32 false
      else if n < -200 then 0
      else if f = 0 && (e + 64 ≥ 0 || m % (2 ^ (-(e + 64)).toNat : Nat) = 0) then fp32 (.fin 1 n)
      else
        let bits := (List.range 64).map fun i => f.testBit (63 - i)
        let r := exp2Frac bits (rootChain 64 (2 * 2 ^ 192)) (2 ^ 192, 2 ^ 192)
        -- the part cut below 2^−64 raises the value by less than 2^−63
        roundBetween (exp2Above m (-e).toNat) (r.1 : Nat) ((r.2 + r.2 / 2 ^ 62 + 1 : Nat) : Int) (n - 192)
where one32_ : Nat := 0x3F800000

/-- The bits of log2 of y / 2^512 for 1 ≤ y / 2^512 < 2, by repeated squaring of bounds; the answer is a lower and an upper
bound in units of 2^−(number of steps). -/
def log2Bits : Nat → Nat → Nat → Nat → Nat → Nat × Nat
  | 0, _, _, l, h => (l, h + 1)
  | n + 1, lo, hi, l, h =>
    let lo := lo * lo / 2 ^ 512
    let hi := hi * hi / 2 ^ 512 + 1
    if 2 ^ 513 ≤ lo then log2Bits n (lo / 2) (hi / 2 + 1) (2 * l + 1) (2 * h + 1)
    else if hi < 2 ^ 513 then log2Bits n lo hi (2 * l) (2 * h)
    else (2 ^ (n + 1) * l, 2 ^ (n + 1) * (h + 1))

/-- log2 x for an FP32 code. -/
def flog2 (x : Nat) : Nat :=
  match rd32 x with
  | .nan => canonNan .fp32
  | .inf neg => if neg then canonNan .fp32 else infCode .fp32 false
  | .fin m e =>
    if m = 0 then infCode .fp32 true
    else if m < 0 then canonNan .fp32
    else
      let a := m.natAbs
      let k := a.log2
      let n : Int := e + k
      if a = 2 ^ k then fp32 (.fin n 0)
      else
        let y := a * 2 ^ 512 / 2 ^ k
        let r := log2Bits 128 y y 0 0
        roundBetween (fun t d => log2Above a e t (-d).toNat) (n * (2 ^ 128 : Nat) + r.1) (n * (2 ^ 128 : Nat) + r.2) (-128)

/-- 1 / √x for an FP32 code, from the integer square root with a sticky bit. -/
def frsqrt (x : Nat) : Nat :=
  match rd32 x with
  | .nan => canonNan .fp32
  | .inf neg => if neg then canonNan .fp32 else 0
  | .fin m e =>
    if m = 0 then infCode .fp32 false
    else if m < 0 then canonNan .fp32
    else
      let a := if e % 2 = 0 then m.natAbs else 2 * m.natAbs
      let e := if e % 2 = 0 then e else e - 1
      let r := isqrt (2 ^ 160 / a)
      let exact := r * r * a = 2 ^ 160
      fp32 (.fin ((2 * r + (if exact then 0 else 1) : Nat) : Int) (-(e / 2) - 81))

/-! ## Instructions (R130, R131) -/

def inOp (w : Nat) : Nat := fld w 26 6
def inD (w : Nat) : Nat := fld w 21 5
def inA (w : Nat) : Nat := fld w 16 5
def inB (w : Nat) : Nat := fld w 11 5
def inC (w : Nat) : Nat := fld w 6 5
def inX (w : Nat) : Nat := fld w 0 6

/-- The defined opcodes (R131). -/
def opDefined (o : Nat) : Bool :=
  o ≤ 0x05 || (0x08 ≤ o && o ≤ 0x17) || o = 0x1C || o = 0x1D || (0x20 ≤ o && o ≤ 0x27) || o = 0x30 || o = 0x31 || o = 0x38

/-- An FP32 code read under R59 and written under R61. -/
def canon32 (c : Nat) : Nat := fp32 (rd32 c)

/-- What each lane of a row has at hand: the accumulator element, the element input, the column tables and the constants. -/
structure LaneIn where
  acc : Nat
  inp : Nat
  cols : List Nat
  deriving DecidableEq, Repr

/-- An exact integer saturated to INT32, as a code. -/
def sat32 (v : Int) : Nat := unsignedOf 32 (satInt .int32 v)

/-- The value an element-wise instruction writes in one lane; `none` for one that writes no register. DESIGN CHOICE (log entry 81): FSEL
looks at the operand that it selects alone, so a NaN in the other one makes no NaN (R61 says that any NaN input does, R131 excepts only a
NaN vA). -/
def lanesOp (w : Nat) (regs : List Nat) (x : LaneIn) (consts : List Nat) : Option Nat :=
  let a := regs.getD (inA w) 0
  let b := regs.getD (inB w) 0
  let c := regs.getD (inC w) 0
  let va := rd32 a
  let vb := rd32 b
  let ia := signed 32 a
  let ib := signed 32 b
  match inOp w with
  | 0x01 => some x.acc
  | 0x02 => some x.inp
  | 0x03 => some (x.cols.getD (inX w % 8) 0)
  | 0x04 => some (consts.getD (inX w % 32) 0)
  | 0x05 => some a
  | 0x08 => some (fp32 (vadd va vb))
  | 0x09 => some (fp32 (vadd va (vneg vb)))
  | 0x0A => some (fp32 (vmul va vb))
  | 0x0B => some (fp32 (vadd (vmul va vb) (rd32 c)))
  | 0x0C => some (fp32 (vmin va vb))
  | 0x0D => some (fp32 (vmax va vb))
  | 0x0E => some (fp32 (vabs va))
  | 0x0F => some (fp32 (vneg va))
  | 0x10 => some (fp32 (vdiv va vb))
  | 0x11 => some (fp32 (vsqrt va))
  | 0x12 => some (fp32 (vdiv (.fin 1 0) va))
  | 0x13 => some (frsqrt a)
  | 0x14 => some (fexp2 a)
  | 0x15 => some (flog2 a)
  | 0x16 => some (if vlt (.fin 0 0) va then canon32 b else canon32 c)
  | 0x17 => some (if va == .nan || vb == .nan then canonNan .fp32 else if vlt vb va then 0x3F800000 else 0)
  | 0x1C => some (fp32 (.fin ia 0))
  | 0x1D => some (unsignedOf 32 (toInt .int32 va).1)
  | 0x20 => some (sat32 (ia + ib))
  | 0x21 => some (sat32 (ia - ib))
  | 0x22 => some (sat32 (ia * ib))
  | 0x23 => some (unsignedOf 32 (min ia ib))
  | 0x24 => some (unsignedOf 32 (max ia ib))
  | 0x25 => some (unsignedOf 32 (ia / (2 ^ (inX w % 32) : Nat)))
  | 0x26 => some (Nat.land a b)
  | 0x27 => some (Nat.lor a b)
  | _ => none

/-- Pairwise combination of a list whose length is a power of two (R133). -/
def treeFold (f : Nat → Nat → Nat) : Nat → List Nat → List Nat
  | 0, l => l
  | n + 1, l => treeFold f n (pairUp l)
where
  /-- Neighbours combined. -/
  pairUp : List Nat → List Nat
    | a :: b :: r => f a b :: pairUp r
    | l => l

/-- The row value of RSUM or RMAX: each half by a tree of five levels, then the halves (R133). -/
def rowReduce (f : Nat → Nat → Nat) (vs : List Nat) : Nat :=
  f ((treeFold f 5 (vs.take 32)).headD 0) ((treeFold f 5 (vs.drop 32)).headD 0)

/-- One instruction on the 64 lanes of a row: the lanes' registers, and the values sent on OUT0 and OUT1. -/
def rowStep (ins : List LaneIn) (consts : List Nat) (s : List (List Nat) × List Nat × List Nat) (w : Nat) :
    List (List Nat) × List Nat × List Nat :=
  let put (regs : List Nat) (v : Nat) : List Nat := regs.set (inD w) v
  let column := s.1.map fun r => r.getD (inA w) 0
  if inOp w = 0x30 || inOp w = 0x31 then
    let v := if inOp w = 0x30 then rowReduce fadd column
      else rowReduce (fun a b => fp32 (vmax (rd32 a) (rd32 b))) column
    (s.1.map fun r => put r v, s.2)
  else if inOp w = 0x38 then
    if inX w % 2 = 0 then (s.1, column, s.2.2) else (s.1, s.2.1, column)
  else
    ((s.1.zip ins).map fun p => match lanesOp w p.1 p.2 consts with
      | some v => put p.1 v
      | none => p.1, s.2)

/-- An element program on one row: the 64 values of OUT0 and of OUT1 (R128, R134). -/
def runRow (prog consts : List Nat) (ins : List LaneIn) : List Nat × List Nat :=
  (prog.foldl (rowStep ins consts) (List.replicate 64 (List.replicate 32 0), [], [])).2

/-! ## Program headers (R129) -/

def phLen (h i : Nat) : Nat := if i < 4 then fld h (8 * i) 8 else fld h (32 + 8 * (i - 4)) 8
def phBase (h : Nat) : Nat := fld h 48 9
def phSatq (h : Nat) : Nat := fld h 92 2
def phQd (h ch : Nat) : Nat := fld h (if ch = 0 then 64 else 80) 10
def phInEn (h : Nat) : Bool := bitOf h 100
def phInFmt (h : Nat) : Nat := fld h 96 4
/-- Instructions of the whole program. -/
def phTotal (h : Nat) : Nat := sumOf ((List.range 6).map (phLen h))

/-- An element-input code widened to FP32 or INT32 (R53, R131). DEDUCED (log entry 70): an FP32 code is read under R59 as the
other floating-point codes are, since R142 does not name LDIN among the loads that pass a pattern unchanged. -/
def widen (f : Fmt) (c : Nat) : Nat :=
  match f with
  | .int32 => c
  | _ => if fmtIsFloat f then fp32 (readCode f c) else
    match readCode f c with
    | .fin m e => unsignedOf 32 (roundInt m e)
    | _ => 0

end Sys2Proof.Machine
end

