-- ==== Sys2Proof/Machine/Quant.lean ====
section
/-! DEFINITION. The quantiser (R85 to R104): the QD, its load checks, the scale from history and the conversions. A QD is
the number its 32 bytes spell, least significant byte first. -/

namespace Sys2Proof.Machine

/-- The QD fields of R86. -/
def qdDest (q : Nat) : Nat := fld q 0 4
def qdSource (q : Nat) : Nat := fld q 4 4
def qdMode (q : Nat) : Nat := fld q 8 2
def qdWindow (q : Nat) : Nat := fld q 10 4 + 1
def qdHeadroom (q : Nat) : Nat := fld q 14 3
def qdPow2 (q : Nat) : Bool := bitOf q 17
def qdLag (q : Nat) : Nat := fld q 18 1
def qdSeedValid (q : Nat) : Bool := bitOf q 19
def qdCalibValid (q : Nat) : Bool := bitOf q 20
def qdPerChannel (q : Nat) : Bool := bitOf q 21
def qdSeed (q : Nat) : Nat := fld q 32 32
def qdMult (q : Nat) : Nat := fld q 64 32
def qdShift (q : Nat) : Nat := fld q 96 6
def qdRcIndex (q : Nat) : Nat := fld q 104 8
def qdAddr (q : Nat) : Nat := fld q 128 64
def qdPages (q : Nat) : Nat := fld q 192 32
def qdCalibMax (q : Nat) : Nat := fld q 224 32

/-- The destination format of a QD. -/
def qdFmt (q : Nat) : Fmt := (fmtOf (qdDest q)).getD .fp32

/-- ZERO_POINT, unsigned for UINT8 and UINT4, two's complement for every other DEST (R86). -/
def qdZero (q : Nat) : Int :=
  match qdFmt q with
  | .uint8 | .uint4 => (fld q 24 8 : Nat)
  | _ => signed 8 (fld q 24 8)

/-- The target magnitude F (R89). -/
def qdTarget (q : Nat) : Int :=
  match qdFmt q with
  | .e4m3 => 240 | .e5m2 => 57344 | .fp4 => 6 | .fp16 => 65504
  | f => min ((fmtRange f).2 - qdZero q) (qdZero q - (fmtRange f).1)

/-- Reserved bits of a QD, those of R86's fields that are reserved under its mode included (R16). -/
def qdReservedOk (q : Nat) : Bool :=
  let area := qdCalibValid q || qdPerChannel q
  fld q 22 2 = 0 && fld q 112 16 = 0 && fld q 102 2 = 0 &&
  (qdMode q = 2 || (qdMult q = 0 && qdShift q = 0)) &&
  (area || qdAddr q = 0) &&
  (!area || qdAddr q % 4096 = 0) &&
  (qdCalibValid q || qdCalibMax q = 0)

/-- The integer destinations of R87. -/
def qdIntDest : Fmt → Bool
  | .int8 | .uint8 | .int4 | .uint4 => true
  | _ => false

/-- A seed is a finite FP32 value in [2^−126, 2^126] (R87). -/
def seedOk (c : Nat) : Bool := 0x00800000 ≤ c && c ≤ 0x7E800000

/-- The combinations of R87 apart from reserved bits and missing seeds. DESIGN CHOICE (log entry 81): PER_CHANNEL = 1 outside MODE RESCALE is
refused (R86 says that the field is for RESCALE only), while LAG and POW2 outside MODE HISTORY are ignored. -/
def qdComboOk (q : Nat) : Bool :=
  match fmtOf (qdDest q) with
  | none => false
  | some f =>
    let z := qdZero q
    let src := qdSource q
    let modeOk :=
      match qdMode q with
      | 0 => (src = 0x0 && fmtDrainOut f) || (src = 0x8 && (f == .int32 || qdIntDest f) && z == 0)
      | 2 => src = 0x8 && (f == .int32 || qdIntDest f) && qdShift q ≤ 62 &&
          (!qdPerChannel q || (1 ≤ qdPages q && qdMult q = 0 && qdShift q = 0))
      | m => src = 0x0 && (f == .e4m3 || f == .e5m2 || f == .fp4 || f == .fp16 || qdIntDest f) &&
          (m = 3 || !qdIntDest f || 1 ≤ qdTarget q)
    modeOk && (qdMode q = 2 || !qdPerChannel q) &&
    (if qdIntDest f then (fmtRange f).1 ≤ z && z ≤ (fmtRange f).2 else z == 0) &&
    (!qdSeedValid q || seedOk (qdSeed q)) &&
    (!qdCalibValid q || (1 ≤ qdCalibMax q && qdCalibMax q ≤ 0x7FFFFFFF &&
      ceilDiv (4 * qdCalibMax q) 4096 ≤ qdPages q))

/-- A HISTORY QD without seed and calibration buffer, or a LAG = 1 or FIXED QD without a seed (R99). -/
def qdSeedMissing (q : Nat) : Bool :=
  (qdMode q = 1 && !qdSeedValid q && (!qdCalibValid q || qdLag q = 1)) ||
  (qdMode q = 3 && !qdSeedValid q)

/-- FP32 1.0. -/
def one32 : Nat := 0x3F800000

/-- The least integer `e` with `2 ^ e ≥ n / d`, for positive `n` and `d`. -/
def ceilLog2 (n d : Nat) : Int :=
  let e : Int := (n.log2 : Int) - (d.log2 : Int)
  let le (k : Int) : Bool := if 0 ≤ k then n ≤ d * 2 ^ k.toNat else n * 2 ^ (-k).toNat ≤ d
  if le (e - 1) then e - 1 else if le e then e else e + 1

/-- The FP32 code of a power of two in the normal range. -/
def pow2Code (e : Int) : Nat := (e + 127).toNat <<< 23

/-- The scale, its reciprocal and whether the clamp changed it, from a window maximum above zero (R92). -/
def scaleFrom (q : Nat) (a : Nat) : Nat × Nat × Bool :=
  match rd32 a with
  | .fin m e =>
    let f := (qdTarget q).natAbs
    if qdPow2 q then
      let sh : Int := e + qdHeadroom q
      let n := if 0 ≤ sh then m.natAbs <<< sh.toNat else m.natAbs
      let d := if 0 ≤ sh then f else f <<< (-sh).toNat
      let k := ceilLog2 n d
      let c := max (-126) (min 126 k)
      (pow2Code c, pow2Code (-c), c != k)
    else
      let s := fp32 (vdiv (.fin m (e + qdHeadroom q)) (.fin f 0))
      let c := max 0x00800000 (min 0x7E800000 s)
      (c, fdiv one32 c, c != s)
  | _ => (one32, one32, false)

/-- The window maximum over the last W step maxima, newest first (R91). -/
def windowMax (q : Nat) (hist : List Nat) : Nat := (hist.take (qdWindow q)).foldl max 0

/-- The scale from a window maximum: s, r and FLAGS [5:2]; a window of zeros keeps the previous step's scale (R92, R93, R106). -/
def windowScale (q a : Nat) (prev : Option (Nat × Nat)) : Nat × Nat × Nat :=
  if a = 0 then
    let p := prev.getD (one32, one32)
    (p.1, p.2, 0b10000)
  else
    let r := scaleFrom q a
    (r.1, r.2.1, if r.2.2 then 0b100000 else 0)

/-- The scale of a step: s, r and FLAGS [5:2] (R93, R106). `formed` is what the home MU has formed for it from a window that is not
empty (R95); `none`: the step is a held step. -/
def stepScale (q : Nat) (formed : Option (Nat × Nat × Nat)) : Option (Nat × Nat × Nat) :=
  let seed := (qdSeed q, fdiv one32 (qdSeed q), 0b1000)
  match qdMode q with
  | 1 =>
    match formed with
    | some sc => some sc
    | none => if qdSeedValid q then some seed else none
  | 3 => some seed
  | _ => some (one32, one32, 0)

/-- What the conversion of one element wrote and recorded (R64, R66, R88, R100, R104). -/
structure Conv where
  code : Nat
  sat : Bool
  nan : Bool
  sqe : Nat
  maxAbs : Nat
  deriving DecidableEq, Repr

/-- The term T of R104 for an exact error. -/
def sqeTerm (e : FVal) : Nat :=
  match vmul e e with
  | .fin m k =>
    let sh : Int := k + 48
    let v := if 0 ≤ sh then m.natAbs <<< sh.toNat else m.natAbs >>> (-sh).toNat
    min v (2 ^ 80)
  | _ => 2 ^ 80

/-- |x| of a finite FP32 code; 0 for NaN and infinities, which do not enter the maximum (R90). -/
def absCode (c : Nat) : Nat :=
  match rd32 c with
  | .fin m e => fp32 (.fin m.natAbs e)
  | _ => 0

/-- Converts one FP32 element with reciprocal scale `r` under R88. -/
def convFloat (q r x : Nat) : Conv :=
  let f := qdFmt q
  let y := rd32 (fmul x r)
  let xv := rd32 x
  if fmtIsFloat f then
    let w := narrow f y
    let v := readCode f w.code
    let t := match v, y with
      | .fin _ _, .fin _ _ => sqeTerm (vadd y (vneg v))
      | .fin _ _, .inf _ => 2 ^ 80
      | _, _ => 0
    ⟨w.code, w.sat, w.nan, if xv == .nan || y == .nan then 0 else t, absCode x⟩
  else
    let z := qdZero q
    let lo := (fmtRange f).1
    let hi := (fmtRange f).2
    let mk (o : Int) := unsignedOf (fmtBits f) o
    match y with
    | .nan => ⟨mk z, false, true, 0, absCode x⟩
    | .inf neg => ⟨mk (if neg then lo else hi), true, false, 2 ^ 80, absCode x⟩
    | .fin m e =>
      let t := roundInt m e + z
      let o := max lo (min hi t)
      ⟨mk o, o != t, false, sqeTerm (vadd y (.fin (z - o) 0)), absCode x⟩

/-- Converts one INT32 element with multiplier and shift under R100. -/
def convRescale (q mult shift a : Nat) : Conv :=
  let f := qdFmt q
  let z := qdZero q
  let p := signed 32 a * signed 32 mult
  let u := (p + (if shift = 0 then 0 else 2 ^ (shift - 1))) / (2 ^ shift : Nat)
  let c := min ((fmtRange f).2 - z) (max ((fmtRange f).1 - z) u)
  ⟨unsignedOf (fmtBits f) (c + z), c != u, false, sqeTerm (vadd (.fin p (-(shift : Int))) (.fin (-c) 0)),
    fp32 (.fin (signed 32 a).natAbs 0)⟩

/-- Converts one INT32 element in MODE NONE: it saturates into the destination (R62, R87). DESIGN CHOICE (log entry 67): the spec
gives no error and no magnitude for this conversion; both are those of RESCALE with M = 1 and SHIFT = 0. -/
def convNoneInt (q a : Nat) : Conv := convRescale (setFld q 24 8 0) 1 0 a

/-- Converts one register value through a QD; `ent` is the per-channel entry of its column, if the QD has a table. -/
def convElem (q r : Nat) (ent : Option Nat) (x : Nat) : Conv :=
  if qdSource q = 0x8 then
    if qdMode q = 2 then
      match ent with
      | some e => convRescale q (fld e 0 32) (fld e 32 6) x
      | none => convRescale q (qdMult q) (qdShift q) x
    else convNoneInt q x
  else convFloat q r x

/-- A per-channel table entry that faults at first use (R101). -/
def channelEntryBad (e : Nat) : Bool := fld e 38 26 != 0 || fld e 32 6 = 63

end Sys2Proof.Machine
end

