-- ==== Sys2Proof/Machine/Tensors.lean ====
section
/-! DEFINITION. The quantiser's tensors and the Report Cards: conversion of a slot, held steps, the merge of a step and
resets (R86 to R110). -/

namespace Sys2Proof.Machine

/-- The QD of an index in the section of a site, with its home MU (R95, R258). -/
def homeQd (s : State) (k idx : Nat) : Option (Nat × Nat) :=
  (peerSites s k).findSome? fun j =>
    if siteIsCu j then none
    else let q := stEnt (muOf s j).stores 0x11 32 idx
         if q = 0 then none else some (j, q)

/-- The key of a tensor: its Report Card index; the shadow's own copy stands at 256 + index (R110, R432). -/
def tensorKey (s : State) (k card : Nat) : Nat := if onShadow s k then 256 + card else card

def tensorOf (s : State) (c key : Nat) : Tensor := sget Tensor.fresh (ctxOf s c).tensors key
def setTensor (s : State) (c key : Nat) (t : Tensor) : State :=
  modCtx s c fun x => { x with tensors := sset Tensor.fresh x.tensors key t }

/-- The first conversion of a step fixes its scale, or makes it a held step (R93, R97). -/
def beginStep (q : Nat) (t : Tensor) : Tensor :=
  if t.active then t
  else match stepScale q ((t.next.find? fun e => e.1 = t.steps).map (·.2)) with
    | some (a, b, f) => { t with active := true, cur := some (a, b), flags := f, held := false }
    | none => { t with active := true, cur := none, flags := 0, held := true }

/-- One conversion recorded in the step's partial (R90, R104). -/
def recordConv (t : Tensor) (v : Conv) : Tensor :=
  { t with sqe := t.sqe + v.sqe, count := t.count + 1, maxAbs := max t.maxAbs v.maxAbs, sat := t.sat + b2n v.sat,
           nan := t.nan + b2n v.nan }

/-- Converts the values of a slot, column by column entries where the QD has a table (R88, R100, R101). -/
def convAll (q r : Nat) (ents : List Nat) (vs : List Nat) (t : Tensor) : List Nat × Tensor :=
  let p := vs.zipIdx.foldl (fun (a : List Nat × Tensor) e =>
    let ent := if qdPerChannel q then ents[e.2 % 64]? else none
    let v := convElem q r ent e.1
    (v.code :: a.1, recordConv a.2 v)) ([], t)
  (p.1.reverse, p.2)

/-- Reads of `n` bytes of HBM4E from a page on, for an MU and a twin's copy: what the controllers meet there, and a fault of the MU at an
uncorrectable word or a far stack (R206, R207, R429). The answer says whether the bytes are delivered. -/
def tableRead (s : State) (x : Ctx) (k home a n : Nat) (r : HbmReads) : Bool × State :=
  let at_ := twinAddr s x (siteWing k) a
  let s := readThrough s at_ n r
  if s.health.split != 0 && apart s (siteWing k) (stackOf s at_ / 4) then (false, unitFault s home 0x8002)
  else match badIn s at_ n with
    | [] => (true, s)
    | w :: _ => (false, unitFault (recordAt (countUncorrectable s (32 * w)) home (.external home 0 0 (32 * w))) home 0x2003)

/-- The per-channel table of a QD, 64 entries (R101). -/
def channelTable (s : State) (x : Ctx) (k q : Nat) : List Nat :=
  (List.range 64).map fun n => mnat s.hbm (twinAddr s x (siteWing k) (qdAddr q + 8 * n)) 8

/-- A slot of a held step: what LDACC reads of it goes to the calibration buffer, and the values that its drain sends enter m_t (R97,
R134). DEDUCED and DESIGN CHOICE (log entry 69): the buffer holds the slot's own elements, which the release pass feeds to the same
program; the spec gives them no order there, and the n-th slot that is drained starts at element 4096 n, row by row. A word that is
written in part and is uncorrectable stays as it is (R207); CALIB_MAX is exceeded then, and the fault is that of R97. -/
def holdSlot (s : State) (c home q : Nat) (h : HeldSlot) (vs : List Nat) (t : Tensor) : State :=
  let x := ctxOf s c
  let first := 4096 * t.heldBuf.length
  let n := min 4096 (qdCalibMax q - first)
  let elems := h.drain.elems.getD []
  let word (i : Nat) : List Byte := ((List.range 8).filter fun j => decide (8 * i + j < n)).flatMap fun j => leBytes 4 (sget 0 elems (8 * i + j))
  let at_ (i : Nat) : Nat := twinAddr s x (siteWing h.site) (qdAddr q + 4 * first + 32 * i)
  let far := s.health.split != 0 && (List.range (ceilDiv n 8)).any fun i => apart s (siteWing h.site) (stackOf s (at_ i) / 4)
  let torn := n % 8 != 0 && sget false s.hbmBad (at_ (n / 8) / 32)
  let s := ((List.range (ceilDiv n 8)).filter fun i => !(torn && i = n / 8)).foldl (fun s i => hwrite s (at_ i) (word i)) s
  let t := { t with maxAbs := (vs.take n).foldl (fun m v => max m (absCode v)) t.maxAbs,
                    heldBuf := t.heldBuf ++ [{ h with first := first, drain := { h.drain with elems := none } }] }
  let s := setTensor s c (tensorKey s h.site (qdRcIndex q)) t
  if far then unitFault s home 0x8002 else if n < 4096 then unitFault s home 0x2005 else s

/-- What a drain's channel sends for a slot (R134). -/
inductive Sent
  | codes (cs : List Nat) (bits : Nat)
  | held
  | fault
  deriving DecidableEq, Repr

/-- The values of a slot through the QD of a channel; `sat` is the slot's ACC_SAT when SATQ names the channel (R102, R135). In tile
mode the quantiser and the Report Card are not used, and the values leave as they stand (R141). -/
def quantise (s : State) (c idx : Nat) (h : HeldSlot) (vs : List Nat) (sat : Bool) (reads : HbmReads) : Sent × State :=
  let k := h.site
  if idx = 0x3FF || (cuOf s k).tile then (.codes vs 32, s)
  else match homeQd s k idx with
    | none => (.codes vs 32, s)
    | some (home, q) =>
      let key := tensorKey s k (qdRcIndex q)
      let t := beginStep q (tensorOf s c key)
      let t := { t with acc := t.acc + b2n sat }
      let got := if qdPerChannel q then tableRead s (ctxOf s c) k home (qdAddr q) 512 reads else (true, s)
      let s := got.2
      let ents := if qdPerChannel q then channelTable s (ctxOf s c) k q else []
      if !got.1 then (.fault, s)
      else if ents.any channelEntryBad then (.fault, cuFault s k 0x1005 0 h.drain.req.handle h.drain.req.tag)
      else match t.cur with
        | none => (.held, holdSlot s c home q h vs t)
        | some (_, r) =>
          let p := convAll q r ents vs t
          (.codes p.1 (fmtBits (qdFmt q)), setTensor s c key p.2)

/-! ## Output words of a CU -/

/-- The words of one channel of a slot with the group that completes each: 128 groups of 32 elements (R134, R178). -/
def slotWords (bits tag term : Nat) (codes : List Nat) : List (Nat × FWord) :=
  let n := 4 * bits
  (laneWords tag term true n (packCodes bits codes)).zipIdx.map fun w => (1024 * (w.2 + 1) / (32 * bits), w.1)

/-- The queue entries of words, each with its circuit's slots, the number of the drain that sends them and its program (R239). -/
def markWords (n prog : Nat) (ws : List (Nat × FWord)) : List (Nat × FWord × Option (Nat × Nat)) :=
  ws.map fun w => (w.1, w.2, some (n, prog))

/-! ## Merge and reset -/

/-- A saturating 32-bit count and whether it stands at its maximum (R106). -/
def count32 (v k : Nat) : Nat × Bool := (satAdd 32 v k, decide (2 ^ 32 - 1 ≤ v + k))

/-- Adds clamp counts to a record. -/
def addClamps (r : RCard) (n : Nat) : RCard :=
  let c := count32 r.clamp n
  { r with clamp := c.1, flags := if c.2 then setFld r.flags 1 1 1 else r.flags }

/-- The record after a step's contributions (R105 to R107). -/
def mergeCard (r : RCard) (t : Tensor) (clamps fill : Nat) : RCard :=
  let sat := count32 r.sat t.sat
  let nan := count32 r.nan t.nan
  let clamp := count32 r.clamp clamps
  let acc := count32 r.acc t.acc
  let steps := count32 r.steps 1
  let cnt := bitOf r.flags 1 || sat.2 || nan.2 || clamp.2 || acc.2 || steps.2
  let sq := bitOf r.flags 0 || decide (2 ^ 128 - 1 ≤ r.sqe + t.sqe)
  { sqe := satAdd 128 r.sqe t.sqe, count := satAdd 64 r.count t.count, maxAbs := max r.maxAbs t.maxAbs,
    scale := (t.cur.map (·.1)).getD r.scale, sat := sat.1, nan := nan.1, clamp := clamp.1, acc := acc.1, steps := steps.1,
    flags := b2n sq + 2 * b2n cnt + Nat.land t.flags 0x3C + 256 * fill }

/-- The tensor with the maximum `a` of its step `n`, which converted with scale `cur`: the history keeps the last 16, and the home MU
forms the scale of step n + 1 + L from the window that ends at step n (R90, R91, R95). -/
def pushMax (q n a : Nat) (cur : Option (Nat × Nat)) (t : Tensor) : Tensor :=
  let hist := (a :: t.hist).take 16
  let prev := t.prev.or cur
  if qdMode q != 1 then { t with hist := hist, prev := cur, next := [] }
  else
    let sc := windowScale q (windowMax q hist) prev
    { t with hist := hist, prev := some (sc.1, sc.2.1),
             next := (t.next.filter fun e => decide (n < e.1)) ++ [(n + 1 + qdLag q, sc)] }

/-- The tensor between steps: what R96 lets it keep. -/
def stepDone (t : Tensor) : Tensor :=
  { Tensor.fresh with hist := t.hist, prev := t.prev, next := t.next, steps := t.steps }

/-- The tensor after its step has been merged (R90, R91). -/
def closeTensor (q : Nat) (t : Tensor) : Tensor :=
  { stepDone (pushMax q t.steps t.maxAbs t.cur t) with steps := t.steps + 1, merged := true }

/-! A step of a LAG = 1 tensor may end with its run before it is merged, as the next step does not wait (R95). The ended step then
stands at key 512 + the tensor's key until its merge. DESIGN CHOICE (log entry 72): at most one ended step waits for its merge. -/

/-- The merge of an ended step, each twin its own (R90, R107, R110). -/
def mergeLate (q card : Nat) (p : Sparse RCard × Sparse Tensor) : Sparse RCard × Sparse Tensor :=
  let one (m : Sparse Tensor) (key : Nat) : Sparse Tensor :=
    let l := sget Tensor.fresh m (lateKey key)
    if !l.active then m
    else sset Tensor.fresh (sset Tensor.fresh m key (pushMax q l.steps l.maxAbs l.cur (sget Tensor.fresh m key)))
      (lateKey key) Tensor.fresh
  let l := sget Tensor.fresh p.2 (lateKey card)
  let m := one p.2 card
  (if l.active then sset RCard.empty p.1 card
      (mergeCard (sget RCard.empty p.1 card) l l.clamp (sget Tensor.fresh m card).hist.length) else p.1, one m (256 + card))

/-- A tensor's step ends with its turn before its merge. -/
def leaveLate (m : Sparse Tensor) (key clamps : Nat) : Sparse Tensor :=
  let t := sget Tensor.fresh m key
  if !t.active then m
  else sset Tensor.fresh (sset Tensor.fresh m (lateKey key) { t with clamp := t.clamp + clamps }) key
    { stepDone t with steps := t.steps + 1, merged := true }

/-- The run's present turn is the last of its logical section, so that the steps of its tensors end with it (R90). -/
def lastOfSection (f : List Byte) (t : Nat) : Bool := secTurn f t + 1 = secNturns f t

/-- The turns of the logical section of a turn. -/
def sectionTurns (f : List Byte) (t : Nat) : List Nat :=
  (List.range (secNturns f t)).map fun i => t - secTurn f t + i

/-- The QD that the logical section of a turn names a Report Card in, with its index (R90, R103). -/
def sectionQd (f : List Byte) (t card : Nat) : Option (Nat × Nat) :=
  (sectionTurns f t).findSome? fun u => (qdsOf f u).find? fun e => qdRcIndex e.2 = card

/-- The QD of a context that names a Report Card (R87). -/
def fileQd (f : List Byte) (card : Nat) : Option Nat :=
  (List.range (hdrNsect f)).findSome? fun t => ((qdsOf f t).find? fun e => qdRcIndex e.2 = card).map (·.2)

/-- The QD of the present logical section that names a Report Card, with its index. -/
def cardQd (x : Ctx) (card : Nat) : Option (Nat × Nat) :=
  match x.syl, x.run with
  | some y, some r => sectionQd y.file r.turn card
  | _, _ => none

/-- An ended step of the card's tensor waits for its merge, at one twin or both. -/
def lateOpen (x : Ctx) (card : Nat) : Bool :=
  (sget Tensor.fresh x.tensors (lateKey card)).active || (sget Tensor.fresh x.tensors (lateKey (256 + card))).active

/-- The step of a card's tensor in the run under way has not ended (R109): the last turn of its logical section is still to end. -/
def stepOpen (x : Ctx) (card : Nat) : Bool :=
  match x.syl, x.run with
  | some y, some r =>
    !(sget Tensor.fresh x.tensors card).merged &&
    ((List.range (hdrNsect y.file)).any fun t =>
      decide (r.turn ≤ t) && lastOfSection y.file t && (sectionQd y.file t card).isSome)
  | _, _ => false

/-- The primary's sites of a context. -/
def ownSites (x : Ctx) : List Nat := maskSites x.strips

/-- The sites of a context's shadow (R432). -/
def twinSites (s : State) (x : Ctx) : List Nat := maskSites (shadowMask s x.strips)

/-- Clamp counts that the MUs of the turn hold for an index (R103, R159). -/
def turnClamps (s : State) (c card : Nat) : Nat :=
  sumOf (((ownSites (ctxOf s c)).filter fun k => !(siteIsCu k)).map fun k => sget 0 (muOf s k).clampTab card)

/-- The clamp counts for an index leave the MUs. -/
def takeClamps (s : State) (c card : Nat) : State :=
  ((maskSites (ctxMask s (ctxOf s c))).filter fun k => !(siteIsCu k)).foldl (fun s k =>
    modMu s k fun u => { u with clampTab := sset 0 u.clampTab card 0 }) s

/-- All units of the primary have completed their part of the turn. -/
def unitsFin (s : State) (c : Nat) : Bool := (ownSites (ctxOf s c)).all fun k => unitFin s k

/-- All units of the shadow have. -/
def twinsFin (s : State) (c : Nat) : Bool := (twinSites s (ctxOf s c)).all fun k => unitFin s k

/-- A step that has ended is merged: the tensor, its Report Card, and what they were before the run in progress (R90, R323). The resets
that wait for that step follow, not those that wait for a step of the present run (R109). -/
def mergeEnded (s : State) (c q card : Nat) : State :=
  let s := modCtx s c fun x =>
    let p := mergeLate q card (x.cards, x.tensors)
    { x with cards := p.1, tensors := p.2, before := x.before.map (mergeLate q card) }
  applyResets s c (· = lateKey card)

/-- The primary's step of a card's tensor is merged (R95, R107). -/
def mergeOwn (s : State) (c q card : Nat) : State :=
  let x := ctxOf s c
  let t := tensorOf s c card
  let n := closeTensor q t
  let rec_ := mergeCard (cardOf x card) t (t.clamp + turnClamps s c card) n.hist.length
  let s := takeClamps s c card
  setTensor (modCtx s c fun x => { x with cards := sset RCard.empty x.cards card rec_ }) c card n

/-- The step of a key may be merged: it has a scale, and the units that convert it have completed the last turn (R90). -/
def mayMerge (s : State) (c key : Nat) : Bool :=
  let t := tensorOf s c key
  let x := ctxOf s c
  t.active && t.cur.isSome && (x.run.any (·.zero) || (if shadowKey key then twinsFin s c else unitsFin s c))

/-- STEP_MERGE: the home MU merges the step of a card's tensor, each twin its own (R90, R95, R107, R110). A reset that waits for the
step follows once both twins have merged (R109). -/
def execStepMerge (ctx card : Nat) (s : State) : Host.Outcome State Fault Refusal :=
  actIf (decide (ctx < 64) && decide (card < 256)) s fun s =>
    let x := ctxOf s ctx
    match x.syl with
    | none => s
    | some y =>
      match fileQd y.file card with
      | none => s
      | some q =>
        if lateOpen x card then mergeEnded s ctx q card
        else if !(executes x) || !(x.run.any fun r => lastOfSection y.file r.turn && (sectionQd y.file r.turn card).isSome) then s
        else
          let own := mayMerge s ctx card
          let twin := mayMerge s ctx (256 + card)
          let s := if own then mergeOwn s ctx q card else s
          let s := if twin then setTensor s ctx (256 + card) (closeTensor q (tensorOf s ctx (256 + card))) else s
          if (own || twin) && !(tensorOf s ctx card).active && !(tensorOf s ctx (256 + card)).active then
            applyResets s ctx (· = card)
          else s

end Sys2Proof.Machine
end

