-- ==== Sys2Proof/Machine/Compute.lean ====
section
/-! DEFINITION. The Compute Unit: the pass sequencer (R113 to R115), the weight lane (R116, R117, R482), slots and handles
(R118 to R122), firing (R123), steering (R125 to R127) and the drain (R128 to R137). -/

namespace Sys2Proof.Machine

/-! ## Pass descriptors (R113) -/

def pdAct (d : Nat) : Nat := fld d 28 4
def pdWgt (d : Nat) : Nat := fld d 24 4
def pdExtent (d : Nat) : Nat := fld d 16 7 + 1
def pdVectors (d : Nat) : Nat := fld d 10 6 + 1
def pdInit (d : Nat) : Nat := fld d 8 2
def pdSwap (d : Nat) : Bool := bitOf d 7
def pdWexp (d : Nat) : Bool := bitOf d 6
def pdHandle (d : Nat) : Nat := fld d 0 6
def pdTag (d : Nat) : Nat := fld d 48 16
def pdLast (d : Nat) : Bool := bitOf d 47
def pdDrain (d : Nat) : Nat := fld d 44 3
def pdNext (d : Nat) : Nat := fld d 32 10
def pdHstep (d : Nat) : Nat := fld d 88 6
def pdTstep (d : Nat) : Nat := fld d 80 8
def pdRm1 (d : Nat) : Nat := fld d 64 16
def pdType (d : Nat) : Nat := fld d 124 4
def pdTable (d : Nat) : Nat := fld d 96 3

/-- The formats of a pass. -/
def pdActFmt (d : Nat) : Fmt := (fmtOf (pdAct d)).getD .e4m3
def pdWgtFmt (d : Nat) : Fmt := (fmtOf (pdWgt d)).getD .e4m3

/-- Rate class and accumulator kind of a pass (R67). -/
def pdPair (d : Nat) : Option (RateClass × AccKind) :=
  match fmtOf (pdAct d), fmtOf (pdWgt d) with
  | some a, some w => operandPair a w
  | _, _ => none

/-- Descriptor `i` of a CU. -/
def seqDesc (u : CU) (i : Nat) : Nat := stEnt u.stores 0x01 16 i
/-- Header of element program `p`. -/
def progHead (u : CU) (p : Nat) : Nat := stEnt u.stores 0x03 16 p
def handleOf (u : CU) (h : Nat) : Handle := sget Handle.none u.handles h
def setHandle (u : CU) (h : Nat) (v : Handle) : CU := { u with handles := sset Handle.none u.handles h v }
def slotOf (u : CU) (j : Nat) : Slot := sget Slot.free u.slots j
def setSlot (u : CU) (j : Nat) (v : Slot) : CU := { u with slots := sset Slot.free u.slots j v }

/-- Reserved bits of a descriptor (R113): for the types other than pass, every field but HANDLE, TAG, DRAIN, NEXT and TABLE. -/
def pdReservedOk (d : Nat) : Bool :=
  fld d 23 1 = 0 && fld d 42 2 = 0 && fld d 94 2 = 0 && fld d 99 25 = 0 &&
  (if pdType d = 0 then pdTable d = 0 else fld d 6 26 = 0 && !(pdLast d) && fld d 64 32 = 0)

/-- What the tile that a reusing pass finds must agree with: weight format, expansion and class of the latest pass in
decode order that swaps, or of the active tile (R116). -/
def reuseOk (u : CU) (d : Nat) : Bool :=
  let cls := (pdPair d).map (·.1)
  match (u.window.filter fun p => pdSwap (seqDesc u p.desc)).getLast? with
  | some p => let e := seqDesc u p.desc
              pdWgt e = pdWgt d && pdWexp e == pdWexp d && (pdPair e).map (·.1) == cls
  | none =>
    match u.active with
    | some t => fmtCode t.wgt = pdWgt d && t.wexp == pdWexp d && (operandPair t.act t.wgt).map (·.1) == cls
    | none => true

/-- The matrix block serves Apevo's matrix instruction in the classes BF16 and FP8 only (R141). -/
def tileClassOk (d : Nat) : Bool :=
  match pdPair d with
  | some p => p.1 == .bf16 || p.1 == .fp8
  | none => false

/-- The reason under which a descriptor is refused (R115). DESIGN CHOICE (log entry 62): the spec gives no order; a reserved TYPE (5)
is tested first, since it fixes which bits are reserved, then the reasons 1, 2, 4, 5 and 6 in this order. DESIGN CHOICE (log entry
79): in tile mode a pair of another class than R141 allows is refused with reason 2. -/
def pdReason (u : CU) (d : Nat) : Option Nat :=
  let ty := pdType d
  if 3 < ty then some 5
  else if !(pdReservedOk d) then some 1
  else if ty = 0 && ((pdPair d).isNone || (pairExpands (pdActFmt d) (pdWgtFmt d) && !(pdWexp d)) ||
      (!(pdSwap d) && !(reuseOk u d)) || (u.tile && !(tileClassOk d))) then some 2
  else if ty = 0 && (match pdPair d with | some p => decide (tileDepth p.1 < pdExtent d) | none => false) then some 4
  else if (ty = 0 && pdInit d = 3) || (4 ≤ pdDrain d && pdDrain d != 7) || (ty = 3 && pdDrain d = 7) then some 5
  else if ((ty = 0 && pdLast d && pdDrain d < 4) || ty = 3) && progHead u (pdDrain d) = 0 then some 6
  else none

/-! ## Steering (R125 to R127) -/

/-- A drain with program `p` sends on a steered channel. -/
def steers (u : CU) (p ch : Nat) : Bool := p < 4 && phEn (progHead u p) ch && u.steered.getLsbD ch

/-- The tokens that a slot needs are matched. -/
def tokensMet (u : CU) (r : DrainReq) : Bool :=
  (!(steers u r.prog 0) || r.tok0.isSome) && (!(steers u r.prog 1) || r.tok1.isSome)

/-- READY slots that wait in the matching store of a channel. -/
def waitingSlots (u : CU) (ch : Nat) : List DrainReq :=
  u.ready.filter fun r => r.ready && steers u r.prog ch && (if ch = 0 then r.tok0 else r.tok1).isNone

/-- LAST passes that have fired and whose slots will wait in a channel's matching store (R127). -/
def comingSlots (u : CU) (ch : Nat) : Nat :=
  (((u.firing.map (·.pass)).toList.filter (·.last) ++ u.streamed).filter fun p =>
    steers u (handleOf u p.handle).prog ch && !(u.tokens.any fun t => t.1 = ch && t.2.1 = p.tag)).length

/-- Entries of a matching store (R126). -/
def storeFill (u : CU) (ch : Nat) : Nat := (u.tokens.filter fun t => t.1 = ch).length + (waitingSlots u ch).length

/-- A READY slot with an ordered drain meets the tokens that wait for it. -/
def matchSlot (u : CU) (r : DrainReq) : CU × DrainReq :=
  let take (a : CU × DrainReq) (ch : Nat) : CU × DrainReq :=
    if steers a.1 r.prog ch then
      match takeFirst (fun t => t.1 = ch && t.2.1 = r.tag) a.1.tokens with
      | some (t, rest) => ({ a.1 with tokens := rest },
          if ch = 0 then { a.2 with tok0 := some t.2.2 } else { a.2 with tok1 := some t.2.2 })
      | none => a
    else a
  take (take (u, r) 0) 1

/-- A matching store holds its entries and those that fired LAST passes will bring. -/
def storeFits (u : CU) (ch : Nat) : Bool := decide (storeFill u ch + comingSlots u ch ≤ 4)

/-- A LAST pass would add a fifth waiting slot to a matching store (R127). -/
def fifthWait (u : CU) (p : Pass) : Bool :=
  p.last && (List.range 2).any fun ch =>
    steers u (handleOf u p.handle).prog ch && decide (4 ≤ storeFill u ch + comingSlots u ch) &&
    !(u.tokens.any fun t => t.1 = ch && t.2.1 = p.tag)

/-! ## The weight lane (R116, R121, R482) -/

/-- Bytes of the tile at the head of the stream, as far as its control word tells (R80, R83, R117). -/
def tileBytes (act wgt : Fmt) (wexp : Bool) (buf : List Byte) : Nat :=
  let rows := 8 * fmtBits wgt * (match operandPair act wgt with | some p => tileDepth p.1 | none => 64)
  if !wexp then rows
  else if buf.length < 4 then 4
  else
    let w := leAt buf 0 4
    let src := (fmtOf (wxcSource w)).getD .int4
    if wxcOk act src w && src == wgt then 4 + wxcBlockBytes w + rows else 4

/-- Bytes that an item takes. -/
def itemBytes (u : CU) : Item → Nat
  | .load _ _ => 16384
  | .tile a w x => tileBytes a w x u.itemBuf
  | .table _ => 256
  | .elem _ f => 512 * fmtBits f

/-- Whether the stream may take the words of its head item: a tile waits for the shadow, a load for its slot. -/
def itemOpen (u : CU) : Item → Bool
  | .tile _ _ _ => u.shadow.isNone
  | .load h _ => (handleOf u h).slot.isSome
  | _ => true

/-- Takes up to `n` bytes from the weight FIFO; a word that is used up returns its credit. -/
def takeWgt : Nat → State → Nat → Nat → State
  | 0, s, _, _ => s
  | f + 1, s, k, n =>
    let u := cuOf s k
    match u.wgt with
    | [] => s
    | w :: r =>
      if n = 0 then s
      else
        let bs := (w.word.data.drop u.wgtOff).take n
        let off := u.wgtOff + bs.length
        let u := { u with itemBuf := u.itemBuf ++ bs }
        if off < w.word.data.length then setCu s k { u with wgtOff := off }
        else takeWgt f (laneCredit (setCu s k { u with wgt := r, wgtOff := 0 }) k w) k (n - bs.length)

/-- The sequencer steps past the descriptor or repetition it has decoded (R114). -/
def seqAdvance (u : CU) (d : Nat) : CU :=
  if pdType d = 0 && u.rep < pdRm1 d then { u with rep := u.rep + 1, gateOpen := false, waitSince := none }
  else { u with pos := pdNext d, rep := 0, gateOpen := false, waitSince := none }

/-- An item whose bytes are complete takes effect; a tile waits for WEIGHT_TILE_COMPLETE (R113, R121, R131). -/
def itemDone (u : CU) : Item → Option CU
  | .tile _ _ _ => none
  | .load h kind =>
    let codes := (List.range 4096).map fun i =>
      let c := leAt u.itemBuf (4 * i) 4
      if kind == .fp32 then canon32 c else c
    match (handleOf u h).slot with
    | none => none
    | some j =>
      let u := setSlot u j { bound := true, elems := splice 0 [] 0 codes, kind := some kind, sat := false }
      some { u with items := u.items.drop 1, itemBuf := [],
                    window := u.window.map fun p => if p.handle = h && p.alloc then { p with loaded := true } else p }
  | .table n =>
    let u := { u with tables := (List.range 64).foldl (fun m i => sset 0 m (64 * n + i) (leAt u.itemBuf (4 * i) 4)) u.tables,
                      items := u.items.drop 1, itemBuf := [] }
    some (seqAdvance u (seqDesc u u.pos))
  | .elem h _ =>
    some (setHandle { u with items := u.items.drop 1, itemBuf := [] } h { handleOf u h with elem := some u.itemBuf })

/-- The weight lane feeds the items of its stream in order. -/
def feedItems : Nat → State → Nat → State
  | 0, s, _ => s
  | f + 1, s, k =>
    let u := cuOf s k
    match u.items with
    | [] => s
    | i :: _ =>
      if !(itemOpen u i) then s
      else if u.itemBuf.length < itemBytes u i then
        if u.wgt.isEmpty then s
        else feedItems f (takeWgt 40 s k (itemBytes u i - u.itemBuf.length)) k
      else match itemDone u i with
        | some u => feedItems f (setCu s k u) k
        | none => s

/-- Feeds the stream as far as the words in the FIFO go. -/
def pumpWgt (s : State) (k : Nat) : State := feedItems 600 s k

/-! ## Physical slots (R120) -/

/-- The oldest waiting allocation takes a free slot (R118, R120): the lowest one (DESIGN CHOICE, log entry 65: the spec does not say
which). The slot's ACC_SAT is cleared with it, and by a load once its data are there (R78, R121). -/
def bindWaiting (u : CU) : CU :=
  match u.window.find? fun p => p.alloc && (handleOf u p.handle).slot.isNone,
        (List.range 16).find? fun j => !(slotOf u j).bound with
  | some p, some j =>
    let u := setSlot u j { Slot.free with bound := true, sat := !p.loaded && (slotOf u j).sat }
    setHandle u p.handle { handleOf u p.handle with slot := some j }
  | _, _ => u

/-! ## Decode -/

/-- The sequencer may decode the descriptor it stands at: it has one, its gate is open, and no column table is awaited. -/
def mayDecode (s : State) (k : Nat) : Bool :=
  let u := cuOf s k
  unitLive s k && u.run && !u.fin && u.pos != 0x3FF && u.cur.isSome &&
  !(u.items.any fun i => match i with | .table _ => true | _ => false) &&
  (match gateFor u.stores u.pos with
    | some w => u.gateOpen || testWait s k w u.rep == .holds
    | none => true)

/-- The tag base of the grant in hand (R114). -/
def tagBase (u : CU) : Nat := (u.cur.map Grant.tagBase).getD 0

/-- A drain is ordered on a handle: its element input follows in the stream (R113, R131, log entry 21). -/
def orderDrain (u : CU) (h p : Nat) (byDesc : Bool) : CU :=
  let u := setHandle u h { handleOf u h with st := .ready, ordered := true, prog := p, byDesc := byDesc }
  let hd := progHead u p
  let u := { u with committed := u.committed - 1 }
  if phInEn hd then { u with items := u.items ++ [.elem h ((fmtOf (phInFmt hd)).getD .fp32)] } else u

/-- A handle whose drain is ordered while its slot is READY already. -/
def orderReady (u : CU) (h p : Nat) : CU :=
  match takeFirst (fun r => r.handle = h && !r.ready) u.ready with
  | none => u
  | some (r, _) =>
    let q := matchSlot u { r with prog := p, ready := true, byDesc := true }
    { q.1 with ready := u.ready.map fun e => if e.handle = h && !e.ready then q.2 else e }

/-- A pass that has been decoded enters the window (R114, R118, R119). -/
def pushPass (u : CU) (d : Nat) (kind : AccKind) (alloc last : Bool) (h tag : Nat) : CU :=
  let load := alloc && pdInit d = 2
  let u := if alloc then
      setHandle { u with committed := u.committed + 1 } h { Handle.none with st := .accum, kind := some kind }
    else setHandle u h { handleOf u h with kind := some kind }
  let u := { u with
    window := u.window ++ [{ desc := u.pos, rep := u.rep, handle := h, tag := tag, alloc := alloc, last := last, loaded := !load }],
    items := u.items ++ (if load then [.load h kind] else []) ++
      (if pdSwap d then [.tile (pdActFmt d) (pdWgtFmt d) (pdWexp d)] else []) }
  let u := if alloc then bindWaiting u else u
  if last then
    if pdDrain d < 4 then orderDrain u h (pdDrain d) false else setHandle u h { handleOf u h with st := .ready }
  else u

/-- A held step or a release pass still has slot `num` of a CU, or any of its slots, to send (R97). -/
def heldSlotOf (t : Tensor) (k : Nat) (num : Option Nat) : Bool :=
  let hit (n : Nat) : Bool := match num with
    | some m => n = m
    | none => true
  (t.heldBuf.any fun h => h.site = k && hit h.num) || (t.heldDone.any fun h => h.1 = k && hit h.2.1)

/-- A tensor of the context still has slot `num` of a CU, or any of its slots, in a held step or a release pass. -/
def slotHeld (s : State) (k : Nat) (num : Option Nat) : Bool :=
  match siteCtx s k with
  | some c => (ctxOf s c).tensors.any fun e => heldSlotOf e.2 k num
  | none => false

/-- A CU's part of the run is complete once its sequencer has ended, no tile remains and nothing is under way (R114,
R227, R239). -/
def settleCu (s : State) (k : Nat) : State :=
  let u := cuOf s k
  if u.run && !u.fin && u.pos = 0x3FF && noMoreGrants u.stores u.cur && u.cur.isSome && u.window.isEmpty &&
      u.firing.isNone && u.streamed.isEmpty && u.drain.isNone && !(u.ready.any (·.ready)) && u.outq.isEmpty &&
      u.items.isEmpty && !(slotHeld s k none) then
    partRoutes (setCu s k { u with fin := true }) k
  else s

/-- A slot is released: free, with its ACC_SAT until it is cleared or loaded next (R78). -/
def freeSlot (u : CU) (j : Nat) : CU := setSlot u j { Slot.free with sat := (slotOf u j).sat }

/-- A block of a CU at a handle: HAZARD at once under the Hall Monitor, else it waits (R122). -/
def blockCu (s : State) (k h tag : Nat) : State :=
  if monitored s k then recFault s k 0x4003 (.handle k h tag)
  else modCu s k fun u => { u with waitSince := some (u.waitSince.getD s.fclk) }

/-- Drains that have been ordered and have not left the drain (R113). -/
def drainsOrdered (u : CU) : Bool :=
  u.drain.isSome || u.ready.any (·.ready) || (u.handles.any fun e => e.2.ordered)

/-- A TYPE 0x1 descriptor waits at decode: for the drains ordered before it, or for its words (R113, R482). -/
def tableWaits (u : CU) : Bool :=
  u.pos != 0x3FF && u.cur.isSome && pdType (seqDesc u u.pos) = 1 &&
    (drainsOrdered u || u.items.any fun i => match i with | .table _ => true | _ => false)

/-- The tag at the head of the activation lane is one that neither the streaming pass nor, with none streaming, a pass of the window
takes (R124; DEDUCED, log entry 64: a word of another tag also stops the pass that streams). -/
def laneStuck (u : CU) : Option Nat :=
  match u.act with
  | w :: _ =>
    let taken := match u.firing with
      | some f => f.pass.tag = w.word.tag
      | none => u.window.any fun p => p.tag = w.word.tag
    if u.run && !taken then some w.word.tag else none
  | [] => none

/-- The activation lane is blocked for good: what it is stuck at cannot end by the next decode, as a pass streams, the window is full,
no pass is to come in this grant, or a column table holds the sequencer (R124; DEDUCED, log entry 64: a pass still to be decoded may
match). -/
def laneBlocked (u : CU) : Option Nat :=
  if u.firing.isSome || decide (4 ≤ u.window.length) || (u.pos = 0x3FF && u.cur.isSome) || tableWaits u then laneStuck u else none

/-- A blocked activation lane is a HAZARD at once under the Hall Monitor (R124). -/
def checkLane (s : State) (k : Nat) : State :=
  match laneBlocked (cuOf s k) with
  | some tag => if unitLive s k && monitored s k then recFault s k 0x4003 (.lane k 4 tag) else s
  | none => s

/-- PASS_DESCRIPTOR: the sequencer decodes a repetition of a pass, or a descriptor of a reserved type (R113 to R122). -/
def execPassDescriptor (unit : At) (s : State) : Host.Outcome State Fault Refusal :=
  atRow isCu unit s fun site s =>
    let u := cuOf s site
    let d := seqDesc u u.pos
    if !(mayDecode s site) || (1 ≤ pdType d && pdType d ≤ 3) then s
    else
      let h := (pdHandle d + u.rep * pdHstep d) % 64
      let tag := (pdTag d + tagBase u + u.rep * pdTstep d) % 65536
      match pdReason u d, pdPair d with
      | some r, _ => cuFault s site 0x1006 r h tag
      | none, none => s
      | none, some (_, kind) =>
        if 4 ≤ u.window.length then s
        else
          let alloc := pdInit d != 0 && (pdHstep d != 0 || u.rep = 0)
          let last := pdLast d && (pdHstep d != 0 || u.rep = pdRm1 d)
          let hd := handleOf u h
          if alloc then
            if 16 ≤ u.committed then cuFault s site 0x1001 0 h tag
            else if hd.st != .unbound then blockCu s site h tag
            else checkLane (pumpWgt (setCu s site (seqAdvance (pushPass u d kind true last h tag) d)) site) site
          else if hd.st != .accum then cuFault s site 0x1007 0 h tag
          else if hd.kind.any (· != kind) then cuFault s site 0x1004 0 h tag
          else checkLane (pumpWgt (setCu s site (seqAdvance (pushPass u d kind false last h tag) d)) site) site

/-- COLUMN_TABLE_LOAD: a TYPE 0x1 descriptor, once every drain ordered before it has left, takes its 64 words from the
weight lane (R113, R482). -/
def execColumnTableLoad (unit : At) (s : State) : Host.Outcome State Fault Refusal :=
  atRow isCu unit s fun site s =>
    let u := cuOf s site
    let d := seqDesc u u.pos
    if !(mayDecode s site) || pdType d != 1 then s
    else match pdReason u d with
      | some r => cuFault s site 0x1006 r (pdHandle d) (pdTag d + tagBase u)
      | none =>
        if drainsOrdered u then checkLane s site
        else settleCu (checkLane (pumpWgt (setCu s site { u with items := u.items ++ [.table (pdTable d)] }) site) site) site

/-- A pass that the window, the cells or the drain still hold names the handle. -/
def handleInUse (u : CU) (h : Nat) : Bool :=
  (u.window.any fun p => p.handle = h) || (u.firing.any fun f => f.pass.handle = h) ||
  (u.streamed.any fun p => p.handle = h)

/-- A TYPE 0x2 or TYPE 0x3 descriptor is refused with SLOT_UNBOUND; a drain that is already ordered on the handle runs to its end
(R122). -/
def refuseHandle (s : State) (k h tag : Nat) : State :=
  let s := modCu s k fun u => if (handleOf u h).ordered then { u with runOut := some h } else u
  cuFault s k 0x1007 0 h tag

/-- FREE_HANDLE: a TYPE 0x2 descriptor unbinds a handle without draining it (R118, R119, R122). DESIGN CHOICE (log entry 66): the spec
does not say what becomes of passes of the handle that are still in the window or stream, and the descriptor waits for them at
decode. -/
def execFreeHandle (unit : At) (s : State) : Host.Outcome State Fault Refusal :=
  atRow isCu unit s fun site s =>
    let u := cuOf s site
    let d := seqDesc u u.pos
    let h := pdHandle d
    if !(mayDecode s site) || pdType d != 2 then s
    else match pdReason u d with
      | some r => cuFault s site 0x1006 r h (pdTag d + tagBase u)
      | none =>
        let hd := handleOf u h
        if hd.st == .unbound || hd.ordered then refuseHandle s site h (pdTag d + tagBase u)
        else if handleInUse u h then s
        else
          let u := match hd.slot with
            | some j => freeSlot u j
            | none => u
          let u := setHandle { u with committed := u.committed - 1, ready := u.ready.filter fun r => r.handle != h } h Handle.none
          settleCu (pumpWgt (setCu s site (seqAdvance (bindWaiting u) d)) site) site

/-- A TYPE 0x3 descriptor would make a fifth entry of a matching store. DESIGN CHOICE (log entry 80): R127 says nothing of a drain that
is ordered on a READY slot, and the descriptor waits at decode as a LAST pass waits to fire. -/
def drainCrowds (u : CU) (h p : Nat) : Bool :=
  let v := orderReady (orderDrain u h p true) h p
  (List.range 2).any fun ch => steers u p ch && !(storeFits v ch) && decide (storeFill u ch + comingSlots u ch <
    storeFill v ch + comingSlots v ch)

/-- DRAIN_HANDLE: a TYPE 0x3 descriptor orders the drain of a READY handle (R113, R118, R119, R122, R127). -/
def execDrainHandle (unit : At) (s : State) : Host.Outcome State Fault Refusal :=
  atRow isCu unit s fun site s =>
    let u := cuOf s site
    let d := seqDesc u u.pos
    let h := pdHandle d
    if !(mayDecode s site) || pdType d != 3 then s
    else match pdReason u d with
      | some r => cuFault s site 0x1006 r h (pdTag d + tagBase u)
      | none =>
        let hd := handleOf u h
        if hd.st != .ready || hd.ordered then refuseHandle s site h (pdTag d + tagBase u)
        else if drainCrowds u h (pdDrain d) then s
        else
          let u := orderReady (orderDrain u h (pdDrain d) true) h (pdDrain d)
          pumpWgt (setCu s site (seqAdvance u d)) site

/-- CU_GATE_RELEASE: the gate before the next descriptor is tested (R237, R238, R250). -/
def execCuGateRelease (unit : At) (s : State) : Host.Outcome State Fault Refusal :=
  atRow isCu unit s fun site s =>
    let u := cuOf s site
    if !(unitLive s site) || !u.run || u.fin || u.gateOpen || u.pos = 0x3FF then s
    else match gateFor u.stores u.pos with
      | none => s
      | some w =>
        match testWait s site w u.rep with
        | .past => waitFault s site 0x4004 (some w) u.rep
        | .orphaned => waitFault s site 0x4002 (some w) u.rep
        | .unmet => setCu s site { u with waitSince := some (u.waitSince.getD s.fclk) }
        | .holds => setCu s site { u with gateOpen := true, waitSince := none }

/-- TILE_INDEX_TAKE: a CU whose sequencer has ended releases its grant and takes the next (R114, R226). -/
def execTileIndexTake (unit : At) (s : State) : Host.Outcome State Fault Refusal :=
  atRow isCu unit s fun site s =>
    let u := cuOf s site
    if !(unitLive s site) || !u.run || u.fin || !(inGroup u.stores) || (u.cur.any (·.fin)) ||
        (u.cur.isSome && u.pos != 0x3FF) then s
    else settleCu (takeGrant (setCu s site { u with cur := none }) site) site

/-! ## Firing (R123, R136) -/

/-- One activation vector through the active tile into row `m` of a slot (R69 to R78). -/
def streamRow (t : Tile) (sl : Slot) (d : Nat) (kind : AccKind) (vec : List Byte) (m : Nat) : Slot :=
  let act := pdActFmt d
  let depth := match pdPair d with | some p => tileDepth p.1 | none => 64
  let a (k : Nat) : FVal := readCode act (elemAt (fmtBits act) vec k)
  let w (n k : Nat) : FVal := weightVal act t.wgt t.wxc t.block k n (elemAt (fmtBits t.wgt) t.rows (64 * k + n))
  let row := (List.range 64).map fun n => passElement kind depth (pdExtent d) a (w n) (sget 0 sl.elems (64 * m + n))
  { sl with elems := splice 0 sl.elems (64 * m) (row.map (·.1)), sat := sl.sat || row.any (·.2), kind := some kind }

/-- The firing pass takes its vectors from the activation FIFO while words of its tag stand at the head. -/
def feedAct : Nat → State → Nat → State
  | 0, s, _ => s
  | f + 1, s, k =>
    let u := cuOf s k
    match u.firing, u.active, u.act with
    | some fr, some t, w :: r =>
      let d := seqDesc u fr.pass.desc
      match pdPair d, (handleOf u fr.pass.handle).slot with
      | some (cls, kind), some j =>
        if w.word.tag != fr.pass.tag then s
        else
          let vb := tileDepth cls * fmtBits (pdActFmt d) / 8
          let n := min (128 / vb) (pdVectors d - fr.row)
          let sl := (List.range n).foldl (fun sl i =>
            streamRow t sl d kind ((w.word.data.drop (vb * i)).take vb) (fr.row + i)) (slotOf u j)
          let row := fr.row + n
          let u := setSlot { u with act := r } j sl
          let u := if row < pdVectors d then { u with firing := some { fr with row := row } }
            else { u with firing := none, streamed := if fr.pass.last then u.streamed ++ [fr.pass] else u.streamed }
          feedAct f (laneCredit (setCu s k u) k w) k
      | _, _ => s
    | _, _, _ => s

/-- The passes that a CU has decoded go on: its unit executes, or the drain that was ordered before a descriptor it refused is to run to
its end, which may need them (R122). -/
def mayStream (s : State) (k : Nat) : Bool :=
  unitLive s k || ((cuOf s k).runOut.isSome && (siteCtx s k).any fun c => (ctxOf s c).teardown.isSome)

/-- Pass `k` of the window may fire before those ahead of it (R123). -/
def orderOk (u : CU) (k : Nat) (p : Pass) : Bool :=
  k = 0 || (((u.window.take k).all fun q => q.handle != p.handle && !(pdSwap (seqDesc u q.desc))) &&
    !(pdSwap (seqDesc u p.desc)))

/-- PASS_FIRE: a pass of the window starts to stream (R116, R123, R127, R136). -/
def execPassFire (unit : At) (k : Nat) (s : State) : Host.Outcome State Fault Refusal :=
  atRow (fun site => isCu site && decide (k < 4)) unit s fun site s =>
    let u := cuOf s site
    match u.window[k]? with
    | none => s
    | some p =>
      let d := seqDesc u p.desc
      let tile := if pdSwap d then u.shadow else u.active
      let head := u.act.head?.any fun w => w.word.tag = p.tag
      if !(mayStream s site) || u.firing.isSome || !head || tile.isNone || (handleOf u p.handle).slot.isNone || !p.loaded ||
          !(orderOk u k p) || fifthWait u p then s
      else
        let u := { u with window := u.window.eraseIdx k, firing := some { pass := p, row := 0 }, active := tile,
                          shadow := if pdSwap d then none else u.shadow }
        settleCu (checkLane (feedAct 40 (pumpWgt (setCu s site u) site) site) site) site

/-- WEIGHT_TILE_COMPLETE: the tile at the head of the stream is whole and becomes the shadow; its control word and table are
checked (R80, R81, R115, R116). -/
def execWeightTileComplete (site : Nat) (s : State) : Host.Outcome State Fault Refusal :=
  actIf (isCu site) s fun s =>
    let u := cuOf s site
    match u.items with
    | .tile act wgt wexp :: rest =>
      if !(mayStream s site) || u.shadow.isSome || u.itemBuf.length < tileBytes act wgt wexp u.itemBuf then s
      else
        let w := if wexp then leAt u.itemBuf 0 4 else 0
        let src := (fmtOf (wxcSource w)).getD .int4
        let blk := if wexp then (u.itemBuf.drop 4).take (wxcBlockBytes w) else []
        let p := u.window.find? fun p => pdSwap (seqDesc u p.desc)
        let h := (p.map (·.handle)).getD 0
        let tag := (p.map (·.tag)).getD 0
        if wexp && !(wxcOk act src w) then cuFault s site 0x1006 3 h tag
        else if wexp && src != wgt then cuFault s site 0x1006 7 h tag
        else if wexp && !(wxcTableOk w blk) then cuFault s site 0x1006 3 h tag
        else
          let t : Tile := { act := act, wgt := wgt, wexp := wexp, wxc := w, block := blk,
                            rows := if wexp then u.itemBuf.drop (4 + wxcBlockBytes w) else u.itemBuf }
          pumpWgt (setCu s site { u with shadow := some t, items := rest, itemBuf := [] }) site
    | _ => s

/-- SLOT_READY: a LAST pass has updated its last row, and its slot joins the READY slots (R114, R118, R126, R136). -/
def execSlotReady (site slot : Nat) (s : State) : Host.Outcome State Fault Refusal :=
  actIf (isCu site && decide (slot < 16)) s fun s =>
    let u := cuOf s site
    match takeFirst (fun p => (handleOf u p.handle).slot = some slot) u.streamed with
    | none => s
    | some (p, rest) =>
      if !(mayStream s site) then s
      else
        let hd := handleOf u p.handle
        let r : DrainReq := { handle := p.handle, slot := slot, prog := hd.prog, tag := p.tag, tok0 := none, tok1 := none,
                              ready := hd.ordered, byDesc := hd.byDesc }
        let q := if hd.ordered then matchSlot u r else (u, r)
        settleCu (setCu s site { q.1 with streamed := rest, ready := u.ready ++ [q.2] }) site

/-- The token of a word that has come in a token circuit: the first 32 bits of the word (R125; DESIGN CHOICE, log entry 63). Its
channel, tag and SEL. DESIGN CHOICE (log entry 63): the reserved bits [15:5] of a token are ignored, as the spec gives no outcome
for them. -/
def tokenOf (f : Flight) : Nat × Nat × Nat :=
  let w := leAt f.word.data 0 4
  (fld w 4 1, fld w 16 16, fld w 0 4)

/-- A token that matches nothing finds a free entry in its store (R127). DEDUCED (log entry 80): the entries that fired LAST passes will
bring are not free, so that the store never holds more than four. -/
def tokenFits (u : CU) (t : Nat × Nat × Nat) : Bool :=
  decide (storeFill u t.1 < 4) && storeFits { u with tokens := u.tokens ++ [t] } t.1

/-- A token that matches nothing and finds its store full: its credit is withheld (R127). -/
def tokenHeld (u : CU) : Bool :=
  match u.tokIn with
  | f :: _ =>
    let t := tokenOf f
    !((waitingSlots u t.1).any fun r => r.tag = t.2.1) && !(tokenFits u t) && (t.2.2 < 4 || t.2.2 = 15)
  | [] => false

/-- STEERING_TOKEN: the oldest token word of the token circuits, whose token is `word`, reaches its steering unit, and its credit goes
back (R125 to R127, R482). DESIGN CHOICE (log entry 80): a token names no handle, and CU_FAULT of a refused one has HANDLE 0. -/
def execSteeringToken (site word : Nat) (s : State) : Host.Outcome State Fault Refusal :=
  actIf (isCu site) s fun s =>
    let u := cuOf s site
    match u.tokIn with
    | [] => s
    | f :: rest =>
      let t := tokenOf f
      if !(mayStream s site) || leAt f.word.data 0 4 != word then s
      else if 4 ≤ t.2.2 && t.2.2 != 15 then cuFault s site 0x1006 8 0 t.2.1
      else match (waitingSlots u t.1).find? fun r => r.tag = t.2.1 with
        | some r =>
          let hit := if t.1 = 0 then { r with tok0 := some t.2.2 } else { r with tok1 := some t.2.2 }
          laneCredit (setCu s site { u with tokIn := rest, ready := u.ready.map fun e => if e = r then hit else e }) site f
        | none =>
          if !(tokenFits u t) then s
          else
            let twice := u.tokens.any fun e => e.1 = t.1 && e.2.1 = t.2.1
            let s := laneCredit (setCu s site { u with tokIn := rest, tokens := u.tokens ++ [(t.1, t.2.1, t.2.2)] }) site f
            if twice && monitored s site then recFault s site 0x4003 (.lane site 5 t.2.1) else s

/-! ## The drain (R128 to R137) -/

/-- The drain of a handle goes on: its unit executes, or it was ordered before a descriptor that the CU refused (R122). -/
def mayDrain (s : State) (k h : Nat) : Bool :=
  unitLive s k || ((cuOf s k).runOut = some h && (siteCtx s k).any fun c => (ctxOf s c).teardown.isSome)

/-- DRAIN_START: the drain takes the first READY slot whose tokens are matched (R126, R128). -/
def execDrainStart (site : Nat) (sram : Sram) (s : State) : Host.Outcome State Fault Refusal :=
  actIf (isCu site) s fun s =>
    let u := cuOf s site
    match takeFirst (fun r => r.ready && tokensMet u r && mayDrain s site r.handle) u.ready with
    | none => s
    | some (r, rest) =>
      if u.drain.isSome then s
      else sramRead s site sram fun s =>
        let u := setHandle u r.handle { handleOf u r.handle with st := .draining }
        setCu s site { u with ready := rest, drain := some { req := r, sat := (slotOf u r.slot).sat, elem := [], elems := none } }

/-- SLOT_RELEASE: the last group of the slot enters stage 0, and the slot is released and may be bound again (R118, R120,
R137). -/
def execSlotRelease (unit : At) (s : State) : Host.Outcome State Fault Refusal :=
  atRow isCu unit s fun site s =>
    let u := cuOf s site
    match u.drain with
    | none => s
    | some dr =>
      let hd := handleOf u dr.req.handle
      let need := phInEn (progHead u dr.req.prog)
      if !(mayDrain s site dr.req.handle) || dr.elems.isSome || (need && hd.elem.isNone) then s
      else
        let u := { u with drain := some { dr with elems := some (slotOf u dr.req.slot).elems, elem := hd.elem.getD [] } }
        let u := setHandle (freeSlot u dr.req.slot) dr.req.handle Handle.none
        pumpWgt (setCu s site (bindWaiting u)) site

/-- Element program `p` of a CU, as a drain ordered now runs it. -/
def drainProg (u : CU) (p : Nat) : DrainProg :=
  let h := progHead u p
  { head := h, code := (List.range (phTotal h)).map fun i => stEnt u.stores 0x02 4 (phBase h + i),
    consts := (List.range 32).map fun i => stEnt u.stores 0x04 4 (32 * p + i), tables := u.tables }

/-- The 64 values of OUT0 and OUT1 for each row of the slot, with the element input `elem` (R128 to R134). -/
def drainRows (p : DrainProg) (elem : List Byte) (elems : Sparse Nat) : List Nat × List Nat :=
  let f := (fmtOf (phInFmt p.head)).getD .fp32
  (List.range 64).foldl (fun (a : List Nat × List Nat) m =>
    let ins := (List.range 64).map fun n =>
      ({ acc := sget 0 elems (64 * m + n),
         inp := if phInEn p.head then widen f (elemAt (fmtBits f) elem (64 * m + n)) else 0,
         cols := (List.range 8).map fun t => sget 0 p.tables (64 * t + n) } : LaneIn)
    let r := runRow p.code p.consts ins
    (a.1 ++ r.1, a.2 ++ r.2)) ([], [])

/-- The slot set of a channel: the circuits of the output lane in ascending entry, four for a steered channel, with SEL to
choose among them; `none` discards (R126, R180, log entry 22). -/
def outCircuit (s : State) (k : Nat) (r : DrainReq) (ch : Nat) : Option Nat :=
  let u := cuOf s k
  let cs := laneCircuits (swOf s k) 4
  let skip := if ch = 0 then 0 else if u.steered.getLsbD 0 then 4 else 1
  if steers u r.prog ch then
    let sel := (if ch = 0 then r.tok0 else r.tok1).getD 0
    if sel = 15 then none else some (cs.getD (skip + sel) 0)
  else some (cs.getD skip 0)

/-- Merges the words of two channels: by the group that completes each, OUT0 first (R134). -/
def mergeWords : Nat → List (Nat × Nat × FWord) → List (Nat × Nat × FWord) → List (Nat × FWord)
  | 0, _, _ => []
  | _, [], [] => []
  | n + 1, a :: l, [] => a.2 :: mergeWords n l []
  | n + 1, [], b :: r => b.2 :: mergeWords n [] r
  | n + 1, a :: l, b :: r => if a.1 ≤ b.1 then a.2 :: mergeWords n l (b :: r) else b.2 :: mergeWords n (a :: l) r

/-- The routes of EVENT 0b001 of a CU: a drain of element program `p` has sent every output word of a slot; SRC is 0x3F for any
program, else SRC[1:0] names it (R239). -/
def drainRoutes (s : State) (k p : Nat) : State :=
  sendRoutes s k (fun e => rtEvent e = 1 && (rtSrc e = 0x3F || rtSrc e % 4 = p)) 1

/-- What stands for the slots of a channel whose words are discarded (R126). -/
def discardSlots : Nat := 0x100

/-- Words of a discarded slot are counted (R126). -/
def dropWords (s : State) (k n : Nat) : State :=
  modCu s k fun u => { u with steerDrop := BitVec.ofNat 32 (satAdd 32 u.steerDrop.toNat n) }

/-- One channel of a drained slot: the words it sends and where, and the state after the quantiser. -/
def drainChannel (s : State) (k c : Nat) (dr : Drain) (ch : Nat) (vs : List Nat) (reads : HbmReads) :
    Sent × Option Nat × State :=
  let u := cuOf s k
  let h := progHead u dr.req.prog
  let circ := outCircuit s k dr.req ch
  let sat := dr.sat && phSatq h = ch + 1
  let q := quantise s c (phQd h ch) { site := k, chan := ch, circ := circ.getD discardSlots, num := u.drains, first := 0, drain := dr,
                                      prog := drainProg u dr.req.prog } vs sat reads
  (q.1, circ, q.2)

/-- DRAIN_COMPLETE: the drained slot has passed the six stages and the quantiser; its words join the output lane (R128 to
R135). -/
def execDrainComplete (drain : DrainEnd) (s : State) : Host.Outcome State Fault Refusal :=
  atRow isCu { site := drain.site, sram := drain.sram } s fun site s =>
    let u := cuOf s site
    match u.drain, siteCtx s site with
    | some dr, some c =>
      match dr.elems with
      | none => s
      | some elems =>
        if !(mayDrain s site dr.req.handle) then s
        else
          let h := progHead u dr.req.prog
          let rows := drainRows (drainProg u dr.req.prog) dr.elem elems
          let run (s : State) (ch : Nat) : (List (Nat × Nat × FWord) × Bool × Bool) × State :=
            if !(phEn h ch) then (([], false, false), s)
            else
              let r := drainChannel s site c dr ch (if ch = 0 then rows.1 else rows.2) drain.reads
              match r.1 with
              | .fault => (([], false, true), r.2.2)
              | .held => (([], true, false), r.2.2)
              | .codes cs bits =>
                let ws := slotWords bits dr.req.tag u.term cs
                match r.2.1 with
                | some slots => ((ws.map fun w => (w.1, slots, w.2), false, false), r.2.2)
                | none => (([], false, false), dropWords r.2.2 site ws.length)
          let a := run s 0
          if a.1.2.2 || !(mayDrain a.2 site dr.req.handle) then a.2
          else
            let b := run a.2 1
            if b.1.2.2 || !(mayDrain b.2 site dr.req.handle) then b.2
            else
              let held := a.1.2.1 || b.1.2.1
              let ws := mergeWords 1025 a.1.1 b.1.1
              let s := modCu b.2 site fun u =>
                { u with drain := none, drains := u.drains + 1, outq := u.outq ++ markWords u.drains dr.req.prog ws }
              let s := if ws.isEmpty && !held then drainRoutes s site dr.req.prog else s
              settleCu s site
    | _, _ => s

/-! ## The release pass (R97, R134) -/

/-- A CU orders drains with a program whose channel names a QD. -/
def feedsQd (u : CU) (idx p : Nat) : Bool :=
  decide (p < 4) && (List.range 2).any fun ch => phEn (progHead u p) ch && phQd (progHead u p) ch = idx

/-- The descriptors that a sequencer still decodes from position `pos`, by NEXT. -/
def chainFrom (u : CU) : Nat → Nat → List Nat
  | 0, _ => []
  | f + 1, pos => if pos = 0x3FF then [] else seqDesc u pos :: chainFrom u f (pdNext (seqDesc u pos))

/-- A descriptor orders a drain that converts elements of a QD. -/
def ordersQd (u : CU) (idx d : Nat) : Bool :=
  ((pdType d = 0 && pdLast d) || pdType d = 3) && feedsQd u idx (pdDrain d)

/-- Every element that a CU converts for a QD in this turn has left its drain (R97). -/
def feedDone (s : State) (k idx : Nat) : Bool :=
  let u := cuOf s k
  !u.run || u.fin ||
  (!(u.ready.any fun r => feedsQd u idx r.prog) && !(u.drain.any fun r => feedsQd u idx r.req.prog) &&
   !(u.handles.any fun e => e.2.ordered && feedsQd u idx e.2.prog) &&
   !((chainFrom u 1023 u.pos).any (ordersQd u idx)) &&
   (noMoreGrants u.stores u.cur || !((chainFrom u 1023 (startEntry u.stores)).any (ordersQd u idx))))

/-- The last element of a QD's held step is in the buffer, on the primary or on the shadow. -/
def heldWhole (s : State) (c idx : Nat) (shadow : Bool) : Bool :=
  let x := ctxOf s c
  (if shadow then twinSites s x else ownSites x).all fun k => !(siteIsCu k) || feedDone s k idx

/-- The scale that the home MU derives for a held step from its own maximum (R92, R93, R97). -/
def heldScale (q : Nat) (t : Tensor) : Nat × Nat × Nat :=
  let r := windowScale q t.maxAbs t.prev
  (r.1, r.2.1, r.2.2 + 4)

/-- A held slot in the release pass: one more drain of the same program, whose element input brings from the buffer what LDACC would
have read; the channel's values are converted, and its words join the lane, or are discarded and counted (R97, R126, R134). -/
def releaseSlot (s : State) (c q r : Nat) (t : Tensor) (e : HeldSlot) : State × Tensor :=
  let k := e.site
  let x := ctxOf s c
  let elems := splice 0 [] 0 ((List.range 4096).map fun i =>
    mnat s.hbm (twinAddr s x (siteWing k) (qdAddr q + 4 * (e.first + i))) 4)
  let rows := drainRows e.prog e.drain.elem elems
  let p := convAll q r [] (if e.chan = 0 then rows.1 else rows.2) t
  let ws := (slotWords (fmtBits (qdFmt q)) e.drain.req.tag (cuOf s k).term p.1).map fun w => (e.circ, w.2)
  let s := if e.circ = discardSlots then dropWords s k ws.length
    else modCu s k fun u => { u with outq := u.outq ++ markWords e.num e.drain.req.prog ws }
  (s, p.2)

/-- Slot `num` of a CU has words to send. -/
def slotQueued (s : State) (k num : Nat) : Bool := (cuOf s k).outq.any fun e => e.2.2.any fun m => m.1 = num

/-- The release pass of a tensor has sent its last word. -/
def passSent (s : State) (t : Tensor) : Bool := !t.heldDone.isEmpty && t.heldDone.all fun e => !(slotQueued s e.1 e.2.1)

/-- The release pass of one tensor has written its last element: the completions of its slots follow, but for those that another held
tensor still has to send, and its CUs may have completed their part (R97, R114, R239). -/
def endPass (s : State) (c key : Nat) : State :=
  let t := tensorOf s c key
  if !(passSent s t) then s
  else
    let s := setTensor s c key { t with heldDone := [] }
    let s := t.heldDone.foldl (fun s e => if slotHeld s e.1 (some e.2.1) then s else drainRoutes s e.1 e.2.2) s
    ((t.heldDone.map (·.1)).eraseDups).foldl settleCu s

/-- The release passes of a context that have sent their last word end. -/
def endPasses (s : State) (c : Nat) : State := ((ctxOf s c).tensors.map (·.1)).foldl (fun s key => endPass s c key) s

/-- The release pass of one tensor: the scale from its own maximum, and every slot drained once more, converted and sent (R92, R93, R97,
R134). -/
def releaseTensor (s : State) (c key q : Nat) : State :=
  let t := tensorOf s c key
  let sc := heldScale q t
  let n := { t with cur := some (sc.1, sc.2.1), flags := sc.2.2, held := false, heldBuf := [],
                    heldDone := t.heldBuf.map fun e => (e.site, e.num, e.drain.req.prog) }
  let go := t.heldBuf.foldl (fun (a : State × Tensor) e => releaseSlot a.1 c q sc.2.1 a.2 e) (setTensor s c key n, n)
  endPasses (setTensor go.1 c key go.2) c

/-- A tensor holds a step whose release pass has not run. -/
def holdsStep (s : State) (c key : Nat) : Bool :=
  let t := tensorOf s c key
  t.active && t.held && t.cur.isNone

/-- A tensor is to hold its step, of which no element has been converted yet but some are to come. -/
def willHold (s : State) (c key idx q : Nat) (shadow : Bool) : Bool :=
  let t := tensorOf s c key
  !t.active && !t.merged && (beginStep q t).held && !(heldWhole s c idx shadow)

/-- The release passes of the tensors whose QDs stand before index `idx` have run, also of those that are still to hold their step
(R97). -/
def heldTurn (s : State) (c idx : Nat) (shadow : Bool) : Bool :=
  (List.range 256).all fun card =>
    let key := card + if shadow then 256 else 0
    match cardQd (ctxOf s c) card with
    | some e => decide (idx ≤ e.1) || !(holdsStep s c key || willHold s c key e.1 e.2 shadow)
    | none => true

/-- The release pass can read its slots back: what the controllers meet in the buffer, page by page (R206, R207). -/
def bufferRead (s : State) (c home key q : Nat) (r : HbmReads) : Bool × State :=
  ((tensorOf s c key).heldBuf.flatMap fun e => (List.range 4).map fun i => (e.site, qdAddr q + 4 * e.first + 4096 * i)).foldl
    (fun (a : Bool × State) p => if a.1 then tableRead a.2 (ctxOf a.2 c) p.1 home p.2 4096 r else a) (true, s)

/-- HELD_STEP_RELEASE: the release pass of a held tensor runs once its last element is in the buffer, in the order of the QDs (R97);
each twin releases its own. -/
def execHeldStepRelease (ctx : Nat) (card : CardRead) (s : State) : Host.Outcome State Fault Refusal :=
  actIf (decide (ctx < 64) && decide (card.card < 256)) s fun s =>
    let x := ctxOf s ctx
    match cardQd x card.card with
    | none => s
    | some (idx, q) =>
      let last := match x.syl, x.run with
        | some y, some r => lastOfSection y.file r.turn
        | _, _ => false
      if !(executes x) || !last then s
      else
        let go (s : State) (shadow : Bool) : State :=
          let key := card.card + if shadow then 256 else 0
          let home := ((tensorOf s ctx key).heldBuf.head?.bind fun e => homeQd s e.site idx).map (·.1)
          if holdsStep s ctx key && heldWhole s ctx idx shadow && heldTurn s ctx idx shadow then
            let b := bufferRead s ctx (home.getD 0) key q card.reads
            if b.1 then releaseTensor b.2 ctx key q else b.2
          else s
        go (go s false) true

end Sys2Proof.Machine
end

