-- ==== Sys2Proof/Machine/Ring.lean ====
section
/-! DEFINITION. The I/O ring and the bridges beyond the grid-side ports (R35, R36, R195 to R197): section circuits that cross
bridges, and the words that attachments take from the grid and send into it. -/

namespace Sys2Proof.Machine

/-! ## The circuits of a turn beyond the grid (R38, R196) -/

/-- The wing after a wing on the way A–B–D–C–A, or against it (R428). -/
def nextWing (w : Nat) (back : Bool) : Nat :=
  match w with
  | 0 => if back then 2 else 1
  | 1 => if back then 0 else 3
  | 2 => if back then 3 else 0
  | _ => if back then 1 else 2

/-- The bridge direction from a wing to a neighbouring one: 2b to the later wing of bridge b, 2b + 1 back. -/
def bridgeDir (w v : Nat) : Nat :=
  let b := ((List.range 4).find? fun b => bridgeEnds b = (min w v, max w v)).getD 0
  2 * b + b2n (v < w)

/-- How a circuit goes on beyond grid-side port `g`: the bridge directions it crosses, the far grid-side port 0–383, and its slots
there. The number's last two bits give the bridges it crosses (1 or 2; 0 and 3: none, it ends at an attachment), then a bit for the
way round, the far port within its wing, and the far slots (log entry 48). -/
def ringRoute (image : List Byte) (g slots : Nat) : List Nat × Nat × Nat :=
  let d := Config.ringRoute image g slots
  let back := bitOf d 2
  let w := g / 96
  let v := nextWing w back
  let far (u : Nat) : Nat := 96 * u + d / 8 % 96
  match d % 4 with
  | 1 => ([bridgeDir w v], far v, d / 1024 % 256)
  | 2 => let u := nextWing v back
         ([bridgeDir w v, bridgeDir v u], far u, d / 1024 % 256)
  | _ => ([], 0, 0)

/-- The circuits of a turn that leave the grid and cross bridges, with no bridge slots assigned yet: the circuit tables are those of
the turn's blocks. Only a turn that spans wings has any (R37, R196). -/
def turnCircuits (s : State) (c : Nat) (y : Syllabus) (t : Nat) : List (RingCirc × Nat) :=
  if !(secSpans y.file t) then []
  else
    let x := ctxOf s c
    let image := turnImage y.file t
    let placed := ((blocksOf y.file t).filter fun b => b.unit = 3 || b.store = 0x10).map fun b => (blkSite y t b, b)
    (maskSites (ctxMask s x)).flatMap fun k =>
      if !((List.range 4).any (isGridPort k)) then []
      else
        let home := if onShadow s k == x.promoted then k else siteKey (partner (siteWing k)) (siteRow k) (siteCol k)
        let m := storesFor y.file ((placed.filter fun e => e.1 = home && e.2.unit != 3).map (·.2)) true
        (List.range 64).flatMap fun i =>
          let e := mnat m (8 * i) 8
          if !(ceValid e) then []
          else ((List.range 4).filter fun p => isGridPort k p && (ceOut e).testBit p).filterMap fun p =>
            let r := ringRoute image (gridPort k p) (outSlots e)
            if r.1.isEmpty then none
            else some ({ term := 0, site := k, port := p, entry := i, hops := r.1.map fun h => (h, []), far := r.2.1, slots := r.2.2,
                         bufs := r.1.map fun _ => [] }, popBits (outSlots e) 8)

/-- The section slots that a turn's circuits hold on each bridge direction: n grid slots hold n bridge slots on every bridge that the
circuit crosses (R196). -/
def bridgeNeed (s : State) (c : Nat) (y : Syllabus) (t : Nat) : List Nat :=
  let cs := turnCircuits s c y t
  (List.range 8).map fun d => sumOf (cs.map fun r => if r.1.hops.any fun h => h.1 = d then r.2 else 0)

/-- The lowest section slots of a bridge direction that no circuit holds (R196). -/
def freeBridgeSlots (s : State) (d n : Nat) : List Nat :=
  let taken := s.ring.flatMap fun r => (r.hops.filter fun h => h.1 = d).flatMap (·.2)
  ((List.range 28).filter fun i => !(taken.contains i)).take n

/-- The firmware writes the ring and bridge entries of a turn's circuits under its Term (R193, R196, R197). -/
def layRing (s : State) (c : Nat) (y : Syllabus) (t term : Nat) : State :=
  let s := dropRing s (heldSites s c)
  (turnCircuits s c y t).foldl (fun s r =>
    { s with ring := s.ring ++ [{ r.1 with term := term, hops := r.1.hops.map fun h => (h.1, freeBridgeSlots s h.1 r.2) }] }) s

/-! ## Words on the ring -/

/-- The credit of a word that has left the first buffer beyond a grid-side port: it goes back to the entry there (R183, R197). -/
def ringCredit (s : State) (r : RingCirc) : State :=
  let e := circuit (swOf s r.site) r.entry
  { s with credits := s.credits ++
      [{ site := r.site, port := r.port, slot := ((List.range 8).find? (outSlots e).testBit).getD 0, term := r.term }] }

/-- A word goes onto a bridge in a slot of its circuit (R196). -/
def ontoBridge (s : State) (d : Nat) (slots : List Nat) (w : FWord) : State :=
  let sl := (slots.find? fun i => decide (s.fclk % 8 ≤ i % 8)).getD (slots.headD 0)
  { s with wires := s.wires ++ [{ site := 2432 + d, port := 0, slot := sl, word := w }] }

/-- Words of a circuit on a bridge and in the buffer of its far endpoint. -/
def crossing (s : State) (r : RingCirc) (h : Nat) : Nat :=
  match r.hops[h]? with
  | none => 0
  | some hop => (r.bufs.getD h []).length + (s.wires.filter fun f => f.site = 2432 + hop.1 && hop.2.contains f.slot).length

/-- Circuit `n` of the ring takes the head word out of its buffer `h`; from the first one its credit goes back. -/
def leaveBuf (s : State) (n h : Nat) : State :=
  match s.ring[n]? with
  | none => s
  | some r =>
    let s := { s with ring := s.ring.set n { r with bufs := r.bufs.set h ((r.bufs.getD h []).drop 1) } }
    if h = 0 then ringCredit s r else s

/-- A circuit that crosses two bridges moves words on to the second while the endpoint beyond has room (R197). -/
def pumpRing (s : State) (n : Nat) : State :=
  match s.ring[n]? with
  | none => s
  | some r =>
    match r.bufs, r.hops with
    | (w :: _) :: _, [_, hop] =>
      if crossing s r 1 < 4 * hop.2.length then ontoBridge (leaveBuf s n 0) hop.1 hop.2 w else s
    | _, _ => s

/-- The ring drops a word whose circuit is gone: counted for the device (R193, R194). -/
def ringDrop (s : State) : State := bump s 0x230001 1

/-- A word has come through grid-side port `f.site - 2048` from circuit entry `f.port`: it goes onto its bridge, or its attachment
takes it and gives the credit back. The controllers take a port's traffic; any other word leaves the block (R195). -/
def ringArrive (s : State) (f : Flight) : State :=
  let g := f.site - 2048
  let pl := gridPlace g
  let e := circuit (swOf s pl.1) f.port
  if !(ceValid e) || ceTerm e != f.word.term then ringDrop s
  else
    match s.ring.find? fun r => r.site = pl.1 && r.port = pl.2 && r.entry = f.port with
    | some r => match r.hops with
      | hop :: _ => ontoBridge s hop.1 hop.2 f.word
      | [] => s
    | none =>
      let s := { s with credits := s.credits ++ [{ site := pl.1, port := pl.2, slot := f.slot, term := f.word.term }] }
      match f.word.req with
      | some t => if g = qbPort t.site (queueBind (muOf s t.site).stores t.queue) then portArrive s t f.word
                  else emit s (.gridWord g f.word)
      | none => emit s (.gridWord g f.word)

/-- A word reaches the far endpoint of a bridge (R193, R197). -/
def bridgeArrive (s : State) (f : Flight) : State :=
  let d := f.site - 2432
  let at_ (r : RingCirc) : Option Nat := r.hops.findIdx? fun h => h.1 = d && h.2.contains f.slot
  match s.ring.findIdx? fun r => (at_ r).isSome && r.term = f.word.term with
  | none => ringDrop s
  | some n => match s.ring[n]? with
    | none => s
    | some r =>
      let h := (at_ r).getD 0
      pumpRing { s with ring := s.ring.set n { r with bufs := r.bufs.set h (r.bufs.getD h [] ++ [f.word]) } } n

/-! ## Words into the grid -/

/-- The first slot of a set at or after slot `t` of the frame (R182). -/
def slotFrom (slots t : Nat) : Nat :=
  (((List.range 8).map fun i => (t + i) % 8).find? fun i => slots.testBit i).getD (t % 8)

/-- The entry and operand (0 or 1) that claim a slot on an input port (R181). -/
def claim (w : Switch) (port slot : Nat) : Option (Nat × Nat) :=
  (List.range 64).findSome? fun i =>
    let e := circuit w i
    if !(ceValid e) then none
    else if ceInA e = port && (ceSlotsA e).testBit slot then some (i, 0)
    else if ceOp e = 1 && ceInB e = port && (ceSlotsB e).testBit slot then some (i, 1)
    else none

/-- The buffer of an operand of an entry. -/
def bufOf (w : Switch) (i op : Nat) : List Flight := sget [] w.bufs (2 * i + op)

/-- Whether the switch has room for a word that comes to input port `p` in a slot set. -/
def laneRoom (s : State) (k p slots : Nat) : Bool :=
  match claim (swOf s k) p (slotFrom slots (s.fclk % 8)) with
  | some (i, op) => decide ((bufOf (swOf s k) i op).length < 2)
  | none => true

/-- The next word that enters the grid by a perimeter site's outside port: one of a circuit from another wing, in the first of its
slots (R197), else the oldest one that an attachment sends (R195). It enters while its circuit's buffer has room. -/
def ringEnter (s : State) (k p : Nat) : Option (Flight × State) :=
  let g := gridPort k p
  let slot (slots : Nat) : Nat := slotFrom slots (s.fclk % 8)
  match s.ring.findIdx? fun r => r.far = g && !((r.bufs.getLastD []).isEmpty) && laneRoom s k p r.slots with
  | some n => match s.ring[n]? with
    | none => none
    | some r => match r.bufs.getLastD [] with
      | [] => none
      | w :: _ => some ({ site := k, port := p, slot := slot r.slots, word := w },
                        pumpRing (leaveBuf s n (r.bufs.length - 1)) n)
  | none => (takeFirst (fun w => w.site = k && w.port = p && laneRoom s k p w.slots) s.gridIn).map fun r =>
      ({ site := k, port := p, slot := slot r.1.slots, word := r.1.word }, { s with gridIn := r.2 })

end Sys2Proof.Machine
end

