-- ==== Sys2Proof/Machine/Fabric.lean ====
section
/-! DEFINITION. The fabric: words on links and lanes (R177 to R184), the Term check (R194), forks (R186), reduction (R189 to
R191), rejoins (R192) and the watchdog (R243). -/

namespace Sys2Proof.Machine

/-! ## Links -/

/-- Output ports of an entry. -/
def outPorts (e : Nat) : List Nat := (List.range 8).filter fun p => (ceOut e).testBit p

/-- Every output of the entry holds a credit (R183, R186, R195). -/
def hasCredits (s : State) (k i : Nat) : Bool :=
  let w := swOf s k
  (outPorts (circuit w i)).all fun p => decide (sget 0 w.used (8 * i + p) < hopRoom s k i p)

/-- A word has left the buffer it came in: its credit goes back over the link to the sender (R183). A unit that sends on a
local lane, and the ring that sends through a grid-side port, see the room in the buffer itself. -/
def returnCredit (s : State) (k : Nat) (f : Flight) : State :=
  if 4 ≤ f.port then s
  else match neighbour k f.port with
    | none => s
    | some j => { s with credits := s.credits ++ [{ site := j, port := oppositePort f.port, slot := f.slot, term := f.word.term }] }

/-- Puts a word of entry `i` on output port `p` of a switch in a slot: on the link to the neighbour, on the lane of the unit, or
through the grid-side port onto the ring (R29, R195). -/
def putOn (s : State) (k i p slot : Nat) (w : FWord) : State :=
  if 4 ≤ p then { s with wires := s.wires ++ [{ site := k, port := 8 + (p - 4), slot := slot, word := w }] }
  else match neighbour k p with
    | some j => { s with wires := s.wires ++ [{ site := j, port := oppositePort p, slot := slot, word := w }] }
    | none => { s with wires := s.wires ++ [{ site := 2048 + gridPort k p, port := i, slot := slot, word := w }] }

/-- Sends a word on every output of an entry in one slot, and takes a credit of each (R183, R186, R195). -/
def sendOut (s : State) (k i slot : Nat) (w : FWord) : State :=
  (outPorts (circuit (swOf s k) i)).foldl (fun s p =>
    putOn (modSw s k fun u => { u with used := sset 0 u.used (8 * i + p) (sget 0 u.used (8 * i + p) + 1) }) k i p slot w) s

/-- A forward entry sends the word at the head of its buffer in the first of its output slots at or after this FCLK (R182, R186). -/
def forwardHead (s : State) (k i : Nat) : State :=
  let w := swOf s k
  match bufOf w i 0 with
  | [] => s
  | f :: rest =>
    if ceOp (circuit w i) != 0 || !(hasCredits s k i) then s
    else
      let s := setSw s k { w with bufs := sset [] w.bufs (2 * i) rest }
      sendOut (returnCredit s k f) k i (slotFrom (outSlots (circuit w i)) (s.fclk % 8)) f.word

/-- A forward entry with one output sends what it may; a fork waits for FORK_SEND. -/
def pumpEntry (s : State) (k i : Nat) : State :=
  if (outPorts (circuit (swOf s k) i)).length = 1 then forwardHead (forwardHead s k i) k i else s

/-- What the code of a receiver finds, and the circuit table and FIFO control that the word needs (R179, R418): the answer says that the
word goes on. -/
def linkCheck (s : State) (k port : Nat) (f : Flight) (check : WordCheck) : Bool × State :=
  match check with
  | .clean => (true, s)
  | .table .clean => (true, s)
  | .table .corrected => (true, sramRead s k .corrected id)
  | .table (.bad store addr) => (false, sramBad s k store addr)
  | .corrected =>
    let s := bump (modSw s k fun w => { w with ce := BitVec.ofNat 32 (satAdd 32 w.ce.toNat 1) }) 0x230003 1
    (true, if port < 4 then { s with linkCe := smod 0 s.linkCe (8 * k + port) (· + 1) } else s)
  | .uncorrectable =>
    (false, swFault (bump s 0x230004 1) k 0x3004 port f.word.term f.word.tag (.link k port f.slot))

/-- A word reaches a switch on an input port (R194). -/
def arriveSwitch (s : State) (k : Nat) (f : Flight) : State :=
  let w := swOf s k
  match claim w f.port f.slot with
  | some (i, op) =>
    let e := circuit w i
    if ceTerm e = f.word.term then
      pumpEntry (setSw s k { w with bufs := sset [] w.bufs (2 * i + op) (bufOf w i op ++ [f]) }) k i
    else dropStale (returnCredit s k f) k f.word.term f.port f.slot f.word.tag (ceStrict e)
  | none => dropStale (returnCredit s k f) k f.word.term f.port f.slot f.word.tag (siteStrict s k)

/-- The queue whose inbound circuit a lane word of an MU belongs to, 4 + q, else its generator lane (R211). -/
def muLane (u : MU) (l slot : Nat) : Nat :=
  match (List.range 8).find? fun q =>
    let b := queueBind u.stores q
    qbInLane b = l && (qbInSlots b).testBit slot with
  | some q => 4 + q
  | none => l

/-- A word reaches a lane of a unit (R183, R194). Traffic of an external-access port means something only to its queue; a lane that it
reaches otherwise takes it and passes nothing on. -/
def arriveUnit (s : State) (k : Nat) (f : Flight) : State :=
  let l := f.port - 8
  let f : Flight := { f with port := l + 8 }
  if f.word.term != unitTerm s k then
    dropStale (laneCredit s k f) k f.word.term (f.port - 4) f.slot f.word.tag (siteStrict s k)
  else if f.word.req.isSome && (siteIsCu k || decide (muLane (muOf s k) l f.slot < 4)) then laneCredit s k f
  else if siteIsCu k then
    if l = 0 then settleCu (checkLane (feedAct 40 (modCu s k fun u => { u with act := u.act ++ [f] }) k) k) k
    else if (cuOf s k).tokSlots.getLsbD f.slot then modCu s k fun u => { u with tokIn := u.tokIn ++ [f] }
    else settleCu (pumpWgt (modCu s k fun u => { u with wgt := u.wgt ++ [f] }) k) k
  else
    let u := muOf s k
    let j := muLane u l f.slot
    let s := setMu s k { u with lanes := sset [] u.lanes j (sget [] u.lanes j ++ [f]) }
    if j < 4 then feedGen 9 s k j
    else
      let s := feedQueue 9 s k (j - 4)
      if unitLive s k then pumpQueue 65 s k (j - 4) else s

/-- A word of a CU's queue may leave before those ahead of it: none of them goes to its circuit or belongs to its slot, whose OUT0 and OUT1
words keep their order (R134). -/
def mayPass (q : List (Nat × FWord × Option (Nat × Nat))) (n : Nat) : Bool :=
  match q[n]? with
  | some e => (q.take n).all fun a => a.1 != e.1 && !(e.2.2.any fun m => a.2.2.any fun b => b.1 = m.1)
  | none => false

/-- The words of slot `num` have left: a completion of its program follows, for a slot of a held step at the end of its release pass
(R97, R234, R239). -/
def slotSent (s : State) (k num prog : Nat) : State :=
  if slotQueued s k num then s
  else if slotHeld s k (some num) then (match siteCtx s k with
    | some c => endPasses s c
    | none => s)
  else drainRoutes s k prog

/-- A CU's next output word leaves on its output lane; the last of all words of a slot signals EVENT 0b001 (R134, R234, R239). -/
def cuSend (s : State) (k p : Nat) : Option (Flight × State) :=
  let u := cuOf s k
  if p != 4 then none
  else
    match (List.range u.outq.length).find? (fun n =>
      mayPass u.outq n && laneRoom s k p ((u.outq.map (·.1)).getD n 0)) with
    | none => none
    | some n => match u.outq[n]? with
      | none => none
      | some (sl, w, mark) =>
        let s := setCu s k { u with outq := u.outq.eraseIdx n }
        let s := match mark with
          | some m => slotSent s k m.1 m.2
          | none => s
        some ({ site := k, port := p, slot := slotFrom sl (s.fclk % 8), word := w }, settleCu s k)

/-- An MU's next word leaves on generator lane `p - 4`; the last word of a load signals its counter (R148). -/
def muSend (s : State) (k p : Nat) : Option (Flight × State) :=
  let u := muOf s k
  let key (e : OutWord) : Nat × Nat := (e.lane, e.slots)
  match (List.range u.outq.length).find? (fun n =>
    match u.outq[n]? with
    | none => false
    | some e => e.lane = p - 4 && !((u.outq.take n).any fun d => key d = key e) && laneRoom s k p e.slots) with
  | none => none
  | some n => match u.outq[n]? with
    | none => none
    | some e =>
      let s := setMu s k { u with outq := u.outq.eraseIdx n }
      let s := match e.mark with
        | some c => settleMu (raiseCtr s k c 1 (srcLocal k (p - 4))) k
        | none => s
      some ({ site := k, port := p, slot := slotFrom e.slots (s.fclk % 8), word := e.word }, s)

/-- The word that reaches an input: on ports 4–7 the unit sends it, on an outside port the ring, else it is the oldest on the wire. -/
def takeFlight (s : State) (site port : Nat) : Option (Flight × State) :=
  if 4 ≤ port && port < 8 then
    if siteIsCu site then (if unitLive s site || (cuOf s site).runOut.isSome then cuSend s site port else none)
    else if unitLive s site then muSend s site port else none
  else if isGridPort site port then ringEnter s site port
  else (takeFirst (fun f => f.site = site && f.port = port) s.wires).map fun r => (r.1, { s with wires := r.2 })

/-- The site and port of the circuit that a word beyond a grid-side port belongs to: on a bridge, those by which its circuit left the
grid (R179, R195, R197). -/
def ringOwner (s : State) (f : Flight) : Option (Nat × Nat) :=
  if f.site < 2432 then some (gridPlace (f.site - 2048))
  else (s.ring.find? fun r => r.term = f.word.term && r.hops.any fun h => h.1 = f.site - 2432 && h.2.contains f.slot).map
    fun r => (r.site, r.port)

/-- The oldest word on its way to a place of the ring: its code is checked as on a neighbour link, and it goes on (R179, R195 to R197).
DESIGN CHOICE (log entry 84): the ring and the bridges bear no switch, and the site that sent the word into them counts in its SW_CE and
records the fault. -/
def ringWord (s : State) (place : Nat) (check : WordCheck) : State :=
  match takeFirst (fun f => f.site = place) s.wires with
  | none => s
  | some (f, rest) =>
    let s := { s with wires := rest }
    let r := match ringOwner s f with
      | some o => linkCheck s o.1 o.2 f check
      | none => (true, s)
    if !r.1 then r.2 else if place < 2432 then ringArrive r.2 f else bridgeArrive r.2 f

/-- FABRIC_WORD: a word reaches switch input port 0–7, or lane `port - 8` of the unit (R179, R182, R183, R194). Site 2048 + G is the
ring beyond grid-side port G, and 2432 + e the far endpoint of bridge direction e, which bear no switch (R195 to R197). -/
def execFabricWord (site port : Nat) (check : WordCheck) (s : State) : Host.Outcome State Fault Refusal :=
  actIf (decide (site < 2440) && decide (port < 12)) s fun s =>
    if 2048 ≤ site then ringWord s site check
    else match takeFlight s site port with
    | none => s
    | some (f, s) =>
      let r := linkCheck s site (if port < 8 then port else port - 4) f check
      if !r.1 then r.2
      else if port < 8 then arriveSwitch r.2 site f
      else arriveUnit r.2 site f

/-- CREDIT_RETURN: the oldest credit on its way to an output port arrives (R183, R194). -/
def execCreditReturn (site port : Nat) (s : State) : Host.Outcome State Fault Refusal :=
  actIf (decide (site < 2048) && decide (port < 8)) s fun s =>
    match takeFirst (fun c => c.site = site && c.port = port) s.credits with
    | none => s
    | some (c, rest) =>
      let s := { s with credits := rest }
      let w := swOf s site
      match (List.range 64).find? fun i =>
        let e := circuit w i
        ceValid e && (ceOut e).testBit port && (outSlots e).testBit c.slot && ceTerm e = c.term with
      | none => s
      | some i =>
        let s := setSw s site { w with used := sset 0 w.used (8 * i + port) (sget 0 w.used (8 * i + port) - 1) }
        pumpEntry s site i

/-- FORK_SEND: a forward entry with several outputs sends its word on all of them once each holds a credit (R186, R188). -/
def execForkSend (unit : At) (entry : Nat) (s : State) : Host.Outcome State Fault Refusal :=
  atRow (fun k => decide (k < 2048) && decide (entry < 64)) unit s fun site s => forwardHead s site entry

/-- The element-wise FP32 sum of two words (R189). -/
def addWords (a b : List Byte) : List Byte :=
  (List.range 32).flatMap fun i => leBytes 4 (fadd (leAt a (4 * i) 4) (leAt b (4 * i) 4))

/-- REDUCE_FIRE: a reduce entry adds the heads of its operands, or faults when their tags or LAST differ; the sum leaves in the first
output slot at or after match + 3 FCLK (R189, R191). -/
def execReduceFire (unit : At) (entry : Nat) (s : State) : Host.Outcome State Fault Refusal :=
  atRow (fun k => decide (k < 2048) && decide (entry < 64)) unit s fun site s =>
    let w := swOf s site
    let e := circuit w entry
    match bufOf w entry 0, bufOf w entry 1 with
    | a :: ra, b :: rb =>
      if !(ceValid e) || ceOp e != 1 || !(hasCredits s site entry) then s
      else if a.word.tag != b.word.tag || a.word.last != b.word.last then
        swFault s site 0x3003 (ceInB e) b.word.term b.word.tag (.reduce site a.word.tag b.word.tag)
      else
        let s := setSw s site { w with bufs := sset [] (sset [] w.bufs (2 * entry) ra) (2 * entry + 1) rb }
        let s := returnCredit (returnCredit s site a) site b
        sendOut s site entry (slotFrom (outSlots e) ((s.fclk + 3) % 8))
          { data := addWords a.word.data b.word.data, term := ceTerm e, tag := a.word.tag, last := a.word.last, req := none }
    | _, _ => s

/-- The lane that the head pass of a CU needs: the activation lane while it streams, the weight lane while its tile or its slot load
is not there (R123, R192). -/
def headLane (u : CU) : Option Nat :=
  match u.firing, u.window with
  | some _, _ => some 0
  | none, p :: _ => some (b2n (!p.loaded || (pdSwap (seqDesc u p.desc) && u.shadow.isNone)))
  | none, [] => none

/-- A rejoin that is out of balance: the full and the empty input port, and the tag at the head of the full input (R192). At a CU,
entry number 64 stands for its two lanes. -/
def imbalance (s : State) (k entry : Nat) : Option (Nat × Nat × Nat) :=
  let w := swOf s k
  let e := circuit w entry
  let tag (l : List Flight) : Nat := (l.head?.map fun f => f.word.tag).getD 0
  if entry = 64 then
    let u := cuOf s k
    match (if siteIsCu k then headLane u else none) with
    | some 0 => if u.act.isEmpty && decide (32 ≤ u.wgt.length) then some (5, 4, tag u.wgt) else none
    | some _ => if u.wgt.isEmpty && decide (32 ≤ u.act.length) then some (4, 5, tag u.act) else none
    | none => none
  else if !(ceValid e) || ceOp e != 1 then none
  else
    let a := bufOf w entry 0
    let b := bufOf w entry 1
    if 2 ≤ a.length && b.isEmpty then some (ceInA e, ceInB e, tag a)
    else if 2 ≤ b.length && a.isEmpty then some (ceInB e, ceInA e, tag b) else none

/-- REJOIN_IMBALANCE: under the Hall Monitor one operand of a reduce entry has been full and the other empty beyond the
threshold; at a CU, entry number 64 stands for its two lanes (R192). -/
def execRejoinImbalance (site entry : Nat) (s : State) : Host.Outcome State Fault Refusal :=
  actIf (decide (site < 2048) && decide (entry ≤ 64)) s fun s =>
    match imbalance s site entry with
    | some r => if monitored s site then recFault s site 0x4003 (.rejoin site r.1 r.2.1 r.2.2) else s
    | none => s

/-! ## The watchdog (R243) -/

/-- A pass of the window lacks its tile: the shadow is incomplete, or no tile is active (R116, R142, R482). -/
def tileWait (u : CU) : Option Pass :=
  if u.firing.isSome then none
  else u.window.find? fun p => if pdSwap (seqDesc u p.desc) then u.shadow.isNone else u.active.isNone

/-- A LAST pass that is first in the window, or whose words have come, would add a fifth waiting slot, or the TYPE 0x3 descriptor at
decode would (R127, log entry 80): the tag. -/
def steerWait (u : CU) : Option Nat :=
  match u.window.zipIdx.find? fun p => (p.2 = 0 || u.act.head?.any fun w => w.word.tag = p.1.tag) && fifthWait u p.1 with
  | some p => some p.1.tag
  | none =>
    let d := seqDesc u u.pos
    if u.pos != 0x3FF && u.cur.isSome && pdType d = 3 && (handleOf u (pdHandle d)).st == .ready && !(handleOf u (pdHandle d)).ordered &&
        drainCrowds u (pdHandle d) (pdDrain d) then some ((pdTag d + tagBase u) % 65536) else none

/-- A pass of the window waits for its slot-load data (R121, R482). -/
def loadWait (u : CU) : Option Pass := u.window.find? fun p => !p.loaded

/-- The drain waits for the element input of its slot (R131, R482). -/
def elemWait (u : CU) : Option DrainReq :=
  match u.drain with
  | some dr => if dr.elems.isNone && phInEn (progHead u dr.req.prog) && (handleOf u dr.req.handle).elem.isNone then some dr.req else none
  | none => none

/-- A wait or block of a unit that the watchdog times, by its number: at an MU list `l` waits on its condition (0–11),
generator `g` is blocked (12 + g), the head of queue `q` is blocked (16 + q); at a CU its gate (0), a blocked handle (1), a
steering block of a pass (2) or of a token (3), a blocked activation lane (4), a pass that waits for its tile (5) or its slot load (6),
a column table that waits for drains or for its words (7), a drain that waits for its element input (8); at a switch, a fork of
entry `e` that holds a word (32 + e). -/
def waitStands (s : State) (k n : Nat) : Bool :=
  if 32 ≤ n then
    let w := swOf s k
    let i := n - 32
    !((bufOf w i 0).isEmpty) && decide (1 < (outPorts (circuit w i)).length) && !(hasCredits s k i)
  else if siteIsCu k then
    let u := cuOf s k
    match n with
    | 0 => !((heldWaits s k).isEmpty)
    | 1 => u.waitSince.isSome && (heldWaits s k).isEmpty
    | 2 => (steerWait u).isSome
    | 3 => tokenHeld u
    | 4 => (laneStuck u).isSome
    | 5 => (tileWait u).isSome
    | 6 => (loadWait u).isSome
    | 7 => tableWaits u
    | 8 => (elemWait u).isSome
    | _ => false
  else
    let u := muOf s k
    if n < 12 then (heldWaits s k).any fun w => w.1 = n
    else if n < 16 then (genOf u (n - 12)).blockedSince.isSome
    else (queueEads u (n - 16)).any fun e => e.blockedSince.isSome

/-- The wait is on a counter that imports a shared object: an external wait. -/
def externalWait (s : State) (k n : Nat) : Bool :=
  (heldWaits s k).any fun w => w.1 = n && (importObj s k (wcCounter w.2.1)).isSome

/-- The tag of the descriptor that a wait holds back: that of a list's next entry, or the sequencer's (R223, R243). -/
def waitTag (s : State) (k l : Nat) : Nat :=
  if siteIsCu k then
    let u := cuOf s k
    let d := seqDesc u u.pos
    (pdTag d + tagBase u + u.rep * pdTstep d) % 65536
  else
    let u := muOf s k
    let p := listOf u l
    let e := stEnt u.stores 0x0A 16 p.pos
    let d := if ieSrc e = 1 then stEnt u.stores 0x09 128 (ieDesc e) else stEnt u.stores 0x08 128 (ieDesc e)
    (dTag d + (u.cur.map Grant.tagBase).getD 0 + p.rep * ieTstep e) % 65536

/-- What WATCHDOG records of a wait or block: the counter with target and value, or the blocked resource and its tag (R122, R166,
R243). -/
def watchRec (s : State) (k n : Nat) : FaultRec :=
  let blank (tag : Nat) : FaultRec := .wait k n 0 0 tag
  let cond := (heldWaits s k).find? fun w => w.1 = n
  if 32 ≤ n then blank (((bufOf (swOf s k) (n - 32) 0).head?.map fun f => f.word.tag).getD 0)
  else if siteIsCu k then
    let u := cuOf s k
    match n with
    | 0 => match cond with
      | some w => .wait k (wcCounter w.2.1) (waitTarget s k w.2.1 w.2.2) (ctrOf s k (wcCounter w.2.1)).value (waitTag s k 0)
      | none => blank 0
    | 1 => let d := seqDesc u u.pos
           .handle k ((pdHandle d + u.rep * pdHstep d) % 64) ((pdTag d + tagBase u + u.rep * pdTstep d) % 65536)
    | 2 => blank ((steerWait u).getD 0)
    | 3 => blank ((u.tokIn.head?.map fun f => (tokenOf f).2.1).getD 0)
    | 4 => .lane k 4 ((laneStuck u).getD 0)
    | 5 => blank (((tileWait u).map (·.tag)).getD 0)
    | 6 => blank (((loadWait u).map (·.tag)).getD 0)
    | 7 => blank ((pdTag (seqDesc u u.pos) + tagBase u) % 65536)
    | _ => blank (((elemWait u).map (·.tag)).getD 0)
  else
    let u := muOf s k
    if n < 12 then
      match cond with
      | some w => .wait k (wcCounter w.2.1) (waitTarget s k w.2.1 w.2.2) (ctrOf s k (wcCounter w.2.1)).value (waitTag s k n)
      | none => blank 0
    else
      let held (g : Nat) (i : Issued) (key : Nat) (slots : List Nat) : FaultRec :=
        let accs := accessesOf s k i
        let at_ := if key != 0 then blockedAt u key accs slots
          else match accs.find? fun a => !(ringReady u a && tagReady u a (slotFor u a) i.tag) with
            | some a => (a.ring, slotFor u a)
            | none => (0x3F, 0)
        .access k g at_.1 at_.2 i.tag
      if n < 16 then
        match (genOf u (n - 12)).iss with
        | some i => held (n - 12) i (genOf u (n - 12)).key (genOf u (n - 12)).slots
        | none => blank 0
      else match (queueEads u (n - 16)).find? fun e => e.blockedSince.isSome with
        | some e => held (n - 12) e.iss e.key e.slots
        | none => blank 0

/-- WATCHDOG_EXPIRY: a wait has lasted its period; it ends in WATCHDOG, an unmet one on an orphan in ORPHAN (R243, R250).
External waits have a period of their own, and none when it is 0. -/
def execWatchdogExpiry (site wait : Nat) (s : State) : Host.Outcome State Fault Refusal :=
  actIf (decide (site < 2048) && decide (wait < 96)) s fun s =>
    let ext := wait < 12 && externalWait s site wait
    if !(unitLive s site) || !(waitStands s site wait) || (ext && dget s 0x231002 = 0) then s
    else recFault s site 0x4001 (watchRec s site wait)

end Sys2Proof.Machine
end

