-- ==== Sys2Proof/Machine/Sched.lean ====
section
/-! DEFINITION. Runs and the BE scheduler: charges (R287), virtual time (R286), turn starts with Terms and bridge slots (R193,
R196, R262), the end of a turn and of a run (R284), zero-extent runs (R273, R274), Recess (R289 to R295) and teardown (R296). -/

namespace Sys2Proof.Machine

/-! ## Charges and virtual time -/

/-- Strips of a mask. -/
def stripCount (m : Nat) : Nat := popBits m 64

/-- Charges the whole µs of the hold that have not been charged (R286, R287). -/
def charge (s : State) (c : Nat) : State :=
  modCtx s c fun x =>
    match x.holdSince with
    | none => x
    | some t =>
      let all := (s.fclk - t) / 1800
      let n := stripCount x.strips * (all - x.charged)
      { x with charged := max x.charged all, stripUs := (x.stripUs + n) % 2 ^ 64,
               vtime := if x.lc || x.weight = 0 then x.vtime else (x.vtime + n * (1000000 / x.weight)) % 2 ^ 64 }

/-- The context begins to hold its strips: the firmware begins to write a turn's blocks, or a restore (R287). -/
def beginHold (s : State) (c : Nat) : State :=
  modCtx s c fun x => if x.holdSince.isSome then x
    else { x with holdSince := some s.fclk, charged := 0, quantumAt := s.fclk }

/-- The hold ends: the remainder is charged, and the strips are free. -/
def endHold (s : State) (c : Nat) : State := modCtx (charge s c) c fun x => { x with holdSince := none }

/-- A BE context sets LAUNCH_PENDING while no run of it is in progress: it receives no credit for idle time (R286). -/
def setPend (s : State) (c : Nat) : State :=
  let x := ctxOf s c
  if x.pend || x.run.isSome then s
  else
    let others := ctxsWith s fun y => !y.lc && (y.st == .running || y.pend)
    let least := (others.map fun d => (ctxOf s d).vtime).foldl (fun m v => some (min v (m.getD v))) none
    setCtx s c { x with pend := true, vtime := max x.vtime (least.getD 0) }

/-! ## Turn starts -/

/-- A turn start is refused when its circuits need a lost bridge, or more section slots than are free (R196, R427). -/
def bridgeRefused (s : State) (c : Nat) (need : List Nat) : Bool :=
  (List.range 8).any fun i =>
    let n := need.getD i 0
    let used := sumOf ((s.ctxs.filter fun e => e.1 != c).map fun e =>
      match e.2.run with
      | some r => r.bridge.getD i 0
      | none => 0)
    decide (0 < n) && (s.health.bridges.getLsbD (i / 2) || decide (28 < used + n))

/-- A shape entry that the turn's ZGATE names is zero, or a tile counter has a zero count (R272, R273). -/
def turnZero (f : List Byte) (t : Nat) (shape : List Nat) : Bool :=
  let shp (i : Nat) : Nat := shape.getD i 0
  ((List.range 16).any fun i => (secZgate f t).testBit i && shp i = 0) ||
  (((blocksOf f t).filter fun b => b.store = 0x0F && b.unit = 1).any fun b =>
    (List.range b.count).any fun i =>
      let d := blkEnt f b i
      d != 0 && (List.range (tcDims d)).any fun j => tcCount d shp j = 0)

/-- The load status of R264 for a turn start that is refused (R185, R196). -/
def statusTurn (t : Nat) : Nat := 0x12 * 2 ^ 24 + t * 2 ^ 16 + 0x3002

/-- The load status of a turn start that is accepted (R264). -/
def turnOk (t : Nat) : Nat := t * 2 ^ 16

/-- Events of a run's end: the RUN_DONE record (R383). -/
def runDone (s : State) (c : Nat) (r : Run) (fault : W16) (flags : Nat) : State :=
  let us_ := (s.fclk - r.start) / 1800
  post s (cmdQueue s r.launch.cmd)
    { kind := 2, status := 0, fault := fault, cookie := r.launch.cmd.cookie, ctx := c,
      flags := flags + b2n r.anyZero + 16 * b2n r.launch.auto, detail := r.launch.num + us_ * 2 ^ 32 }

/-- Units without work complete their part as the run starts, and raise their EVENT 0b011 routes once (R260, R273). -/
def beginUnits (s : State) (c : Nat) : State :=
  let x := ctxOf s c
  match x.run with
  | some r =>
    if r.zero || r.staged then s
    else (maskSites (ctxMask s x)).foldl (fun s k => if unitRun s k then s else partRoutes s k) s
  | none => s

/-- The configuration of the run's present turn is written under a Term (R193, R262). -/
def configure (s : State) (c term : Nat) : State :=
  let x := ctxOf s c
  match x.syl, x.run with
  | some y, some r =>
    let z := turnZero y.file r.turn r.launch.shape
    let s := setCtx (takeTerm s c term) c
      { x with termWait := false, loadStatus := turnOk r.turn,
               run := some { r with zero := z, zeroDone := false, anyZero := r.anyZero || z, bridge := bridgeNeed s c y r.turn } }
    let s := layRing (writeTurn (beginHold s c) c r.turn term) c y r.turn term
    if r.staged then s else ringTurnStart (beginUnits s c) c
  | _, _ => s

/-- Starts the run's present turn: it needs its bridge slots and a Term, for which it waits at most 1 ms (R193, R196). The
answer is false when the start is refused. -/
def startTurn (s : State) (c : Nat) : Bool × State :=
  let x := ctxOf s c
  match x.syl, x.run with
  | some y, some r =>
    if bridgeRefused s c (bridgeNeed s c y r.turn) then (false, s)
    else
      match freeTerm s with
      | some term => (true, configure s c term)
      | none => (true, bump (modCtx s c fun x => { x with termWait := true }) 0x230005 1)
  | _, _ => (false, s)

/-! ## Tensors of a run -/

/-- A run starts, or is discarded: no step of it has begun (R90). Steps that have ended with an earlier run still wait for their
merge (R95). -/
def freshSteps (m : Sparse Tensor) : Sparse Tensor :=
  m.map fun e => if 512 ≤ e.1 then e else (e.1, stepDone e.2)

/-- What a run that is aborted leaves as it found it (R323): the Report Cards and tensors. -/
def beforeRun (x : Ctx) : Option (Sparse RCard × Sparse Tensor) := some (x.cards, freshSteps x.tensors)

/-! ## The end of a run -/

/-- The windows of a context start to close (R298). -/
def closeWindows (s : State) (c : Nat) : State :=
  let s := (windowsOf s c).foldl (fun s w => startClose s w none none) s
  { s with mwins := s.mwins.map fun e => if e.2.ctx = c && e.2.st = 1 then (e.1, { e.2 with st := 2 }) else e }

/-- A context without a run: LOADED, or still CLOSING with its windows closing. -/
def leaveRun (s : State) (c : Nat) : State :=
  let s := endHold s c
  let s := applyResets s c fun i => decide (i < 512)
  let x := ctxOf s c
  let cmds := match x.recess with
    | some q => q.cmds
    | none => []
  let s := setCtx s c { x with st := if x.st == .closing then .closing else .loaded, run := none, recess := none,
                               rewind := false, hostHold := false, twinFault := none, cmp := [], termWait := false,
                               resume := [], tensors := freshSteps x.tensors, before := none, saved := false, heldObjs := [] }
  let s := cmds.foldl (fun s d => complete s d c 0 0) s
  let s := x.resume.foldl (fun s d => complete s d c 0x05 0) s
  if x.st == .closing then closeWindows s c
  else if (ctxOf s c).launches.isEmpty || x.lc then s else setPend s c

/-- A start that is refused ends the run: DISCARDED when no turn of it has run (R185, R196). -/
def refuseStart (s : State) (c : Nat) (first : Bool) : State :=
  let x := ctxOf s c
  match x.run with
  | none => s
  | some r =>
    let s := runDone s c { r with start := if first then s.fclk else r.start } 0x3002 (if first then 8 else 0)
    leaveRun (modCtx s c fun x => { x with loadStatus := statusTurn r.turn }) c

/-- A run that starts at turn 0. -/
def newRun (s : State) (l : Launch) (staged : Bool) : Run :=
  { launch := l, turn := 0, start := s.fclk, zero := false, zeroDone := false, anyZero := false, held := false,
    staged := staged, writing := staged, bridge := [], entry := none, deadline := none,
    timeUp := false, phaseUp := false, posted := false }

/-- Starts a run at once (R284). -/
def startRun (s : State) (c : Nat) (r : Run) : State :=
  let x := ctxOf s c
  let s := setCtx s c { x with st := .running, run := some r, last := some { r.launch with auto := false }, pend := false,
                               tensors := freshSteps x.tensors, before := beforeRun x }
  let q := startTurn s c
  if q.1 then q.2 else refuseStart q.2 c true

/-- The launch that a release starts: the oldest queued one, else the last one again when the entry has AUTO (R321). -/
def dueLaunch (x : Ctx) (auto : Bool) : Option Launch :=
  match x.launches with
  | l :: _ => some l
  | [] => if auto then x.last.map fun l => { l with auto := true } else none

/-- A wing that the context's strips lie in cannot start runs; a FAILED primary whose shadow is to be promoted skips none (R327, R429,
R436). -/
def wingsOut (s : State) (x : Ctx) : Bool :=
  (List.range 4).any fun w => fld x.strips (16 * w) 16 != 0 &&
    ((wingOf s w).st == .fenced || ((wingOf s w).st == .failed && (wingOf s (partner w)).st != .twinShadow))

/-- A release that starts no run. -/
def noRun (s : State) (t : Nat) : State := modTt s t fun x => { x with noRun := satAdd 16 x.noRun 1 }

/-- The phase deadline of a release entry (R322). -/
def deadlineOf (e : Nat) (phase : Nat) : Option Nat := if teDl e = 0 then none else some (phase + teDl e)

/-- A deferred release starts its run with the deadline of its own release, unless a wing has been fenced meanwhile (R321, R323, R436). -/
def startDeferred (s : State) (c : Nat) : State :=
  let x := ctxOf s c
  let t := ttOf s x.tt
  if !x.lc || x.st != .loaded || x.run.isSome then s
  else match t.deferred with
    | none => s
    | some (e, cyc, ph) =>
      match (if (x.launches.isEmpty && gateRead s 3 != 1) || wingsOut s x then none else dueLaunch x (teAuto (entryOf s e))) with
      | none => noRun (setTt s x.tt { t with deferred := none }) x.tt
      | some l =>
        let s := setTt s x.tt { t with deferred := none, runs := satAdd 32 t.runs 1 }
        let s := modCtx s c fun x => { x with launches := x.launches.drop 1 }
        startRun s c { newRun s l false with entry := some (e, cyc, ph), deadline := deadlineOf (entryOf s e) ph,
                                             phaseUp := t.deferUp.1, timeUp := t.deferUp.2 }

/-- The run is complete: its RUN_DONE is posted once, and its slack is taken (R284, R322). With twins it is the primary's completion
that counts (R327, R433). -/
def postRun (s : State) (c : Nat) : State :=
  let x := ctxOf s c
  match x.run with
  | none => s
  | some r =>
    if r.posted then s
    else
      let s := runDone s c r 0 0
      let s := modCtx s c fun x => { x with run := some { r with posted := true } }
      let h := (srcOf s (ttSource s x.tt)).high
      match r.deadline with
      | some p => if h < p then modTt s x.tt fun t => { t with minSlack := min t.minSlack (min (p - h) 0xFFFFFFFF) } else s
      | none => s

/-- The last turn has completed, and the next work of the context follows (R284). -/
def endRun (s : State) (c : Nat) : State := startDeferred (leaveRun (postRun s c) c) c

/-! ## The end of a turn -/

/-- What the end of a turn makes of the clamp counts of one index, and of a step that its last turn ends (R95, R103, R107, R159): in a
logical section with a QD of the index they join the step, and go with a step that does not take place; else they join the card. The
resets that wait for a step that ends before its merge wait for that merge (R109). -/
def leaveIndex (s : State) (c : Nat) (f : List Byte) (turn i : Nat) : State :=
  let n := turnClamps s c i
  let s := if n = 0 then s else takeClamps s c i
  match sectionQd f turn i with
  | none =>
    if n = 0 then s
    else modCtx s c fun x => { x with cards := sset RCard.empty x.cards i (addClamps (cardOf x i) n) }
  | some _ =>
    modCtx s c fun x =>
      if lastOfSection f turn then
        let m := leaveLate (leaveLate x.tensors i n) (256 + i) 0
        let late := (sget Tensor.fresh x.tensors i).active || (sget Tensor.fresh x.tensors (256 + i)).active
        { x with tensors := smod Tensor.fresh m i fun t => { t with clamp := 0 },
                 resets := x.resets.map fun r => if late && r.1 = i then (lateKey i, r.2) else r }
      else if n = 0 then x
      else { x with tensors := smod Tensor.fresh x.tensors i fun t => { t with clamp := t.clamp + n } }

/-- The clamp counts and steps of a turn that ends. -/
def leaveClamps (s : State) (c : Nat) : State :=
  let x := ctxOf s c
  match x.syl, x.run with
  | some y, some r => (List.range 256).foldl (fun s i => leaveIndex s c y.file r.turn i) s
  | _, _ => s

/-- Nothing of a turn is on a wire, on its way as a credit, in the mesh or as a grant, on the ring or in a bridge endpoint
(R229, R244). -/
def stillWires (s : State) (m : Nat) : Bool :=
  let mine (k : Nat) : Bool := decide (k < 2048) && m.testBit (siteStrip k)
  let ring (k : Nat) : Bool := (decide (2048 ≤ k) && decide (k < 2432) && mine (gridPlace (k - 2048)).1) ||
    (decide (2432 ≤ k) && s.ring.any fun r => mine r.site && r.hops.any fun h => h.1 = k - 2432)
  (s.wires.all fun f => !(mine f.site) && !(ring f.site)) && (s.credits.all fun f => !(mine f.site)) &&
  (s.mesh.all fun p => !(mine p.src)) && (s.flying.all fun f => !(mine f.1)) && (s.gridIn.all fun f => !(mine f.site)) &&
  (s.ring.all fun r => !(mine r.site) || r.bufs.all List.isEmpty)

/-- No output word is left in a unit, and no egress ring of the turn holds a block that is not acknowledged (R352). -/
def outputsDone (s : State) (c m : Nat) : Bool :=
  ((maskSites m).all fun k =>
    if siteIsCu k then (cuOf s k).outq.isEmpty else (muOf s k).outq.isEmpty) &&
  ((ringWindows s c).all fun w => !(wdEgress (chanOf s w).wd) || !(ringActive s (chanOf s w).wd) || ringOcc s (chanOf s w).wd = 0)

/-- No step of the turn's logical section waits for its merge or release pass; a LAG = 1 step may end before its merge, once the step
before it is merged (R95). -/
def stepsMerged (x : Ctx) (shadow : Bool) : Bool :=
  match x.syl, x.run with
  | some y, some r => !(lastOfSection y.file r.turn) ||
      (List.range 256).all fun i =>
        match sectionQd y.file r.turn i with
        | none => true
        | some e =>
          let key := i + if shadow then 256 else 0
          !(sget Tensor.fresh x.tensors key).active || (qdLag e.2 = 1 && !(lateOpen x i))
  | _, _ => true

/-- The turn is complete at the primary: every unit has completed its part, and nothing is under way (R229, R284). -/
def turnDone (s : State) (c : Nat) : Bool :=
  let x := ctxOf s c
  unitsFin s c && outputsDone s c x.strips && stillWires s x.strips && stepsMerged x false

/-- The turn is complete at the shadow. -/
def twinDone (s : State) (c : Nat) : Bool :=
  let x := ctxOf s c
  let m := shadowMask s x.strips
  m = 0 || (twinsFin s c && outputsDone s c m && stillWires s m && stepsMerged x true)

/-- The turn has completed: its configuration ends, and the next turn starts, waits at its Recess point, or the run ends. -/
def nextTurn (s : State) (c : Nat) : State :=
  let s := releaseConfig (ringTurnEnd (leaveClamps s c) c) c false
  let x := ctxOf s c
  match x.syl, x.run with
  | some y, some r =>
    if r.turn + 1 < hdrNsect y.file then
      let s := setCtx s c { x with run := some { r with turn := r.turn + 1, zero := false, zeroDone := false,
                                                        held := x.recess.isSome || x.st == .closing } }
      if x.recess.isSome || x.st == .closing then s
      else
        let q := startTurn s c
        if q.1 then q.2 else refuseStart q.2 c false
    else endRun s c
  | _, _ => s

/-- A run of the context executes its turn. -/
def turnRuns (x : Ctx) : Bool :=
  executes x && !x.termWait && (match x.run with
    | some r => !r.staged && !r.held
    | none => false)

/-- The present turn is the run's last. -/
def lastTurn (x : Ctx) : Bool :=
  match x.syl, x.run with
  | some y, some r => decide (hdrNsect y.file ≤ r.turn + 1)
  | _, _ => false

/-- TURN_COMPLETE: the turn is complete (R229, R284). With twins the run completes when the primary has completed its last turn, and
the strips go on when both twins have (R327, R433; DESIGN CHOICE, log entry 74: the twins change turns together). -/
def execTurnComplete (ctx : Nat) (s : State) : Host.Outcome State Fault Refusal :=
  actIf (decide (ctx < 64)) s fun s =>
    let x := ctxOf s ctx
    let zero := (x.run.map Run.zero).getD false
    if !(turnRuns x) || zero || x.recess.any (·.saving) || !(turnDone s ctx) then s
    else if twinDone s ctx then nextTurn s ctx
    else if lastTurn x then postRun s ctx else s

/-- The completion table of a turn (R274): export and increment of each valid entry. -/
def completions (f : List Byte) (t : Nat) : List (Nat × Nat) :=
  ((blocksOf f t).filter fun b => b.unit = 3 && b.store = 0x12).flatMap fun b =>
    (List.range b.count).filterMap fun i =>
      let e := blkEnt f b i
      if bitOf e 63 then some (fld e 32 4, fld e 0 32) else none

/-- ZERO_EXTENT_COMPLETE: every unit raises its EVENT 0b011 routes and the completion table is applied; the turn completes
once the packets of those routes are delivered (R273, R274). -/
def execZeroExtentComplete (ctx : Nat) (s : State) : Host.Outcome State Fault Refusal :=
  actIf (decide (ctx < 64)) s fun s =>
    let x := ctxOf s ctx
    match x.syl, x.run with
    | some y, some r =>
      if !(turnRuns x) || !r.zero then s
      else
        let s := if r.zeroDone then s
          else
            let s := (maskSites (ctxMask s x)).foldl (fun s k => partRoutes s k) s
            let s := setCtx s ctx { x with run := some { r with zeroDone := true } }
            (completions y.file r.turn).foldl (fun s e =>
              match exportObj x e.1 with
              | some o => ownRaise s ctx o e.2
              | none => s) s
        let x := ctxOf s ctx
        if stillWires s (ctxMask s x) && stepsMerged x false && stepsMerged x true && turnRuns x then nextTurn s ctx else s
    | _, _ => s

/-! ## Strips and lending (R286, R288) -/

/-- Another context holds a strip of the mask. -/
def stripsHeld (s : State) (c mask : Nat) : Bool :=
  s.ctxs.any fun e => e.1 != c && (e.2.holdSince.isSome || e.2.termWait) && Nat.land (ctxMask s e.2) mask != 0

/-- The direct regions of an access descriptor, base and bytes (R291). -/
def directRegions (d : Nat) : List (Nat × Nat) :=
  let all : List (Nat × Nat × Nat) := match dType d with
    | 1 => [(dRing d, dBase d, dLimit d)]
    | 2 => [(gIring d, gIbase d, gIlimit d), (dRing d, dBase d, gTlimit d)]
    | 3 => [(dRing d, dBase d, dLimit d), (lDring d, lDbase d, fld (dW d 25) 0 15)]
    | _ => if 2 ≤ eDir d then [] else [(dRing d, dBase d, dLimit d)]
  (all.filter fun a => a.1 = 0x3F).map fun a => (a.2.1, 64 * a.2.2)

/-- The descriptors of an MU's stores that are in use. -/
def descsOf (m : Mem) : List Nat :=
  ((List.range 384).map fun i => if i < 256 then stEnt m 0x08 128 i else stEnt m 0x09 128 (i - 256)).filter (· != 0)

/-- The most bytes that a turn of a syllabus can have live at a site: the slots of the handles its passes name, whole rings, direct
regions and scratchpad images (R291). DESIGN CHOICE (log entry 25): the firmware takes this bound for B_live. -/
def siteLive (y : Syllabus) (t k : Nat) : Nat :=
  let m := turnStores y t k
  if siteIsCu k then
    let ds := ((List.range 1023).map fun i => stEnt m 0x01 16 i).filter fun d => d != 0 && pdType d = 0
    16384 * min 16 ((ds.flatMap fun d => (List.range (if pdHstep d = 0 then 1 else min 64 (pdRm1 d + 1))).map fun r =>
      (pdHandle d + r * pdHstep d) % 64).eraseDups.length)
  else
    let rings := sumOf ((List.range 32).map fun r => let q := ringShape m r
                                                     q.1 * q.2.2)
    let direct := ((descsOf m).flatMap directRegions).eraseDups
    let img := (blocksOf y.file t).filter fun b => b.unit != 3 && b.store = 0x14 && blkSite y t b = k
    rings + sumOf (direct.map (·.2)) + sumOf (img.map fun b => 64 * b.count)

/-- The bound of a turn's live bytes over its sites. -/
def liveBytes (y : Syllabus) (t : Nat) : Nat := sumOf ((turnSites y t).map (siteLive y t))

/-- The longest save or restore of R292 in FCLK, 3 µs and B_live at n × 755.3 GB/s, and the block writing of R262, for `n` strips. -/
def saveFclk (bytes n : Nat) : Nat := 5400 + ceilDiv (18000 * bytes) (7553000 * max n 1)
def writeFclk (n : Nat) : Nat := 10800 + 360 * n

/-- S_save or S_r of a context's turn. -/
def ctxSave (x : Ctx) (t : Nat) : Nat := saveFclk ((x.syl.map fun y => liveBytes y t).getD 0) (stripCount x.strips)

/-- The block writing of a context's turn. -/
def ctxWrite (x : Ctx) (t : Nat) : Nat := writeFclk ((x.syl.map fun y => stripCount (turnStrips y t)).getD 0)

/-- The turn that a context starts or resumes next. -/
def nextTurnNo (x : Ctx) : Nat := (x.run.map (·.turn)).getD 0

/-- An LC context whose strips the mask includes keeps them from a BE context: it does not lend, it runs, its state keeps
them reserved, or its next release is too near (R288, R296). -/
def lendRefused (s : State) (x y : Ctx) : Bool :=
  if !y.lc || y.st == .free || Nat.land y.strips x.strips = 0 then false
  else if !y.lend || y.st == .running || y.st == .detention || y.run.any (·.staged) || !y.resume.isEmpty then true
  else
    let t := nextTurnNo x
    let lambda := us x.pbound + ctxSave x t + ctxWrite y (nextTurnNo y)
    match predict s y.tt with
    | none => false
    | some d => decide (d ≤ lambda + ctxSave x t + ctxWrite x t)

/-- The strips of a context are free for it (R286). -/
def stripsFree (s : State) (c : Nat) : Bool :=
  let x := ctxOf s c
  !(stripsHeld s c (ctxMask s x)) && (x.lc || !(s.ctxs.any fun e => e.1 != c && lendRefused s x e.2))

/-- A pair retirement under way keeps the context in RECESS (R422). -/
def retiringHolds (s : State) (c : Nat) : Bool := s.wings.any fun w => w.recessed.contains c

/-- The firmware begins to restore a saved context: it needs a Term, for which it waits (R193, R287, R295). -/
def beginRestore (s : State) (c : Nat) : State :=
  match freeTerm s with
  | some t => beginHold (modCtx (takeTerm s c t) c fun x => { x with termWait := false }) c
  | none => if (ctxOf s c).termWait then s else bump (modCtx s c fun x => { x with termWait := true }) 0x230005 1

/-- A saved context that may resume: not held by its host, and no restore under way. -/
def mayResume (s : State) (c : Nat) : Bool :=
  let x := ctxOf s c
  x.st == .recess && x.recess.isNone && !x.hostHold && x.holdSince.isNone && !x.termWait && !(retiringHolds s c)

/-- Insertion by virtual time, ties by context number (R286). -/
def byVtime (s : State) (c : Nat) : List Nat → List Nat
  | [] => [c]
  | d :: l => if (ctxOf s c).vtime < (ctxOf s d).vtime then c :: d :: l else d :: byVtime s c l

/-- The contexts that the scheduler considers, LC resumes first, then BE in ascending v. -/
def schedOrder (s : State) : List Nat :=
  let lc := (List.range 64).filter fun c => (ctxOf s c).lc && mayResume s c
  let be := (List.range 64).filter fun c =>
    let x := ctxOf s c
    !x.lc && ((x.st == .loaded && x.pend && x.run.isNone) || mayResume s c)
  lc ++ be.foldl (fun l c => byVtime s c l) []

/-- Starts or resumes one context whose strips are free. A wing that has been fenced lets the runs in flight complete (R429, R436). -/
def schedOne (s : State) (c : Nat) : State :=
  let x := ctxOf s c
  if !(stripsFree s c) then s
  else if x.st == .recess then beginRestore s c
  else if wingsOut s x then s
  else match x.launches with
    | [] => modCtx s c fun x => { x with pend := false }
    | l :: r => startRun (setCtx s c { x with launches := r, pend := false }) c (newRun s l false)

/-- SCHEDULER_START: eligible contexts start or resume in ascending v (R286). -/
def execSchedulerStart (s : State) : Host.Outcome State Fault Refusal :=
  act s fun s => (schedOrder s).foldl schedOne s

/-! ## Recess requests (R289, R293, R294) -/

/-- A Recess request to a RUNNING context; a second one merges with the first. -/
def requestRecess (s : State) (c : Nat) (byHost : Bool) (cmd : Option CmdRef) : State :=
  modCtx s c fun x =>
    if x.st != .running then x
    else match x.recess with
      | some q => { x with recess := some { q with byHost := q.byHost || byHost, cmds := q.cmds ++ cmd.toList } }
      | none => { x with recess := some { since := s.fclk, byHost := byHost, cmds := cmd.toList, saving := false } }

/-- BE_QUANTUM_EXPIRY: the hold is charged; a competitor with lower v makes the firmware request a Recess (R286, R287). -/
def execBeQuantumExpiry (ctx : Nat) (s : State) : Host.Outcome State Fault Refusal :=
  actIf (decide (ctx < 64)) s fun s =>
    let x := ctxOf s ctx
    if x.lc || x.st != .running || x.holdSince.isNone then s
    else
      let s := modCtx (charge s ctx) ctx fun x => { x with quantumAt := s.fclk }
      let x := ctxOf s ctx
      let rival := s.ctxs.any fun e =>
        e.1 != ctx && !e.2.lc && (e.2.pend || (e.2.st == .recess && !e.2.hostHold)) &&
        Nat.land e.2.strips x.strips != 0 && decide (e.2.vtime < x.vtime)
      if rival then requestRecess s ctx false none else s

/-- LEND_RECESS_REQUEST: the firmware asks a borrower for the strips that an LC context lends (R288). -/
def execLendRecessRequest (ctx : Nat) (s : State) : Host.Outcome State Fault Refusal :=
  actIf (decide (ctx < 64)) s fun s =>
    let x := ctxOf s ctx
    let borrows := s.ctxs.any fun e => e.2.lc && e.2.lend && e.2.st != .free && Nat.land e.2.strips x.strips != 0
    if x.lc || !borrows then s else requestRecess s ctx false none

/-! ## Recess points (R290) -/

/-- A unit has ended its current grant and holds no other work. -/
def grantDone (s : State) (k : Nat) : Bool :=
  if !(unitRun s k) || unitFin s k then true
  else if !(inGroup (unitStores s k)) then false
  else if siteIsCu k then
    let u := cuOf s k
    (u.cur.isNone || u.pos = 0x3FF) && u.window.isEmpty && u.firing.isNone && u.streamed.isEmpty && u.drain.isNone &&
    !(u.ready.any (·.ready)) && u.items.isEmpty && u.outq.isEmpty
  else
    let u := muOf s k
    ((List.range 12).all fun l => ((listOf u l).fin || u.cur.isNone) && (pendOf u l).isNone) &&
    ((List.range 4).all fun g => (genOf u g).iss.isNone) && ((List.range 8).all fun q => (queueEads u q).isEmpty) &&
    u.outq.isEmpty

/-- The switch entries that take what entry `i` of site `j` sends on output port `p`, across the bridges too. -/
def hopEntries (s : State) (j i p : Nat) : List (Nat × Nat) :=
  let next : Option (Nat × Nat × Nat) := match neighbour j p with
    | some n => some (n, oppositePort p, outSlots (circuit (swOf s j) i))
    | none => (s.ring.find? fun r => r.site = j && r.port = p && r.entry = i).map fun r =>
        let pl := gridPlace r.far
        (pl.1, pl.2, r.slots)
  match next with
  | none => []
  | some (n, q, sl) => ((List.range 64).filter fun h =>
      let e := circuit (swOf s n) h
      ceValid e && ((ceInA e = q && Nat.land (ceSlotsA e) sl != 0) ||
        (ceOp e = 1 && ceInB e = q && Nat.land (ceSlotsB e) sl != 0))).map fun h => (n, h)

/-- The words that leave some switch entries come to a lane of unit `k` in the end. The number bounds the hops. -/
def leadsTo : Nat → State → Nat → List (Nat × Nat) → Bool
  | 0, _, _, _ => false
  | _, _, _, [] => false
  | n + 1, s, k, es =>
    (es.any fun e => e.1 = k && (outPorts (circuit (swOf s k) e.2)).any fun p => decide (4 ≤ p)) ||
    leadsTo n s k (es.flatMap fun e =>
      ((outPorts (circuit (swOf s e.1) e.2)).filter fun p => decide (p < 4)).flatMap (hopEntries s e.1 e.2)).eraseDups

/-- The switch entries of a mask whose buffers hold a word. -/
def heldEntries (s : State) (m : Nat) : List (Nat × Nat) :=
  (maskSites m).flatMap fun k => ((List.range 64).filter fun i =>
    !((bufOf (swOf s k) i 0).isEmpty) || !((bufOf (swOf s k) i 1).isEmpty)).map fun i => (k, i)

/-- A unit of a turn with the strips `m` has nothing in flight: EADs that have sent no request may stand in its queues, none of them in
the scoreboard (R175, R290). -/
def nothingInFlight (s : State) (m k : Nat) : Bool :=
  !(leadsTo 4096 s k (heldEntries s m)) &&
  (if siteIsCu k then
    let u := cuOf s k
    u.firing.isNone && u.streamed.isEmpty && u.drain.isNone && u.act.isEmpty && u.wgt.isEmpty && u.tokIn.isEmpty && u.outq.isEmpty
  else
    let u := muOf s k
    ((List.range 4).all fun g => (genOf u g).iss.isNone) && u.sb.isEmpty &&
    ((List.range 8).all fun q => (queueEads u q).all (owesRequests s k)) && (u.lanes.all fun e => e.2.isEmpty) &&
    u.outq.isEmpty)

/-- A remote wait of the turn is outstanding (R289). -/
def remoteWait (s : State) (c : Nat) : Bool :=
  let x := ctxOf s c
  let rings := (ringWindows s c).filter fun w => ringActive s (chanOf s w).wd
  ((maskSites (ctxMask s x)).any fun k => (heldWaits s k).any fun h =>
    (importObj s k (wcCounter h.2.1)).isSome ||
    rings.any fun w => let d := (chanOf s w).wd
                       (ringSites s x d).contains k && wdCtr d = wcCounter h.2.1) ||
  (rings.any fun w => let y := chanOf s w
                      wdEgress y.wd && (egressBlock s y).isSome && !(behind y.cursor y.limit))

/-- The turn runs in Apevo tile mode. -/
def tileTurn (x : Ctx) : Bool :=
  match x.syl, x.run with
  | some y, some r => secKind y.file r.turn = 2
  | _, _ => false

/-- The turn is still (R290). A tile-mode turn has Recess points only at Apevo barrier instructions (R141). DESIGN CHOICE (log entry
79): the tiles stand at a barrier where every unit has ended its grant, and a remote wait is none. -/
def turnStill (s : State) (c : Nat) : Bool :=
  let ks := maskSites (ctxMask s (ctxOf s c))
  stillWires s (ctxMask s (ctxOf s c)) && ((ks.all (grantDone s)) ||
    (!(tileTurn (ctxOf s c)) && remoteWait s c && ks.all fun k => grantDone s k || nothingInFlight s (ctxMask s (ctxOf s c)) k))

/-- RECESS_POINT_REACHED: a turn under a Recess request is at a turn boundary or still, and saving starts (R289, R290). -/
def execRecessPointReached (ctx : Nat) (s : State) : Host.Outcome State Fault Refusal :=
  actIf (decide (ctx < 64)) s fun s =>
    let x := ctxOf s ctx
    match x.recess, x.run with
    | some q, some r =>
      if q.saving || r.staged || x.termWait || !(executes x) then s
      else if r.held || turnStill s ctx then setCtx s ctx { x with recess := some { q with saving := true } }
      else s
    | _, _ => s

/-! ## Saving (R291, R292) -/

/-- Scratchpad ranges of an MU that are live: occupied ring slots, the direct regions of its descriptors, and the units that
the turn's scratchpad blocks wrote. -/
def liveRanges (s : State) (c k : Nat) : List (Nat × Nat) :=
  let x := ctxOf s c
  let u := muOf s k
  let rings := (List.range 32).flatMap fun r =>
    let q := ringShape u.stores r
    let g := ringOf u r
    (List.range g.occ).map fun i => let a := q.2.1 + ((g.tail + i) % q.1) * q.2.2
                                    (a, a + q.2.2)
  let desc := ((descsOf u.stores).flatMap directRegions).map fun r => (r.1, r.1 + r.2)
  let img := match x.syl, x.run with
    | some y, some r =>
      let home := if onShadow s k == x.promoted then k else siteKey (partner (siteWing k)) (siteRow k) (siteCol k)
      ((blocksOf y.file r.turn).filter fun b => b.unit != 3 && b.store = 0x14 && blkSite y r.turn b = home).map fun b =>
        (64 * b.first, 64 * (b.first + b.count))
    | _, _ => []
  rings ++ desc ++ img

/-- The scratchpad bytes in the ranges; every other byte is zero. -/
def keepRanges (m : Mem) (rs : List (Nat × Nat)) : Mem :=
  m.filter fun e => rs.any fun r => decide (r.1 ≤ e.1) && decide (e.1 < r.2)

/-- A waiting position as the save area keeps it: how long it has waited so far (R251), at a teardown until the fault (R253). -/
def ageOf (now : Nat) (t : Option Nat) : Option Nat := t.map fun t => now - t
/-- The FCLK since which a restored unit has waited. -/
def sinceOf (s : State) (t : Option Nat) : Option Nat := t.map fun t => s.fclk - t

/-- What a copy keeps: everything as found for a teardown, the live state of R291 at a grant, or a turn boundary's unit
state without slots and scratchpad. -/
inductive Copy
  | all | live | boundary
  deriving DecidableEq, Repr

/-- Copies the units of a context into its save area (R291, R292, R296). -/
def copyUnits (s : State) (c : Nat) (what : Copy) : State :=
  let x := ctxOf s c
  let now := x.teardown.getD s.fclk
  (maskSites (ctxMask s x)).foldl (fun s k =>
    if siteIsCu k then
      let u := cuOf s k
      let u := { u with waitSince := ageOf now u.waitSince, slots := if what == .boundary then [] else u.slots }
      modCtx s c fun x => { x with cus := sset CU.idle x.cus k u, sws := sset Switch.idle x.sws k (swOf s k) }
    else
      let u := muOf s k
      let u := { u with lists := u.lists.map fun e => (e.1, { e.2 with waitSince := ageOf now e.2.waitSince }),
                        spad := match what with
                          | .all => u.spad
                          | .live => keepRanges u.spad (liveRanges s c k)
                          | .boundary => [] }
      modCtx s c fun x => { x with mus := sset MU.idle x.mus k u, sws := sset Switch.idle x.sws k (swOf s k) }) s

/-- The saved run of a context that closes is discarded. -/
def discardRun (s : State) (c : Nat) : State := leaveRun (releaseConfig (ringTurnEnd s c) c false) c

/-- SAVE_COMPLETE: the live state is saved, the strips are free and the context is in RECESS (R292, R294). -/
def execSaveComplete (ctx : Nat) (s : State) : Host.Outcome State Fault Refusal :=
  actIf (decide (ctx < 64)) s fun s =>
    let x := ctxOf s ctx
    match x.recess, x.run with
    | some q, some r =>
      if !q.saving then s
      else if x.st == .closing then discardRun s ctx
      else
        let s := modCtx s ctx fun x => { x with cus := [], mus := [], sws := [] }
        let s := if r.held then copyUnits s ctx .boundary
          else releaseConfig (ringRecess (copyUnits s ctx .live) ctx) ctx true
        let s := endHold s ctx
        let objs := keepObjs s ctx
        let s := modCtx s ctx fun x =>
          { x with st := .recess, recess := none, saved := true, heldObjs := objs, hostHold := q.byHost, recessCount := satAdd 32 x.recessCount 1,
                   run := x.run.map fun r => { r with bridge := [] } }
        q.cmds.foldl (fun s d => complete s d ctx 0 0) s
    | _, _ => s

/-! ## Resume (R295) -/

/-- Words and grants that a saved unit holds go on under the new Term (log entry 26). -/
def restamp (term : Nat) (f : Flight) : Flight := { f with word := { f.word with term := term } }
def restampG (term : Nat) (g : Grant) : Grant := { g with term := term }

/-- Puts a saved unit and its switch back. An imported counter takes its object's value, and no route fires (R233, R294). -/
def restoreSite (s : State) (c term k : Nat) : State :=
  let x := ctxOf s c
  let w := sget Switch.idle x.sws k
  let s := modSw s k fun n =>
    { n with bufs := w.bufs.map fun e => (e.1, e.2.map (restamp term)), used := w.used }
  let imports (ctrs : Sparse Ctr) (stores : Mem) : Sparse Ctr :=
    (importsOf stores).foldl (fun m e =>
      match x.run.bind fun r => r.launch.imports.getD e.2 none with
      | some o => smod Ctr.zero m e.1 fun v => { v with value := (objOf s o).value }
      | none => m) ((List.range 48).foldl (fun m i => smod Ctr.zero m i fun v => { v with flags := 8 }) ctrs)
  if siteIsCu k then
    let n := cuOf s k
    let u := sget CU.idle x.cus k
    setCu s k { u with stores := n.stores, term := term, ctrs := imports u.ctrs n.stores, steered := n.steered, tile := n.tile,
                       grants := u.grants.map (restampG term), cur := u.cur.map (restampG term),
                       act := u.act.map (restamp term), wgt := u.wgt.map (restamp term), tokSlots := n.tokSlots,
                       tokIn := u.tokIn.map (restamp term),
                       outq := u.outq.map fun e => (e.1, { e.2.1 with term := term }, e.2.2),
                       waitSince := sinceOf s u.waitSince, fault := n.fault, steerDrop := n.steerDrop }
  else
    let n := muOf s k
    let u := sget MU.idle x.mus k
    setMu s k { u with stores := n.stores, term := term, ctrs := imports u.ctrs n.stores, tagMode := n.tagMode,
                       hmEn := n.hmEn,
                       lists := u.lists.map fun e => (e.1, { e.2 with waitSince := sinceOf s e.2.waitSince }),
                       grants := u.grants.map (restampG term), cur := u.cur.map (restampG term),
                       lanes := u.lanes.map fun e => (e.1, e.2.map (restamp term)),
                       outq := u.outq.map fun e => { e with word := { e.word with term := term } },
                       clamps := n.clamps, hmLog := n.hmLog, fault := n.fault, faultAt := n.faultAt }

/-- A restored context runs on: blocks under a new Term, the live state, held stream blocks; then every unit tests its waits. -/
def restore (s : State) (c term : Nat) : State :=
  let x := ctxOf s c
  match x.syl, x.run with
  | some y, some r =>
    let fresh := r.held
    let z := turnZero y.file r.turn r.launch.shape
    let s := setCtx (takeTerm s c term) c
      { x with st := .running, termWait := false, resume := [], saved := false, heldObjs := [],
               loadStatus := if fresh then turnOk r.turn else x.loadStatus,
               run := some { r with held := false, bridge := bridgeNeed s c y r.turn, zero := z, anyZero := r.anyZero || z } }
    let s := layRing (writeTurn s c r.turn term) c y r.turn term
    let ks := maskSites (ctxMask s (ctxOf s c))
    let s := if fresh then
        -- the log of write footprints is the run's (R270)
        let s := ks.foldl (fun s k => if siteIsCu k then s else modMu s k fun u => { u with foot := (sget MU.idle x.mus k).foot }) s
        ringTurnStart (beginUnits s c) c
      else
        let s := ks.foldl (fun s k => restoreSite s c term k) s
        let s := ringResume s c
        (ks.filter fun k => !(siteIsCu k)).foldl (fun s k => settleMu (takeGrant s k) k) s
    let s := modCtx s c fun x => { x with cus := [], mus := [], sws := [] }
    x.resume.foldl (fun s d => complete s d c 0 0) s
  | _, _ => s

/-- RESTORE_COMPLETE: the live state is restored under a new Term, and the run continues (R193, R295). -/
def execRestoreComplete (ctx : Nat) (s : State) : Host.Outcome State Fault Refusal :=
  actIf (decide (ctx < 64)) s fun s =>
    let x := ctxOf s ctx
    match x.syl, x.run with
    | some y, some r =>
      if x.st != .recess || x.holdSince.isNone then s
      else if bridgeRefused s ctx (bridgeNeed s ctx y r.turn) then
        let s := x.resume.foldl (fun s d => complete s d ctx 0 0) (modCtx s ctx fun x => { x with resume := [] })
        refuseStart s ctx false
      else match (heldTerm s ctx).or (freeTerm s) with
        | some term => restore s ctx term
        | none => if x.termWait then s else bump (modCtx s ctx fun x => { x with termWait := true }) 0x230005 1
    | _, _ => s

/-- What waited for a Term goes on with it (R193). -/
def proceedTerm (s : State) (c : Nat) : State :=
  if !(ctxOf s c).termWait then s
  else match freeTerm s with
    | none => s
    | some term => if (ctxOf s c).st == .recess then beginRestore s c else configure s c term

/-- TERM_COOLED: the value that has cooled longest is free again, and held starts proceed in ascending context (R193). -/
def execTermCooled (s : State) : Host.Outcome State Fault Refusal :=
  act s fun s =>
    let cooling := s.terms.filter fun e => e.2.1.isNone && e.2.2.1 != 0
    let oldest := cooling.foldl (fun (b : Option (Nat × Nat)) e =>
      match b with
      | some (_, t) => if e.2.2.1 < t then some (e.1, e.2.2.1) else b
      | none => some (e.1, e.2.2.1)) none
    match oldest with
    | none => s
    | some (v, _) =>
      let old := sget (none, 0, 64) s.terms v
      let s := { s with terms := sset (none, 0, 64) s.terms v (none, 0, old.2.2) }
      (List.range 64).foldl proceedTerm s

/-! ## Teardown (R296) -/

/-- HBM4E writes that an MU has sent complete: those words that the controllers have not written yet, but for a far stack of a split
device (R296, R429). -/
def landWrites (s : State) (k : Nat) : State :=
  (List.range 8).foldl (fun s q =>
    ((queueEads (muOf s k) q).filter fun e => e.sent && eadDir s k e % 2 = 1 && !(owesRequests s k e)).foldl (fun s e =>
      let bits := eadBits s k e
      let org := eadOrigin s k e
      let code (i : Nat) (p : Int) : Nat :=
        if eadDir s k e = 3 then elemAt bits e.buf i else spadGet (muOf s k).spad bits (absBit org p)
      let cs := ((eadEls s k e).zipIdx.filterMap fun p => p.1.2.map fun _ => code p.2 p.1.1)
      let late := ((eadInside s k e).zip cs).drop (1024 / bits * e.wdone)
      (eadWriteCodes s bits (late.filter fun c => !(apart s (siteWing k) (stackOf s (c.1 / 8).toNat / 4))) (eadInside s k e)).1) s) s

/-- The writes already sent of every unit of a context complete; nothing of its traffic is left at the controllers. -/
def landAll (s : State) (c : Nat) : State :=
  let ks := (heldSites s c).filter fun k => !(siteIsCu k)
  let s := ks.foldl landWrites s
  { s with ctl := s.ctl.filter fun r => !(ks.contains r.site) }

/-- Drains of a CU that a TYPE 0x3 descriptor ordered and that are not complete. -/
def drainDescs (u : CU) : Nat :=
  (u.handles.filter fun e => e.2.ordered && e.2.byDesc).length + b2n (u.drain.any fun d => d.req.byDesc && d.elems.isSome)

/-- The pass descriptors among some passes in order: one for every descriptor's repetitions. -/
def passDescs : List Pass → Nat
  | [] => 0
  | [_] => 1
  | a :: b :: l => passDescs (b :: l) + b2n (a.desc != b.desc || decide (b.rep ≤ a.rep))

/-- TYPE 0x0 descriptors that a CU has decoded and not completed: passes of them are to stream or to accumulate, or repetitions are to
come (R114, R298). -/
def openDescs (u : CU) : Nat :=
  let ps := u.streamed ++ (u.firing.map (·.pass)).toList ++ u.window
  let more := decide (0 < u.rep) && u.pos != 0x3FF && pdType (seqDesc u u.pos) = 0 &&
    !(ps.getLast?.any fun p => p.desc = u.pos && p.rep + 1 = u.rep)
  passDescs ps + b2n more

/-- Work of a context that units had decoded or issued, and passes that had not finished streaming (R298); that of a saved run is in
the save area. -/
def discardedWork (s : State) (c : Nat) : Nat :=
  let x := ctxOf s c
  let v := if x.saved then { s with cus := x.cus, mus := x.mus } else s
  sumOf ((ownSites x).map fun k =>
    if siteIsCu k then
      let u := cuOf v k
      u.window.length + b2n u.firing.isSome + openDescs u + (u.items.filter fun i => match i with | .table _ => true | _ => false).length +
      drainDescs u
    else
      let u := muOf v k
      ((List.range 12).filter fun l => (pendOf u l).isSome).length +
      ((List.range 4).filter fun g => (genOf u g).iss.isSome).length +
      sumOf ((List.range 8).map fun q => (queueEads u q).length))

/-- Stops a run and discards its state (R298, R323, R329): the work discarded is counted where the rule counts it, and the Report
Cards and histories are those of before the run. -/
def abortRun (s : State) (c : Nat) (count : Bool) : State :=
  let s := if count then bump s 0x234008 (discardedWork s c) else s
  let s := landAll s c
  let s := modCtx s c fun x =>
    let p := x.before.getD (x.cards, x.tensors)
    { x with cus := [], mus := [], sws := [], cards := p.1, tensors := p.2 }
  discardRun s c

/-- The held-state copy of a teardown ends, and the strips are free (R296). A context that was in RECESS holds what its save area
holds. -/
def finishTeardown (s : State) (c : Nat) : State :=
  let x := ctxOf s c
  let live := x.holdSince.isSome && !x.saved && x.run.any fun r => !r.held
  let s := if live then
      copyUnits (landAll (modCtx s c fun x => { x with cus := [], mus := [], sws := [] }) c) c .all
    else s
  let s := endHold (releaseConfig (ringTurnEnd s c) c false) c
  modCtx s c fun x => { x with teardown := none, heldState := true, heldRun := x.run, run := none, saved := x.saved }

/-- TEARDOWN_COMPLETE, R296. -/
def execTeardownComplete (ctx : Nat) (s : State) : Host.Outcome State Fault Refusal :=
  actIf (decide (ctx < 64)) s fun s =>
    let x := ctxOf s ctx
    if x.st != .detention || x.teardown.isNone then s else finishTeardown s ctx

/-- PREEMPT_TIMEOUT: P has passed before a Recess point (R294). -/
def execPreemptTimeout (ctx : Nat) (s : State) : Host.Outcome State Fault Refusal :=
  actIf (decide (ctx < 64)) s fun s =>
    let x := ctxOf s ctx
    match x.recess with
    | some q => if x.st != .running || q.saving then s else detain (bump s 0x234007 1) ctx 0x4005 none none
    | none => s

end Sys2Proof.Machine
end

