-- ==== Sys2Proof/Machine/Timetable.lean ====
section
/-! DEFINITION. The Timetable: enable, disable and the checks of R318; releases (R320, R321), SIGNAL and CHECK (R315),
deadlines (R322, R323, R325) and staging (R320). -/

namespace Sys2Proof.Machine

/-! ## Enabling and disabling (R316, R318, R329) -/

/-- An entry obeys R314: no reserved bit, and every field within its action's range. -/
def entryOk (e : Nat) : Bool :=
  let a := teAction e
  fld e 48 16 = 0 && a ≤ 3 && fld e 88 3 = 0 && fld e 80 4 = 0 && (a = 1 || !(teAuto e)) && (a = 1 || teDl e = 0) &&
  (if 2 ≤ a then teCount e != 0 else teCount e = 0)

/-- The first entry of a range that R314 or R316 refuses. -/
def firstBad (s : State) (t first count : Nat) : Option Nat :=
  ((List.range count).find? fun i =>
    let e := entryOf s (first + i)
    !(entryOk e) || !(decide (teOffset e < ttCycleLen s t)) ||
    (i != 0 && decide (teOffset e < teOffset (entryOf s (first + i - 1))))).map (first + ·)

/-- Two ranges share an entry. -/
def rangesMeet (a n b m : Nat) : Bool := decide (a < b + m) && decide (b < a + n)

/-- A range meets the active or the pending range of another enabled timetable (R313, R318). -/
def rangeTaken (s : State) (t first count : Nat) : Bool :=
  (List.range 8).any fun u =>
    let x := ttOf s u
    u != t && x.state = 1 &&
    (rangesMeet first count x.first x.count || rangesMeet first count (dget s (ttObj u 3)) (dget s (ttObj u 4)))

/-- What R318 finds wrong with a timetable over a range: an entry, or 0xFFFE for the descriptor. -/
def rangeFault (s : State) (t first count : Nat) : Option Nat :=
  if !(srcConfigured s (ttSource s t)) || ttCycleLen s t = 0 || !(decide (first + count ≤ 4096)) ||
      rangeTaken s t first count then some 0xFFFE
  else firstBad s t first count

/-- An entry lies in the active or pending range of an enabled timetable (R318). -/
def entryLocked (s : State) (i : Nat) : Bool :=
  (List.range 8).any fun t =>
    let x := ttOf s t
    x.state = 1 && (rangesMeet i 1 x.first x.count || rangesMeet i 1 (dget s (ttObj t 3)) (dget s (ttObj t 4)))

/-- Enables a timetable that passes R318: its record is cleared, and its first cycle is the lowest one that starts at or
above H. A start at H itself acts at once (log entry 27). -/
def ttEnable (s : State) (t : Nat) : State :=
  let h := (srcOf s (ttSource s t)).high
  let org := ttOrigin s t
  let cyc := if h ≤ org then 0 else ceilDiv (h - org) (ttCycleLen s t)
  let s := setTt s t { Timetable.disabled with state := 1, first := dget s (ttObj t 3), count := dget s (ttObj t 4),
                                               firstCycle := cyc }
  let r := ttRise s t h
  settleDue 8 { r.2 with due := r.2.due ++ r.1 }

/-- Disables a timetable: no release or signal of it acts any more, and a run in flight goes on to its end (R329). -/
def ttDisable (s : State) (t : Nat) : State :=
  if (ttOf s t).state != 1 then s
  else
    let live := inRun (ctxOf s (ttCtx s t))
    let s := modTt s t fun x => { x with state := if live then 3 else 0, deferred := none, deferUp := (false, false), quiesceAt := s.fclk }
    { s with due := s.due.filter fun d => d.tt != t || (live && (d.start || teAction (entryOf s d.entry) = 3)) }

/-! ## Misses (R322 to R325) -/

/-- A context's run is in progress and not merely staged. -/
def runLive (x : Ctx) : Bool := x.run.any fun r => !r.staged

/-- A deadline of a run, or of a CHECK, is missed: the event, the counts, and the response when the source is LOCKED. -/
def missed (s : State) (t kind entry cycle : Nat) : State :=
  let locked := srcLocked s (ttSource s t)
  let detail := timingDetail t (!locked) kind entry cycle
  let c := ttCtx s t
  let s := bump s 0x201201 1
  let s := modTt s t fun x => if locked then { x with misses := satAdd 32 x.misses 1 }
                              else { x with missesUnl := satAdd 32 x.missesUnl 1 }
  let s := timingEvent s t 0x5001 detail
  if !locked || 64 ≤ c then s
  else match ttResponse s t with
  | 2 => if runLive (ctxOf s c) then abortRun s c false else s
  | 3 => detainAny s c 0x5001 (some detail)
  | _ => s

/-! ## Releases (R321) -/

/-- The Term of a context's present configuration. -/
def ctxTerm (s : State) (x : Ctx) : Nat := ((maskSites x.strips).head?.map (unitTerm s)).getD 0

/-- A release that finds no run to start at once: kept for later, or skipped when one is kept already. -/
def deferRelease (s : State) (d : Due) (keep count : Bool) : State :=
  let x := ttOf s d.tt
  let skip := x.deferred.isSome || !keep
  setTt s d.tt { x with deferred := if skip then x.deferred else some (d.entry, d.cycle, d.phase),
                        deferUp := if skip then x.deferUp else (false, false),
                        overruns := if skip || count then satAdd 32 x.overruns 1 else x.overruns }

/-- RELEASE_OVERRUN (R321). -/
def overrunEvent (s : State) (d : Due) : State :=
  timingEvent s d.tt 0x5002 (timingDetail d.tt (!srcLocked s (ttSource s d.tt)) 0 d.entry d.cycle)

/-- The launch that a release may start: none of it is new work for a closed launch gate (R413). -/
def releaseLaunch (s : State) (x : Ctx) (e : Nat) : Option Launch :=
  if x.launches.isEmpty && gateRead s 3 != 1 then none else dueLaunch x (teAuto e)

/-- Starts a staged run: its first turn begins with the launch that the release takes, whose bindings take the place of those it was
staged with (R320, R321). -/
def goStaged (s : State) (c : Nat) (l : Launch) (t e cyc ph : Nat) : State :=
  let x := ctxOf s c
  let late := if (ttOf s t).deferred.any fun d => d = (e, cyc, ph) then (ttOf s t).deferUp else (false, false)
  let s := modTt s t fun y => { y with runs := satAdd 32 y.runs 1, deferred := none }
  let r := { newRun s l false with entry := some (e, cyc, ph), deadline := deadlineOf (entryOf s e) ph, phaseUp := late.1,
                                   timeUp := late.2 }
  let s := unbindSites s c (heldSites s c) false
  let s := setCtx s c { x with st := .running, launches := x.launches.drop 1, run := some r, pend := false,
                               last := some { l with auto := false },
                               tensors := freshSteps x.tensors, before := beforeRun x }
  configure s c (ctxTerm s x)

/-- A RELEASE entry acts. -/
def releaseAct (s : State) (d : Due) : State :=
  let c := ttCtx s d.tt
  let e := entryOf s d.entry
  let x := ctxOf s c
  let s := setBase s d.tt d.cycle
  if 64 ≤ c || !x.lc || wingsOut s x then noRun s d.tt
  else match x.st with
  | .running => overrunEvent (deferRelease s d (ttResponse s d.tt = 0) true) d
  | .loaded =>
    match releaseLaunch s x e with
    | none => noRun s d.tt
    | some l =>
      match x.run with
      | some r => if r.writing then deferRelease s d true false else goStaged s c l d.tt d.entry d.cycle d.phase
      | none => deferRelease s d true false
  | _ => noRun s d.tt

/-- The oldest due entry acts when it is of this timetable and action (R316). -/
def dueActs (t action : Nat) (f : State → Due → State) (s : State) : State :=
  match s.due with
  | d :: rest => if d.tt = t && teAction (entryOf s d.entry) = action && !d.start then settleDue 8 (f { s with due := rest } d) else s
  | [] => s

/-- TIMETABLE_RELEASE, R321. -/
def execTimetableRelease (tt : Nat) (s : State) : Host.Outcome State Fault Refusal :=
  actIf (decide (tt < 8)) s (dueActs tt 1 releaseAct)

/-- TIMETABLE_SIGNAL: the object bound to EXPORT rises by COUNT (R315). -/
def execTimetableSignal (tt : Nat) (s : State) : Host.Outcome State Fault Refusal :=
  actIf (decide (tt < 8)) s (dueActs tt 2 fun s d =>
    let e := entryOf s d.entry
    let c := ttCtx s tt
    match (if c < 64 then exportObj (ctxOf s c) (teExport e) else none) with
    | some o => ownRaise s c o (teCount e)
    | none => noRun s tt)

/-- The object that a CHECK entry of a cycle watches, the one bound to EXPORT as it acts, with the value it compares with (R315). -/
def checkObj (s : State) (t cyc n : Nat) : Option (Nat × Nat) :=
  let c := ttCtx s t
  let b := ((ttOf s t).base.find? fun b => b.1 = cyc).map (·.2)
  (if 64 ≤ c then none else exportObj (ctxOf s c) n).map fun o => (o, sget 0 (b.getD []) o)

/-- TIMETABLE_CHECK: the object bound to EXPORT must have risen by COUNT since the last release of the cycle, or since the
cycle's start (R315, R322). -/
def execTimetableCheck (tt : Nat) (s : State) : Host.Outcome State Fault Refusal :=
  actIf (decide (tt < 8)) s (dueActs tt 3 fun s d =>
    let e := entryOf s d.entry
    match checkObj s tt d.cycle (teExport e) with
    | none => noRun s tt
    | some (o, base) => if base + teCount e ≤ (objOf s o).value then s else missed s tt 2 d.entry d.cycle)

/-- The run that a release of this timetable started (R322). -/
def releasedRun (s : State) (t : Nat) : Option (Run × Nat × Nat) :=
  let c := ttCtx s t
  let x := ctxOf s c
  if 64 ≤ c || x.st == .detention then none
  else match x.run with
  | some r => if r.staged || r.posted then none else r.entry.map fun e => (r, e.1, e.2.1)
  | none => none

/-- A deadline of a release that has not started its run yet is missed: DESIGN CHOICE (log entry 75), under ABORT and DETAIN the
release is dropped, as no unit runs for it; under DETAIN the context enters DETENTION (R323). -/
def missedDeferred (s : State) (t kind entry cycle : Nat) : State :=
  let locked := srcLocked s (ttSource s t)
  let s := modTt s t fun x => if kind = 0 then { x with deferUp := (true, x.deferUp.2) } else { x with deferUp := (x.deferUp.1, true) }
  let s := bump s 0x201201 1
  let s := modTt s t fun x => if locked then { x with misses := satAdd 32 x.misses 1 }
                              else { x with missesUnl := satAdd 32 x.missesUnl 1 }
  let detail := timingDetail t (!locked) kind entry cycle
  let s := timingEvent s t 0x5001 detail
  let s := if locked && 2 ≤ ttResponse s t then modTt s t fun x => { x with deferred := none } else s
  if locked && ttResponse s t = 3 && decide (ttCtx s t < 64) then detainAny s (ttCtx s t) 0x5001 (some detail) else s

/-- The phase deadline of the deferred release passes. -/
def deferredPhase (s : State) (t : Nat) : State :=
  match (ttOf s t).deferred with
  | some (e, cyc, ph) =>
    match deadlineOf (entryOf s e) ph with
    | some p => if (ttOf s t).deferUp.1 || (srcOf s (ttSource s t)).high < p then s else missedDeferred s t 0 e cyc
    | none => s
  | none => s

/-- The time deadline of the deferred release passes. -/
def deferredTime (s : State) (t : Nat) : State :=
  match (ttOf s t).deferred with
  | some (e, cyc, _) => if (ttOf s t).deferUp.2 || dget s (ttObj t 9) = 0 then s else missedDeferred s t 1 e cyc
  | none => s

/-- PHASE_DEADLINE_PASS: H reaches the phase deadline of a release before its run completes, or starts (R322). -/
def execPhaseDeadlinePass (tt : Nat) (s : State) : Host.Outcome State Fault Refusal :=
  actIf (decide (tt < 8)) s fun s =>
    match releasedRun s tt with
    | none => deferredPhase s tt
    | some (r, e, cyc) =>
      match r.deadline with
      | some p =>
        if r.phaseUp || (srcOf s (ttSource s tt)).high < p then deferredPhase s tt
        else missed (modCtx s (ttCtx s tt) fun x => { x with run := some { r with phaseUp := true } }) tt 0 e cyc
      | none => deferredPhase s tt

/-- TIME_DEADLINE_EXPIRY: the time deadline of the older release passes before its run completes, or starts (R322). -/
def execTimeDeadlineExpiry (tt : Nat) (s : State) : Host.Outcome State Fault Refusal :=
  actIf (decide (tt < 8)) s fun s =>
    match releasedRun s tt with
    | none => deferredTime s tt
    | some (r, e, cyc) =>
      if r.timeUp || dget s (ttObj tt 9) = 0 then deferredTime s tt
      else missed (modCtx s (ttCtx s tt) fun x => { x with run := some { r with timeUp := true } }) tt 1 e cyc

/-- TIMETABLE_QUIESCE_TIMEOUT: the run has not completed within the close timeout and is stopped (R329). -/
def execTimetableQuiesceTimeout (tt : Nat) (s : State) : Host.Outcome State Fault Refusal :=
  actIf (decide (tt < 8)) s fun s =>
    if (ttOf s tt).state != 3 then s
    else
      let c := ttCtx s tt
      let s := if c < 64 && runLive (ctxOf s c) then abortRun s c true else s
      modTt s tt fun x => { x with state := 0 }

/-! ## Staging (R320) -/

/-- The next RELEASE entry of an enabled timetable has AUTO. -/
def nextAuto (s : State) (t : Nat) : Bool := (nextEntry s t).any fun e => teAuto e.1

/-- STAGING_START: the first turn of a due run is written into free strips (R320). -/
def execStagingStart (ctx : Nat) (s : State) : Host.Outcome State Fault Refusal :=
  actIf (decide (ctx < 64)) s fun s =>
    let x := ctxOf s ctx
    if !x.lc || x.st != .loaded || x.run.isSome || wingsOut s x || !(stripsFree s ctx) then s
    else
      let auto := gateRead s 3 = 1 && (nextAuto s x.tt || ((ttOf s x.tt).deferred.any fun d => teAuto (entryOf s d.1)))
      match dueLaunch x auto with
      | none => s
      | some l =>
        let q := startTurn (setCtx s ctx { x with run := some (newRun s l true) }) ctx
        if q.1 then q.2
        else refuseStart (modCtx q.2 ctx fun x => { x with launches := x.launches.drop 1 }) ctx true

/-- STAGING_COMPLETE: the units hold at the start of the turn; a release that came before starts the run (R320, R321). -/
def execStagingComplete (ctx : Nat) (s : State) : Host.Outcome State Fault Refusal :=
  actIf (decide (ctx < 64)) s fun s =>
    let x := ctxOf s ctx
    match x.run with
    | some r =>
      if !r.writing || x.termWait || x.st != .loaded then s
      else
        let s := modCtx s ctx fun x => { x with run := some { r with writing := false } }
        match (ttOf s x.tt).deferred with
        | none => s
        | some (e, cyc, ph) =>
          match (if wingsOut s x then none else releaseLaunch s x (entryOf s e)) with
          | some l => goStaged s ctx l x.tt e cyc ph
          | none => noRun (modTt s x.tt fun t => { t with deferred := none }) x.tt
    | none => s

end Sys2Proof.Machine
end

