-- ==== Sys2Proof/Machine/Readout.lean ====
section
/-! DEFINITION. Reading units from outside: the saved or live view of a context's units, Roll Call records (R251 to R254) and
the debug window (R391, R392). -/

namespace Sys2Proof.Machine

/-! ## Views -/

/-- The context's units are read from its save area: it is in RECESS, or in DETENTION after its teardown (R253, R391). -/
def readsSaved (x : Ctx) : Bool := x.st == .recess || x.saved || (x.st == .detention && x.teardown.isNone)

/-- The state in which a context's units, and the objects it owns or imports, stand where its readout finds them (R253). -/
def viewOf (s : State) (c : Nat) : State :=
  let x := ctxOf s c
  let s := if x.saved || x.st == .detention then { s with objs := x.heldObjs } else s
  if readsSaved x then
    { s with ctxs := s.ctxs.map fun e =>
               if e.1 = c then (c, { x with holdSince := some 0, run := x.run.or x.heldRun })
               else (e.1, { e.2 with st := .free, holdSince := none }),
             cus := x.cus, mus := x.mus, sws := x.sws }
  else s

/-! ## Counter records (R251) -/

/-- Since when the waiter of list `l` waits: the age itself in the save area. -/
def waitAge (s : State) (now : Nat) (saved : Bool) (k l : Nat) : Nat :=
  let t := if siteIsCu k then (cuOf s k).waitSince else (listOf (muOf s k) l).waitSince
  match t with
  | some t => (if saved then t else now - t) / 1800
  | none => 0

/-- The objects that a counter's routes raise. -/
def exportedBy (s : State) (x : Ctx) (k i : Nat) : List Nat :=
  (List.range 64).filterMap fun j =>
    let e := stEnt (unitStores s k) 0x06 8 j
    if rtValid e && rtEvent e = 0 && rtSrc e = i && rtKind e = 1 then exportObj x (rtExport e) else none

/-- A counter is exported by a route. -/
def isExported (s : State) (k i : Nat) : Bool :=
  (List.range 64).any fun j =>
    let e := stEnt (unitStores s k) 0x06 8 j
    rtValid e && rtEvent e = 0 && rtSrc e = i && rtKind e = 1

/-- The record of counter `i` of a unit; `v` is the view of the context. -/
def ctrRecord (s : State) (c k i : Nat) : List Byte :=
  let x := ctxOf s c
  let saved := readsSaved x
  let v := viewOf s c
  let waits := (heldWaits v k).filter fun w => wcCounter w.2.1 = i
  let target := waits.foldl (fun (m : Option Nat) w =>
    let t := (waitTarget v k w.2.1 w.2.2).toNat
    some (min t (m.getD t))) none
  let objs := ((importObj v k i).toList ++ exportedBy v x k i).eraseDups
  let remote := sumOf (objs.map fun o => (objOf v o).waits.length)
  let r := ctrOf v k i
  let flags := b2n ((importsOf (unitStores v k)).any fun e => e.1 = i) + 2 * b2n (isExported v k i) +
    4 * b2n ((importObj v k i).isSome && importOrphaned v k i) + 8 * b2n (bitOf r.flags.toNat 3)
  leBytes 4 r.value ++ leBytes 4 (target.getD 0) ++ leBytes 2 (waits.foldl (fun a w => Nat.lor a (2 ^ w.1)) 0) ++
  leBytes 2 (min remote 65535) ++ leBytes 4 r.lastSrc.toNat ++ leBytes 8 r.lastTime ++
  leBytes 4 (min ((waits.map fun w => waitAge v (x.teardown.getD s.fclk) saved k w.1).foldl max 0) (2 ^ 32 - 1)) ++ leBytes 4 flags

/-! ## Status records (R252) -/

/-- LOCATOR. -/
def locator (kind k : Nat) : Nat :=
  kind * 2 ^ 30 + siteWing k * 2 ^ 28 + siteRow k * 2 ^ 24 + siteCol k * 2 ^ 19

/-- The 160-byte status record of a CU (0), MU (1) or switch (2) of the view. -/
def statusRecord (v : State) (kind k : Nat) : List Byte :=
  let words := match kind with
    | 0 => let u := cuOf v k
           [cuStatus u, cuSat u, u.steerDrop.toNat, u.fault.toNat]
    | 1 => let u := muOf v k
           [muStatus u, u.clamps.toNat, u.hmLog.toNat, u.fault.toNat, u.faultAt.toNat] ++
           (List.range 32).map fun r => ringStatus (ringOf u r)
    | _ => let w := swOf v k
           [swStatus v k w, w.stale.toNat, w.ce.toNat, w.fault.toNat]
  padTo 160 ((locator kind k :: words).flatMap (leBytes 4))

/-! ## The Roll Call of a context (R253, R254, R378) -/

/-- The sites of a context whose units a readout covers; a twinned context reads as its primary. -/
def rollSites (x : Ctx) : List Nat := maskSites x.strips

/-- A readout of the context gives all-zero records. -/
def rollEmpty (x : Ctx) : Bool := x.st == .free || x.st == .opened

/-- The readout that ROLL_CALL writes to a host buffer: header, counter records, object records (R378), and the status records that
every readout holds (R252). DESIGN CHOICE (log entry 76): R378 gives the status records no place; they follow the object records, for
each site its unit's and its switch's, and the record count of the header includes them. -/
def rollBytes (s : State) (c : Nat) : List (List Byte) :=
  let x := ctxOf s c
  let ks := rollSites x
  let v := viewOf s c
  let os := ctxObjs v c
  let nc := 48 * ks.length
  let zero := rollEmpty x
  let st := ks.flatMap fun k => [(if siteIsCu k then 0 else 1, k), (2, k)]
  [leBytes 4 (nc + os.length + st.length) ++ leBytes 4 nc ++ leBytes 4 os.length ++ leBytes 4 0] ++
  (ks.flatMap fun k => (List.range 48).map fun i => if zero then leBytes 32 0 else ctrRecord s c k i) ++
  (os.map fun o => if zero then leBytes 16 0 else leBytes 16 (objRecord (objOf v o))) ++
  st.map fun e => if zero then leBytes 160 0 else statusRecord v e.1 e.2

/-- Whole records that fit in a buffer. -/
def fitRecords : Nat → List (List Byte) → List Byte
  | _, [] => []
  | n, r :: rs => if r.length ≤ n then r ++ fitRecords (n - r.length) rs else []

/-- The select word of a record (R253). -/
def rollKey (kind k low : Nat) : Nat := locator kind k + low

/-- The records of the operator's readout that are not all zero, by select word. -/
def rollRecs (s : State) (c : Nat) : Sparse Nat :=
  let x := ctxOf s c
  let v := viewOf s c
  let m := (rollSites x).foldl (fun m k =>
    let kind := if siteIsCu k then 0 else 1
    let m := (List.range 48).foldl (fun m i => sset 0 m (rollKey kind k (i * 4096)) (leNat (ctrRecord s c k i))) m
    let m := sset 0 m (rollKey 3 k (kind * 1024)) (leNat (statusRecord v kind k))
    sset 0 m (rollKey 3 k 2048) (leNat (statusRecord v 2 k))) []
  (ctxObjs v c).foldl (fun m o => sset 0 m (2 ^ 31 + o) (objRecord (objOf v o))) m

/-- What a select word names in the readout held: the record, or none where it names a site outside the strips or a record that the
readout does not have (R254, R415). -/
def rollSelect (s : State) (w : Nat) (status : Bool) : Option Nat :=
  let kind := fld w 30 2
  match s.roll.mask with
  | none => some 0
  | some m =>
    if kind = 2 then
      if status || !(s.roll.objs.contains (fld w 0 12)) then none else some (sget 0 s.roll.recs (2 ^ 31 + fld w 0 12))
    else
      let k := siteKey (fld w 28 2) (fld w 24 4) (fld w 19 5)
      if !(m.testBit (siteStrip k)) then none
      else if kind = 3 then
        let what := fld w 10 2
        if !status || what = 3 || (what != 2 && (siteIsCu k) != (what == 0)) then none
        else some (sget 0 s.roll.recs (rollKey 3 k (what * 1024)))
      else if status || (siteIsCu k) != (kind == 0) || 48 ≤ fld w 12 6 then none
      else some (sget 0 s.roll.recs (rollKey kind k (fld w 12 6 * 4096)))

/-! ## The debug window (R391, R392) -/

def daKind (a : Nat) : Nat := fld a 60 2
def daSite (a : Nat) : Nat := siteKey (fld a 58 2) (fld a 54 4) (fld a 49 5)
def daStore (a : Nat) : Nat := fld a 40 9
def daOff (a : Nat) : Nat := fld a 0 32

/-- Size of a store of the debug window, none for a code that is reserved or not of the kind. -/
def dbgSize (kind code : Nat) : Option Nat :=
  let of258 := (storeShape code).map fun e => e.1 * e.2
  match kind with
  | 0 => if (1 ≤ code && code ≤ 7) || code = 0x13 then of258
         else if code = 0x20 then some 16 else if code = 0x21 then some 262144 else if code = 0x22 then some 256 else none
  | 1 => if (6 ≤ code && code ≤ 0x0F) || code = 0x11 || code = 0x13 || code = 0x14 then of258
         else if code = 0x28 then some 20 else if code = 0x29 then some 2048 else if code = 0x2A then some 128 else none
  | 2 => if code = 0x10 then of258 else if code = 0x30 then some 16 else none
  | _ => none

/-- A handle table entry. -/
def handleWord (h : Handle) : Nat :=
  let st := match h.st with
    | .unbound => 0
    | .accum => 1
    | .ready => 2
    | .draining => 3
  st * 2 ^ 30 + b2n (h.kind == some .int32) * 2 ^ 29 + b2n h.kind.isSome * 2 ^ 28 + h.slot.getD 0

/-- What a copy of the live state of R291 has of a unit for the debug window: no store of the image, bound slots only. -/
def liveCu (u : CU) : CU :=
  { u with stores := [], slots := u.slots.filter fun e => e.2.bound, handles := u.handles.filter fun e => e.2.slot.isSome }
def liveMu (u : MU) : MU := { u with stores := [] }

/-- The 32-bit word at a byte offset of a store, in the view; `live` says that the view is a copy of the live state (R391). -/
def dbgWord (v : State) (live : Bool) (kind k code off : Nat) : Nat :=
  let i := off / 4
  match kind with
  | 0 =>
    let w := cuOf v k
    let u := if live && code != 0x20 then liveCu w else w
    match code with
    | 0x20 => [cuStatus u, cuSat u, u.steerDrop.toNat, u.fault.toNat].getD i 0
    | 0x21 => sget 0 (sget Slot.free u.slots (i / 4096)).elems (i % 4096)
    | 0x22 => handleWord (sget Handle.none u.handles i)
    | _ => mnat u.stores (stBase code + off) 4
  | 1 =>
    let w := muOf v k
    let u := if live && code != 0x28 then liveMu w else w
    match code with
    | 0x14 => mnat u.spad off 4
    | 0x28 => [muStatus u, u.clamps.toNat, u.hmLog.toNat, u.fault.toNat, u.faultAt.toNat].getD i 0
    | 0x29 => tagWord (sget SlotTag.none u.tags i)
    | 0x2A => ringStatus (ringOf u i)
    | _ => mnat u.stores (stBase code + off) 4
  | _ =>
    let w := swOf v k
    if code = 0x30 then [swStatus v k w, w.stale.toNat, w.ce.toNat, w.fault.toNat].getD i 0 else if live then 0 else mnat w.stores off 4

/-- Clears the RC field at a byte offset of a status store. -/
def dbgClear (s : State) (c : Option Nat) (kind k code off : Nat) : State :=
  let fc (u : CU) : CU := if off = 8 then { u with steerDrop := 0 } else u
  let fm (u : MU) : MU := if off = 4 then { u with clamps := 0 } else if off = 8 then { u with hmLog := 0 } else u
  let fs (w : Switch) : Switch := if off = 4 then { w with stale := 0 } else if off = 8 then { w with ce := 0 } else w
  let saved := match c with
    | some c => readsSaved (ctxOf s c)
    | none => false
  match kind, code with
  | 0, 0x20 => if saved then modCtx s (c.getD 0) fun x => { x with cus := smod CU.idle x.cus k fc } else modCu s k fc
  | 1, 0x28 => if saved then modCtx s (c.getD 0) fun x => { x with mus := smod MU.idle x.mus k fm } else modMu s k fm
  | 2, 0x30 => if saved then modCtx s (c.getD 0) fun x => { x with sws := smod Switch.idle x.sws k fs } else modSw s k fs
  | _, _ => s

/-- What a debug read answers: the bytes, or a refusal. -/
inductive Dbg
  | bytes (data : List Byte)
  | state
  | notOwner
  | range
  deriving DecidableEq, Repr

/-- A context of another host holds the site now, and the units are not read from the save area (R391). -/
def dbgForeign (s : State) (c k : Nat) : Bool :=
  !(readsSaved (ctxOf s c)) &&
  (match ctxsWith s fun x => (ctxMask s x).testBit (siteStrip k) && (executes x || x.holdSince.isSome) with
    | d :: _ => (ctxOf s d).host != (ctxOf s c).host
    | [] => false)

/-- A read of `len` bytes at a debug address from the units of a context, or from a site in no context's grant (R391). -/
def dbgRead (s : State) (c : Option Nat) (addr len : Nat) : Dbg × State :=
  let kind := daKind addr
  let k := daSite addr
  let code := daStore addr
  let off := daOff addr
  match dbgSize kind code with
  | none => (.range, s)
  | some size =>
    if off % 4 != 0 || len % 4 != 0 || !(decide (off + len ≤ size)) || (kind = 0 && !(siteIsCu k)) ||
        (kind = 1 && siteIsCu k) then (.range, s)
    else
      let x := (c.map (ctxOf s)).getD Ctx.free
      let bulk := (kind = 0 && code = 0x21) || (kind = 1 && code = 0x14)
      if c.any fun c => dbgForeign s c k then (.notOwner, s)
      else if bulk && executes x && x.level != 2 then (.state, s)
      else if s.power.off.getLsbD (siteWing k) && kind != 2 && !(kind = 1 && code = 0x14) then (.bytes (leBytes len 0), s)
      else
        let v := match c with
          | some c => viewOf s c
          | none => s
        let offs := (List.range (len / 4)).map fun i => off + 4 * i
        (.bytes (offs.flatMap fun o => leBytes 4 (dbgWord v x.saved kind k code o)),
         offs.foldl (fun s o => dbgClear s c kind k code o) s)

/-- The contexts whose grant holds a site, the one whose run is there first. -/
def holders (s : State) (k : Nat) : List Nat :=
  (siteCtx s k).toList ++ ctxsWith s fun x => x.st != .free && (ctxMask s x).testBit (siteStrip k)

end Sys2Proof.Machine
end

