-- ==== Sys2Proof/Machine/HostCmd.lean ====
section
/-! DEFINITION. Host commands: framing and the checks every command meets (R373 to R375, R379), queues (R380 to R382), the
lease (R387), shared objects (R245 to R250), memory windows (R384, R386), stream windows (R343, R358) and readouts (R378, R393). -/

namespace Sys2Proof.Machine

/-! ## Framing (R374, R375, R379) -/

/-- The opcodes of R375. -/
def knownOps : List Nat :=
  [0x00, 0x01, 0x02, 0x03, 0x04, 0x08, 0x09, 0x0A, 0x10, 0x11, 0x12, 0x13, 0x14, 0x15, 0x16, 0x17, 0x18, 0x19,
   0x20, 0x21, 0x22, 0x23, 0x28, 0x29, 0x2A, 0x2B, 0x2C, 0x30, 0x31, 0x32, 0x33, 0x34]

/-- A decoded command: its connection, host, context and words. -/
structure HCmd where
  conn : Nat
  host : Nat
  ctx : Nat
  ref : CmdRef
  msg : List W32
  deriving DecidableEq, Repr

/-- Word `i` of a message. -/
def msgW (m : List W32) (i : Nat) : Nat := (m.getD i 0).toNat
/-- Word `i` of a command. -/
def cmdW (c : HCmd) (i : Nat) : Nat := msgW c.msg i
/-- The 64-bit field in words `i` and `i + 1`. -/
def cmdW2 (c : HCmd) (i : Nat) : Nat := cmdW c i + cmdW c (i + 1) * 2 ^ 32

/-- LENM1 matches the length, the command is not cut short, and every reserved bit is 0. `allow` gives, from W4 on, the bits
of each payload word that the command defines. -/
def msgReservedOk (units : Nat) (allow : List Nat) (m : List W32) : Bool :=
  let w0 := msgW m 0
  fld w0 11 5 = 0 && 16 * (fld w0 8 2 + 1) = m.length && fld (msgW m 1) 8 24 = 0 && msgW m 3 = 0 &&
  decide (16 * units ≤ m.length) &&
  ((List.range (m.length - 4)).all fun i => let a := allow.getD i 0
                                            Nat.lor (msgW m (i + 4)) a = a)

/-- All 32 bits of a word. -/
def all32 : Nat := 0xFFFFFFFF

/-- A refused command: its status and no detail. -/
def refuse (s : State) (c : HCmd) (status : Nat) : State := complete s c.ref c.ctx status 0
/-- A command that is done. -/
def done (s : State) (c : HCmd) (detail : Nat) : State := complete s c.ref c.ctx 0 detail

/-- The device hears from a live connection. -/
def touch (s : State) (conn : Nat) : State := setConn s conn { connOf s conn with lastPacket := s.fclk }

/-- The key of an object of host `h` (R396). -/
def hostObj (h sub : Nat) : Nat := 0x271000 + 0x100 * h + sub
/-- The key of an object of host port `n` (R396). -/
def hportObj (n sub : Nat) : Nat := 0x273000 + 0x100 * n + sub

/-- A packet that fails its ICRC is dropped and counted by its port (R368, R396). -/
def icrcDrop (s : State) (port : Nat) : State := bump s (hportObj port 0x0C) 1

/-- A packet on a live connection: it is dropped when its ICRC fails, and the device hears from the connection otherwise. -/
def packetOn (s : State) (p : ConnPkt) (f : State → State) : State :=
  if 256 ≤ p.conn then s
  else if !p.icrc then icrcDrop s (p.conn / 64)
  else if !(connOf s p.conn).live then s
  else f (touch s p.conn)

/-- The receive buffers of a connection that its SENDs may still hold: those of the last 2 µs (R373). -/
def heldBufs (s : State) (conn : Nat) : List Nat := (connOf s conn).bufs.filter fun t => decide (s.fclk < t + 3600)

/-- A SEND takes one of the 64 receive buffers of its connection (R373). -/
def takeBuf (s : State) (conn : Nat) : State :=
  setConn s conn { connOf s conn with bufs := (s.fclk :: heldBufs s conn).take 64 }

/-- An opcode of a host-level command (R375). -/
def hostLevel (opc : Nat) : Bool := decide (opc ≤ 0x0A)

/-- The command that a message on a connection spells (R374). A host-level command completes on the service queue of its connection
(R371), and QUEUE_DESTROY on its own queue (R382; DEDUCED, log entry 88). -/
def hcmdOf (s : State) (conn : Nat) (msg : List W32) : HCmd :=
  let h := (connOf s conn).host
  let w0 := msgW msg 0
  { conn := conn, host := h, ctx := fld (msgW msg 1) 0 8, msg := msg,
    ref := { queue := if hostLevel (fld w0 0 8) && fld w0 0 8 != 0x02 then serviceQueue conn else fld w0 16 16,
             cookie := msg.getD 2 0, silent := bitOf w0 10, conn := conn, host := h } }

/-- The QUEUE field of a command (R374). -/
def cmdQueueNo (c : HCmd) : Nat := fld (cmdW c 0) 16 16

/-- A SEND that has a receive buffer: the checks of R379 up to RESERVED_BITS, then the command itself. -/
def runSend (op units : Nat) (allow : List Nat) (c : HCmd) (s : State) (f : HCmd → State → State) : State :=
  if !(ownQueue s (cmdQueueNo c) c.host) then refuse s { c with ref := { c.ref with queue := serviceQueue c.conn } } 0x03
  else if fld (cmdW c 0) 0 8 != op then refuse s c 0x01
  else if !(msgReservedOk units allow c.msg) then refuse s c 0x02
  else f c s

/-- A SEND on a connection: dropped with a failing ICRC, answered with an RNR NAK where the connection may have no buffer left, and
run otherwise (R368, R373). Where its words are those of another command, that command is not this one (log entry 3). -/
def hostRow (op units : Nat) (allow : List Nat) (conn : Nat) (msg : Send) (s : State) (f : HCmd → State → State) :
    Host.Outcome State Fault Refusal :=
  let opc := fld (msgW msg.words 0) 0 8
  actIf (decide (conn < 256) && (opc == op || !(knownOps.contains opc))) s fun s =>
    packetOn s { conn := conn, icrc := msg.icrc } fun s =>
      if msg.rnr then (if 64 ≤ (heldBufs s conn).length then emit s (.rnrNak conn) else s)
      else runSend op units allow (hcmdOf s conn msg.words) (takeBuf s conn) f

/-- A context command: its context must exist and belong to the host (R283, R375). -/
def ctxRow (op units : Nat) (allow : List Nat) (conn : Nat) (msg : Send) (s : State) (f : HCmd → State → State) :
    Host.Outcome State Fault Refusal :=
  hostRow op units allow conn msg s fun c s =>
    if 64 ≤ c.ctx then refuse s c 0x07
    else
      let x := ctxOf s c.ctx
      if x.st == .free || x.host != c.host then refuse s c 0x04 else f c s

/-- NOP. -/
def execNop (conn : Nat) (msg : Send) (s : State) : Host.Outcome State Fault Refusal :=
  hostRow 0x00 1 [] conn msg s fun c s => done s c 0

/-! ## Queues (R380 to R382) -/

/-- The event target of QUEUE_CREATE and QUEUE_MODIFY is in range (R375). -/
def targetOk (s : State) (c : HCmd) : Bool :=
  let n := connOf s (fld (cmdW c 7) 8 8)
  cmdW2 c 4 % 32 = 0 && decide (4 ≤ fld (cmdW c 7) 0 5) && decide (fld (cmdW c 7) 0 5 ≤ 15) && n.live && n.host = c.host

/-- The lowest number below `limit` at which nothing stands: no more numbers are taken than the map has entries. R380 gives queues that
order; for objects and windows it is a DESIGN CHOICE (log entry 85). -/
def lowestFree {α : Type} (m : Sparse α) (limit : Nat) (taken : Nat → Bool) : Option Nat :=
  findBelow (min limit (m.length + 1)) fun i => !(taken i)

/-- QUEUE_CREATE. -/
def execQueueCreate (conn : Nat) (msg : Send) (s : State) : Host.Outcome State Fault Refusal :=
  hostRow 0x01 1 [all32, all32, all32, 0xFF1F] conn msg s fun c s =>
    if !(targetOk s c) then refuse s c 0x07
    else match lowestFree s.queues 0xFF00 fun i => (queueOf s i).live with
    | none => refuse s c 0x06
    | some q =>
      done (setQueue s q { Queue.none with live := true, host := c.host, conn := fld (cmdW c 7) 8 8, addr := cmdW2 c 4,
                                           rkey := BitVec.ofNat 32 (cmdW c 6), log2 := fld (cmdW c 7) 0 5 }) c q

/-- The queue is an EVT_QUEUE, a WD's QUEUE, or the queue of a pending wait or launch (R382). -/
def queueInUse (s : State) (q : Nat) : Bool :=
  let h := (queueOf s q).host
  (s.ctxs.any fun e =>
    let x := e.2
    x.st != .free && x.host = h && (x.evq = q || (x.launches.any fun l => l.cmd.queue = q) || (x.run.any fun r => r.launch.cmd.queue = q))) ||
  (s.chans.any fun e => e.2.st != .closed && (ctxOf s (wdCtx e.2.wd)).host = h && wdQueue e.2.wd = q) ||
  (s.objs.any fun e => e.2.waits.any fun w => w.host = h && w.cmd.queue = q)

/-- QUEUE_DESTROY. -/
def execQueueDestroy (conn : Nat) (msg : Send) (s : State) : Host.Outcome State Fault Refusal :=
  hostRow 0x02 1 [0xFFFF] conn msg s fun c s =>
    let n := cmdW c 4
    let q := queueOf s n
    if 0xFF00 ≤ n || !q.live then refuse s c 0x07
    else if q.host != c.host then refuse s c 0x04
    else if queueInUse s n then refuse s c 0x05
    else done (setQueue s n Queue.none) c 0

/-- QUEUE_ACK: silent on success. -/
def execQueueAck (conn : Nat) (msg : Send) (s : State) : Host.Outcome State Fault Refusal :=
  hostRow 0x03 1 [all32] conn msg s fun c s =>
    let n := fld (cmdW c 4) 0 16
    let a : W16 := BitVec.ofNat 16 (cmdW c 4 / 65536)
    let q := queueOf s n
    if !q.live then refuse s c 0x07
    else if q.host != c.host then refuse s c 0x04
    else if (a - q.ack).toNat ≤ (q.seq - q.ack).toNat then
      qPump (q.held.length + 2) n (setQueue s n { q with ack := a })
    else bump s 0x270007 1

/-- QUEUE_MODIFY: a new event target; SEQ, ACK_SEQ and held events stay. -/
def execQueueModify (conn : Nat) (msg : Send) (s : State) : Host.Outcome State Fault Refusal :=
  hostRow 0x04 1 [all32, all32, all32, 0xFF1F, 0xFFFF] conn msg s fun c s =>
    let n := cmdW c 8
    let q := queueOf s n
    if !q.live then refuse s c 0x07
    else if q.host != c.host then refuse s c 0x04
    else if !(targetOk s c) then refuse s c 0x07
    else
      let s := done (setQueue s n { q with conn := fld (cmdW c 7) 8 8, addr := cmdW2 c 4,
                                           rkey := BitVec.ofNat 32 (cmdW c 6), log2 := fld (cmdW c 7) 0 5 }) c 0
      qPump ((queueOf s n).held.length + 2) n s

/-! ## The lease (R387) -/

/-- Ends the lease: 1 expired, 2 revoked, 3 host lost; 0 released, without an event. -/
def endLease (s : State) (cause : Nat) : State :=
  let l := s.lease
  let s := { s with lease := { l with holder := none, cmd := none } }
  match l.holder, l.cmd with
  | some _, some d =>
    if cause = 0 then s
    else post s (cmdQueue s d) { kind := 8, status := 0, fault := 0, cookie := 0, ctx := 0xFF, flags := 0,
                                 detail := l.term + cause * 256 }
  | _, _ => s

/-- Remaining lease time in ms. -/
def leaseLeft (s : State) : Nat := if leased s then (s.lease.expiry - s.fclk) / 1800000 else 0

/-- The lease runs for its duration from now. -/
def leaseFor (s : State) (host : Nat) (term : Nat) (cmd : Option CmdRef) : State :=
  { s with lease := { holder := some host, term := term, expiry := s.fclk + ms (dget s 0x272003), cmd := cmd } }

/-- LEASE_ACQUIRE. -/
def execLeaseAcquire (conn : Nat) (msg : Send) (s : State) : Host.Outcome State Fault Refusal :=
  hostRow 0x08 1 [] conn msg s fun c s =>
    if leased s && s.lease.holder != some c.host then complete s c.ref c.ctx 0x0C (s.lease.holder.getD 0)
    else
      let fresh := !(leased s)
      let s := if fresh then endLease s 1 else s
      let s := leaseFor s c.host (if fresh then s.lease.term % 255 + 1 else s.lease.term) (some { c.ref with queue := cmdQueueNo c })
      done s c (s.lease.term + leaseLeft s * 2 ^ 32)

/-- The host holds the lease with this Term (R387, R388). -/
def holdsLease (s : State) (host term : Nat) : Bool := leased s && s.lease.holder = some host && s.lease.term = term

/-- LEASE_RENEW. -/
def execLeaseRenew (conn : Nat) (msg : Send) (s : State) : Host.Outcome State Fault Refusal :=
  hostRow 0x09 1 [0xFF] conn msg s fun c s =>
    if !(holdsLease s c.host (cmdW c 4)) then refuse s c 0x0F
    else
      let s := leaseFor s c.host s.lease.term s.lease.cmd
      done s c (leaseLeft s)

/-- LEASE_RELEASE. -/
def execLeaseRelease (conn : Nat) (msg : Send) (s : State) : Host.Outcome State Fault Refusal :=
  hostRow 0x0A 1 [0xFF] conn msg s fun c s =>
    if !(holdsLease s c.host (cmdW c 4)) then refuse s c 0x0F else done (endLease s 0) c 0

/-- LEASE_EXPIRY: the lease's time has passed. -/
def execLeaseExpiry (s : State) : Host.Outcome State Fault Refusal := act s fun s => endLease s 1

/-! ## Shared objects (R245 to R250) -/

/-- OBJ_CREATE. -/
def execObjCreate (conn : Nat) (msg : Send) (s : State) : Host.Outcome State Fault Refusal :=
  ctxRow 0x28 1 [all32] conn msg s fun c s =>
    if (ctxOf s c.ctx).st == .closing then refuse s c 0x05
    else if 0x7FFFFFFF < cmdW c 4 then refuse s c 0x07
    else match lowestFree s.objs 4096 fun o => (objOf s o).valid with
    | none => refuse s c 0x06
    | some o => done (setObj s o { Obj.none with valid := true, value := cmdW c 4, owner := some c.ctx }) c o

/-- A command on an object that the context owns. -/
def ownedObj (s : State) (c : HCmd) (f : Nat → State) : State :=
  let o := fld (cmdW c 4) 0 12
  let x := objOf s o
  if !x.valid then refuse s c 0x07
  else if x.owner != some c.ctx || x.orphan then refuse s c 0x04
  else f o

/-- OBJ_DESTROY. -/
def execObjDestroy (conn : Nat) (msg : Send) (s : State) : Host.Outcome State Fault Refusal :=
  ctxRow 0x29 1 [0xFFF] conn msg s fun c s =>
    ownedObj s c fun o =>
      let s := orphan s 64 o false
      let x := objOf s o
      done (sweepObj (setObj s o { x with owner := none }) o) c 0

/-- OBJ_GRANT. -/
def execObjGrant (conn : Nat) (msg : Send) (s : State) : Host.Outcome State Fault Refusal :=
  ctxRow 0x2A 1 [0xFFFF0FFF] conn msg s fun c s =>
    ownedObj s c fun o =>
      let x := objOf s o
      done (setObj s o { x with sig := BitVec.ofNat 16 (cmdW c 4 / 65536) }) c 0

/-- A command on an object that the host may signal. -/
def signalObj (s : State) (c : HCmd) (f : Nat → State) : State :=
  let o := fld (cmdW c 4) 0 12
  let x := objOf s o
  if !x.valid then refuse s c 0x07
  else if !(x.sig.getLsbD c.host) then refuse s c 0x0C
  else f o

/-- OBJ_SIGNAL. -/
def execObjSignal (conn : Nat) (msg : Send) (s : State) : Host.Outcome State Fault Refusal :=
  hostRow 0x2B 1 [0xFFF, all32] conn msg s fun c s =>
    signalObj s c fun o =>
      let n := cmdW c 5
      if n = 0 || 0x7FFFFFFF < n then refuse s c 0x07
      else if objApart s o 0 then refuse s c 0x0D
      else match raiseObj s o n (srcHost c.host) with
      | (.ok, s) => done s c 0
      | (.overrun, s) => refuse s c 0x0E
      | (.orphan, s) => refuse s c 0x0D

/-- OBJ_WAIT: the wait ends with an OBJECT event. -/
def execObjWait (conn : Nat) (msg : Send) (s : State) : Host.Outcome State Fault Refusal :=
  hostRow 0x2C 1 [0xFFF, all32] conn msg s fun c s =>
    signalObj s c fun o =>
      let w : HostWait := { cmd := c.ref, host := c.host, ctx := c.ctx, target := cmdW c 5 }
      let x := objOf s o
      if x.orphan || objApart s o 0 then endWait s o w true
      else if w.target ≤ x.value then endWait s o w false
      else setObj s o { x with waits := x.waits ++ [w] }

/-! ## Memory windows (R384, R386) -/

/-- The remote key of a window. -/
def mwKey (i : Nat) (w : MWin) : Nat := i * 2 ^ 20 + w.gen % 2 ^ 20

/-- MW_OPEN. -/
def execMwOpen (conn : Nat) (msg : Send) (s : State) : Host.Outcome State Fault Refusal :=
  ctxRow 0x20 1 [all32, all32, all32, all32, 0xFFFF0003] conn msg s fun c s =>
    let x := ctxOf s c.ctx
    let base := cmdW2 c 4
    let len := cmdW2 c 6
    let hosts := fld (cmdW c 8) 16 16
    if x.st == .closing then refuse s c 0x05
    else if base % 4096 != 0 || len % 4096 != 0 || len = 0 || !(hosts.testBit c.host) || fld (cmdW c 8) 0 2 = 0 ||
        !(inOneExtent x.extents base len) then refuse s c 0x07
    else if gateRead s 5 != 1 then refuse s c 0x0C
    else match lowestFree s.mwins 4096 fun i => (mwinOf s i).st != 0 with
    | none => refuse s c 0x06
    | some i =>
      let w : MWin := { st := 1, ctx := c.ctx, base := base, len := len, hosts := BitVec.ofNat 16 hosts,
                        rd := bitOf (cmdW c 8) 0, wr := bitOf (cmdW c 8) 1, gen := (mwinOf s i).gen + 1, cmd := none }
      done (setMwin s i w) c (mwKey i w)

/-- The window that a key names while it is open. -/
def mwNamed (s : State) (rkey : Nat) : Option Nat :=
  let i := rkey / 2 ^ 20 % 4096
  let w := mwinOf s i
  if w.st = 1 && mwKey i w = rkey then some i else none

/-- MW_CLOSE. -/
def execMwClose (conn : Nat) (msg : Send) (s : State) : Host.Outcome State Fault Refusal :=
  ctxRow 0x21 1 [all32] conn msg s fun c s =>
    match mwNamed s (cmdW c 4) with
    | none => refuse s c 0x07
    | some i =>
      let w := mwinOf s i
      if w.ctx != c.ctx then refuse s c 0x07 else setMwin s i { w with st := 2, cmd := some c.ref }

/-- MW_CLOSE_COMPLETE: the last accepted access has landed or been answered. -/
def execMwCloseComplete (win : Nat) (s : State) : Host.Outcome State Fault Refusal :=
  actIf (decide (win < 4096)) s fun s =>
    let w := mwinOf s win
    if w.st != 2 then s
    else
      let s := setMwin s win { MWin.closed with gen := w.gen }
      let s := postOwn s (ctxOf s w.ctx).evq (ctxOf s w.ctx).host
        { kind := 7, status := 0, fault := 0x7001, cookie := 0, ctx := w.ctx, flags := 0,
          detail := 0xFFFF + mwKey win w * 2 ^ 32 }
      match w.cmd with
      | some d => complete s d w.ctx 0 0
      | none => s

/-! ## Stream windows (R343, R358) -/

/-- A descriptor of an MU in a turn signals the counter. -/
def ctrInDesc (m : Mem) (i : Nat) : Bool :=
  ((List.range 256).any fun j => let d := stEnt m 0x08 128 j
                                 d != 0 && dSig d = i) ||
  ((List.range 128).any fun j => let d := stEnt m 0x09 128 j
                                 d != 0 && dSig d = i)

/-- A route of the turn names the counter of the site: as the one it raises, or as the SRC of its EVENT 0b000. -/
def ctrInRoute (y : Syllabus) (t k i : Nat) : Bool :=
  (turnSites y t).any fun j =>
    let m := turnStores y t j
    (List.range 64).any fun n =>
      let e := stEnt m 0x06 8 n
      rtValid e && ((rtKind e = 0 && siteKey (rtWing e) (rtRow e) (rtCol e) = k && rtCtr e = i) ||
        (j = k && rtEvent e = 0 && rtSrc e = i))

/-- BINDING of R343. -/
def bindingOk (x : Ctx) (d : Nat) : Bool :=
  match x.syl with
  | none => false
  | some y =>
    let t := wdTurn d
    let col : Int := (wdCol d : Int) + 2 * sigmaOf y t (wdWing d)
    let k := siteKey (wdWing d) (wdRow d) col.toNat
    let m := turnStores y t k
    let r := ringShape m (wdRing d)
    let b := queueBind m (wdMuQueue d)
    decide (t < hdrNsect y.file) && decide (0 ≤ col) && decide (col < 32) && !(siteIsCu k) &&
    (turnStrips y t).testBit (siteStrip k) && r.1 != 0 && r.2.2 = wdBytes d &&
    (if wdEgress d then qbOutSlots b else qbInSlots b) != 0 && startList m (4 + wdMuQueue d) = 0x3FF &&
    decide (wdCtr d < 48) && !(ctrInDesc m (wdCtr d)) && !(ctrInRoute y t k (wdCtr d))

/-- The status of R343 for a window descriptor on a device channel, 0 when it is accepted. -/
def wdStatus (s : State) (host ch d : Nat) : Nat :=
  let x := ctxOf s (wdCtx d)
  let kind := wdKind d
  if numChans s ≤ ch then 2
  else if (chanOf s ch).st != .closed then 1
  else if (tportOf s (ch / 64)).link == .disabled || dget s (0x264001 + 0x100 * (ch / 64)) = 0 then 2
  else if x.st == .free || x.host != host || x.st == .closing ||
      (kind = 1 && x.st != .loaded && x.st != .running && x.st != .recess) then 3
  else if kind = 1 && !(bindingOk x d) then 4
  else if kind = 2 && (wdBlock64 d = 0 || 16384 < wdBlock64 d || wdNbuf d < 2 ||
      !(inOneExtent x.extents (wdAddr d) (wdNbuf d * wdBytes d))) then 5
  else if kind = 2 && (wdProd d = wdCons d || [wdProd d, wdCons d].any fun o =>
      let z := objOf s o
      !z.valid || z.orphan || z.owner != some (wdCtx d)) then 6
  else if kind = 2 && twinned s x then 7
  else if !(wdReservedOk d) then 8
  else 0

/-- SW_OPEN: the completion comes when the partner has answered, or with the failing status. -/
def execSwOpen (conn : Nat) (msg : Send) (s : State) : Host.Outcome State Fault Refusal :=
  ctxRow 0x22 1 ([0xFFF, 0, 0, 0] ++ List.replicate 8 all32) conn msg s fun c s =>
    let ch := cmdW c 4
    let d := leNat ((List.range 8).flatMap fun i => leBytes 4 (cmdW c (8 + i)))
    if gateRead s 4 != 1 then refuse s c 0x0C
    else
      let st := wdStatus s c.host ch d
      if st != 0 then complete s c.ref c.ctx 0x0A st else windowOpen s ch d c.ref

/-- SW_CLOSE. -/
def execSwClose (conn : Nat) (msg : Send) (s : State) : Host.Outcome State Fault Refusal :=
  ctxRow 0x23 1 [0xFFF] conn msg s fun c s =>
    let ch := cmdW c 4
    let w := chanOf s ch
    if numChans s ≤ ch || w.st == .closed || wdCtx w.wd != c.ctx then refuse s c 0x07
    else if w.st == .closing && w.closeCmd.isSome then refuse s c 0x05
    else if wdKind w.wd = 1 && executes (ctxOf s c.ctx) && ((ctxOf s c.ctx).run.map Run.turn).getD 256 = wdTurn w.wd then
      complete s c.ref c.ctx 0x0A 0x03
    else startClose s ch (some c.ref) none

/-! ## Readouts (R378, R393) -/

/-- Writes a result to the host; the command completes once the host has acknowledged it. -/
def writeResult (s : State) (c : HCmd) (data : List Byte) (status detail : Nat) : State :=
  if data.isEmpty then complete s c.ref c.ctx status detail
  else
    let s := { s with rdmas := s.rdmas ++ [{ conn := c.conn, cmd := c.ref, ctx := c.ctx, status := status, detail := detail,
                                             isLoad := false, sent := true }] }
    emit s (.rdmaWrite c.conn (cmdW2 c 4) (cmdW c 6) data)

/-- The context of RC_READ and RC_RESET: one that holds no loaded syllabus, a FREE one included, receives STATE (R109). -/
def cardRow (op units : Nat) (allow : List Nat) (conn : Nat) (msg : Send) (s : State) (f : HCmd → State → State) :
    Host.Outcome State Fault Refusal :=
  hostRow op units allow conn msg s fun c s =>
    if 64 ≤ c.ctx then refuse s c 0x07
    else
      let x := ctxOf s c.ctx
      if x.st == .free then refuse s c 0x05
      else if x.host != c.host then refuse s c 0x04
      else if x.syl.isNone then refuse s c 0x05
      else f c s

/-- RC_READ. -/
def execRcRead (conn : Nat) (msg : Send) (s : State) : Host.Outcome State Fault Refusal :=
  cardRow 0x30 1 [all32, all32, all32, 0xFFFF] conn msg s fun c s =>
    let x := ctxOf s c.ctx
    let first := fld (cmdW c 7) 0 8
    let n := fld (cmdW c 7) 8 8 + 1
    if 256 < first + n then refuse s c 0x07
    else writeResult s c ((List.range n).flatMap fun i => cardRecord (cardOf x (first + i))) 0 0

/-- A reset of a Report Card: deferred while the step of its tensor in a run in progress is open, or has ended and waits for its merge
(R109). -/
def requestReset (s : State) (c card bits : Nat) (cmd : Option CmdRef) : State :=
  let x := ctxOf s c
  if inRun x && (stepOpen x card || lateOpen x card) then
    modCtx s c fun x => { x with resets := x.resets ++ [(if stepOpen x card then card else lateKey card, bits, cmd)] }
  else
    let s := resetCard s c card bits
    match cmd with
    | some d => complete s d c 0 0
    | none => s

/-- RC_RESET. -/
def execRcReset (conn : Nat) (msg : Send) (s : State) : Host.Outcome State Fault Refusal :=
  cardRow 0x31 1 [0x3FF] conn msg s fun c s =>
    let bits := fld (cmdW c 4) 8 2
    if bits = 0 then refuse s c 0x07
    else requestReset s c.ctx (fld (cmdW c 4) 0 8) bits (some c.ref)

/-- ROLL_CALL. -/
def execRollCall (conn : Nat) (msg : Send) (s : State) : Host.Outcome State Fault Refusal :=
  ctxRow 0x32 1 [all32, all32, all32, all32] conn msg s fun c s =>
    let recs := rollBytes s c.ctx
    let need := sumOf (recs.map List.length)
    if need ≤ cmdW c 7 then writeResult s c recs.flatten 0 need
    else writeResult s c (fitRecords (cmdW c 7) recs) 0x07 need

/-- CTX_READ. -/
def execCtxRead (conn : Nat) (msg : Send) (s : State) : Host.Outcome State Fault Refusal :=
  ctxRow 0x33 1 [all32, all32, all32] conn msg s fun c s => writeResult s c (ctxRecord (ctxOf s c.ctx)) 0 0

/-- DBG_READ. -/
def execDbgRead (conn : Nat) (msg : Send) (s : State) : Host.Outcome State Fault Refusal :=
  ctxRow 0x34 1 [all32, all32, all32, all32, all32, 0x3FFFFF00] conn msg s fun c s =>
    let addr := cmdW2 c 8
    let len := cmdW c 7
    if !((ctxMask s (ctxOf s c.ctx)).testBit (siteStrip (daSite addr))) then refuse s c 0x04
    else if len % 4 != 0 || len = 0 || 65536 < len then refuse s c 0x07
    else match dbgRead s (some c.ctx) addr len with
    | (.bytes bs, s) => writeResult s c bs 0 len
    | (.state, s) => refuse s c 0x05
    | (.notOwner, s) => refuse s c 0x04
    | (.range, s) => refuse s c 0x07

/-- RDMA_WRITE_ACKED: the host has acknowledged the last byte of the oldest result on the connection (R378). -/
def execRdmaWriteAcked (pkt : ConnPkt) (s : State) : Host.Outcome State Fault Refusal :=
  act s fun s => packetOn s pkt fun s =>
    let s := setConn s pkt.conn { connOf s pkt.conn with retries := 0, rnrs := 0 }
    match takeFirst (fun r => r.conn = pkt.conn && !r.isLoad) s.rdmas with
    | none => s
    | some (r, rest) => complete { s with rdmas := rest } r.cmd r.ctx r.status r.detail

end Sys2Proof.Machine
end

