-- ==== Sys2Proof/Machine/Loader.lean ====
section
/-! DEFINITION. Loading a syllabus: the load status (R264), its checks in the order of the code table (R255 to R266, R268,
R269, R448, R449, and the load rules of the tables of a unit), placement and relocation (R265, R266), and the effective maxima
of a launch shape (R271). -/

namespace Sys2Proof.Machine

/-! ## The load status (R264) -/

/-- A load status: code, section, fault word, the site and unit of the entry at fault, index and value. -/
def ldStatus (code sect fault unit wing row col index value : Nat) : Nat :=
  code * 2 ^ 24 + sect * 2 ^ 16 + fault + (unit * 2 ^ 22 + wing * 2 ^ 20 + row * 2 ^ 16 + col * 2 ^ 11) * 2 ^ 32 +
  index % 2 ^ 16 * 2 ^ 64 + value % 2 ^ 32 * 2 ^ 96

/-- A status of the header or the whole syllabus. -/
def ldHead (code index value : Nat) : Nat := ldStatus code 0xFF 0 0 0 0 0 index value
/-- A status of a turn. -/
def ldTurn (code t wing index value : Nat) : Nat := ldStatus code t 0 0 wing 0 0 index value
/-- A status of an entry of a block. -/
def ldBlk (code t : Nat) (b : Blk) (index value : Nat) : Nat :=
  ldStatus code t (if code = 0x0E then 0x1003 else if code = 0x12 then 0x3002 else 0) b.unit b.wing b.row b.col index value
/-- The status of a load that is accepted. -/
def ldOk : Nat := ldHead 0 0 0

/-- What a load is judged by: the context's strips and extents, its class, the request and the device's settings. -/
structure LdIn where
  product : W32
  strips : Nat
  extents : List (Nat × Nat)
  lc : Bool
  twin : Bool
  debug : Bool
  req : Loading

/-! ## Walks over a file -/

def ldTurns (f : List Byte) : List Nat := List.range (hdrNsect f)

/-- The first finding over the turns. -/
def perTurn (f : List Byte) (g : Nat → Option Nat) : Option Nat := (ldTurns f).findSome? g

/-- The first finding over the blocks of the turns, in file order, with the block's number. -/
def perBlock (f : List Byte) (g : Nat → Nat → Blk → Option Nat) : Option Nat :=
  perTurn f fun t => ((blocksOf f t).zipIdx).findSome? fun b => g t b.2 b.1

/-- The first finding over the entries of the blocks of one store: the status names the entry. -/
def perEntry (f : List Byte) (code store : Nat) (bad : Nat → Blk → Nat → Nat → Bool) : Option Nat :=
  perBlock f fun t _ b =>
    if b.store != store then none
    else ((List.range b.count).find? fun i => bad t b (b.first + i) (blkEnt f b i)).map fun i =>
      ldBlk code t b (b.first + i) 0

/-- The header of the block, and its data, lie in the image of its turn. -/
def blkHeld (f : List Byte) (t n : Nat) (b : Blk) : Bool :=
  let lo := secImageOff f t
  let hi := lo + secImageBytes f t
  decide (lo + 16 * (n + 1) ≤ hi) && decide (lo ≤ b.off) && decide (b.off + blkSize b * b.count ≤ hi)

/-- The block's store is known and its data lies in the file, before the signature block. -/
def blkReads (f : List Byte) (b : Blk) : Bool :=
  (storeShape b.store).isSome && decide (b.off + blkSize b * b.count ≤ hdrSigOff f)

/-! ## 0x02 SIGNATURE (R448, R449) -/

/-- The header with DIGEST read as zero, up to the signature block. -/
def signedBytes (f : List Byte) : List Byte :=
  let p := f.take (hdrSigOff f)
  p.take 64 ++ List.replicate (min 32 (p.length - 64)) 0#8 ++ p.drop 96

def fileDigest (f : List Byte) : List Byte := (f.drop 64).take 32
/-- Entry `i` of the signature block. -/
def sigEntry (f : List Byte) (i : Nat) : List Byte := (f.drop (hdrSigOff f + 64 + 3776 * i)).take 3776
def sigCount (f : List Byte) : Nat := leAt f (hdrSigOff f + 6) 1
/-- The hash of the key of an entry. -/
def sigKeyHash (f : List Byte) (i : Nat) : Nat := leNat (sha3 ((sigEntry f i).take 1312))

/-- The signature block is well formed (R448). -/
def sigFormOk (f : List Byte) : Bool :=
  let o := hdrSigOff f
  let n := sigCount f
  leAt f o 4 = 0x47495353 && leAt f (o + 4) 2 = 0x0044 && leAt f (o + 7) 1 = 0 && leAt f (o + 8) 56 = 0 &&
  decide (1 ≤ n) && decide (n ≤ 4) && hdrSigBytes f = 64 + 3776 * n &&
  ((List.range n).all fun i => leNat ((sigEntry f i).drop 3732) = 0)

/-- The context string of a syllabus signature, "SYLB". -/
def sylbString : List Byte := [0x53#8, 0x59#8, 0x4C#8, 0x42#8]

/-- The entries whose key is installed. -/
def sigInstalled (f : List Byte) (keys : List Nat) : List Nat :=
  (List.range (sigCount f)).filter fun i => (keys.filter (· != 0)).contains (sigKeyHash f i)

/-- The signature of an entry verifies. -/
def sigVerifies (f : List Byte) (i : Nat) : Bool :=
  let e := sigEntry f i
  Config.mldsaVerify (e.take 1312) (fileDigest f) ((e.drop 1312).take 2420) sylbString

/-- The VALUE of a signature failure. -/
def sigFault (f : List Byte) (q : Loading) : Option Nat :=
  if hdrFileBytes f != hdrSigOff f + hdrSigBytes f || hdrFileBytes f != q.length then some 1
  else if sha3 (signedBytes f) != fileDigest f then some 2
  else if hdrSigBytes f = 0 then (if q.policy = 0 then none else some 3)
  else if !(sigFormOk f) then some 3
  else if q.policy = 0 then none
  else if (sigInstalled f q.keys).isEmpty then some 4
  else if ((sigInstalled f q.keys).any (sigVerifies f)) then none else some 5

/-- The key hash that admits the syllabus, 0 under policy 0. -/
def sigSigner (f : List Byte) (q : Loading) : Nat :=
  if q.policy = 0 then 0
  else (((sigInstalled f q.keys).find? (sigVerifies f)).map (sigKeyHash f)).getD 0

/-! ## 0x03 to 0x05: version, grade and reserved bits -/

def hdrVersion (f : List Byte) : Nat := fld (hdrW f 1) 24 8 * 256 + fld (hdrW f 1) 16 8

/-- FORMAT_VERSION (R261). -/
def versionFault (f : List Byte) : Option Nat :=
  let v := hdrVersion f
  if v < 0x200 || 0x201 < v then some (ldHead 0x03 0 v) else none

/-- GRADE_MISMATCH (R6). -/
def gradeFault (f : List Byte) (q : LdIn) : Option Nat :=
  if hdrW f 2 != q.product.toNat then some (ldHead 0x04 0 (hdrW f 2)) else none

/-- A header word breaks R255 or R256. -/
def hdrWordBad (f : List Byte) (i : Nat) : Bool :=
  let w := hdrW f i
  match i with
  | 0 => w != 0x424C5953
  | 1 => fld w 0 16 != 0x0100
  | 3 => fld w 16 16 != 0 || hdrNsect f = 0 || hdrMinStrips f = 0
  | 5 => bitOf w 16
  | 6 => fld w 24 8 != 0 || fld w 12 4 != 0 || fld w 0 8 != 0 || (fld w 16 8 != 39 && fld w 16 8 != 78) || hdrMinLevel f = 3
  | 8 => w % 64 != 0 || decide (w < 256) || decide (hdrSigOff f < w + 64 * hdrNsect f)
  | 9 => w % 64 != 0 || decide (w < hdrSectOff f + 64 * hdrNsect f) || decide (hdrSigOff f < w + 16 * hdrRelocCount f)
  | 10 => w % 64 != 0
  | 15 => w != 0
  | _ =>
    if 24 ≤ i && i < 40 then w != 0 && (i = 24 || !((hdrShapeMask f).testBit (i - 24)))
    else if 40 ≤ i && i < 56 then w != 0 && !((hdrRegionMask f).testBit (i - 40))
    else decide (56 ≤ i) && w != 0

/-- The blocks that an image holds are those that NBLOCK counts: no block's data stands among the headers, and what follows
them up to the first data is no header (log entry 31). -/
def nblockOk (f : List Byte) (t : Nat) : Bool :=
  let lo := secImageOff f t
  let hi := lo + 16 * secNblock f t
  let top := lo + secImageBytes f t
  let offs := ((blocksOf f t).map Blk.off).filter fun o => decide (lo ≤ o) && decide (o < top)
  let data := if offs.isEmpty then hi else offs.foldl min top
  (offs.all fun o => decide (hi ≤ o)) &&
  ((List.range ((data - hi) / 16)).all fun i => leAt f (hi + 16 * i) 16 = 0)

/-- A word of a section table entry breaks R257. -/
def secWordBad (f : List Byte) (t i : Nat) : Bool :=
  let w := secW f t i
  match i with
  | 0 =>
    let earlier := (List.range t).filter fun u => secLsect f u = secLsect f t
    let whole := (ldTurns f).filter fun u => secLsect f u = secLsect f t
    fld w 24 4 != 0 || (secKind f t != 1 && secKind f t != 2) || secLsect f t = 255 || secNturns f t = 0 ||
    decide (secNturns f t ≤ secTurn f t) || secTurn f t != earlier.length ||
    (earlier.any fun u => secNturns f u != secNturns f t) ||
    (earlier.length + 1 = whole.length && whole.length != secNturns f t)
  | 1 => fld w 9 23 != 0 || (List.range 4).any fun v => (secWings f t).testBit v != (secStrips f t v != 0)
  | 4 => w % 64 != 0 || decide (w < hdrSectOff f + 64 * hdrNsect f)
  | 5 => decide (hdrRelocOff f < secImageOff f t + w)
  | 6 => bitOf w 16 || !(nblockOk f t)
  | 7 => w != 0
  | _ => decide (10 ≤ i) && w != 0

/-- Reserved bits of a route (R239). -/
def routeBitsOk (e : Nat) : Bool :=
  fld e 0 28 = 0 && (rtKind e = 0 || (fld e 45 8 = 0 && fld e 36 5 = 0))

/-- A port code that R180 gives the site's unit. -/
def inPortOk (cu : Bool) (p : Nat) : Bool := decide (p ≤ 4) || !cu
def outPortsOk (cu : Bool) (m : Nat) : Bool := !cu || fld m 6 2 = 0

/-- A circuit entry passes the refusals of R185 under R16. -/
def circuitBitsOk (cu : Bool) (e : Nat) : Bool :=
  fld e 0 21 = 0 &&
  (!(ceValid e) ||
    (decide (ceOp e ≤ 1) && inPortOk cu (ceInA e) && outPortsOk cu (ceOut e) && ceSlotsA e != 0 &&
      !(decide (ceInA e < 4) && (ceOut e).testBit (ceInA e)) &&
      (if ceOp e = 1 then inPortOk cu (ceInB e) && ceSlotsB e != 0 && !(decide (ceInB e < 4) && (ceOut e).testBit (ceInB e))
       else ceInB e = 0 && ceSlotsB e = 0)))

/-- Reserved bits of a wait condition (R236). -/
def waitBitsOk (w : Nat) : Bool := fld w 26 6 = 0 && fld w 6 6 = 0 && fld w 96 32 = 0

/-- An entry of a store has no reserved bit set (R16); `minor` is the minor version, `cu` says what stands at the site. -/
def entryBitsOk (store minor : Nat) (cu : Bool) (e : Nat) : Bool :=
  match store with
  | 0x01 => if pdType e ≤ 3 then pdReservedOk e else fld e 23 1 = 0 && fld e 42 2 = 0 && fld e 94 2 = 0 && fld e 99 25 = 0
  | 0x03 => fld e 57 7 = 0 && fld e 94 2 = 0 && fld e 91 1 = 0 && fld e 75 5 = 0 && fld e 101 27 = 0
  | 0x05 => waitBitsOk e
  | 0x06 => routeBitsOk e
  | 0x07 => fld e 16 16 = 0 && fld e 12 3 = 0 && fld e 6 2 = 0
  | 0x08 => if 1 ≤ dType e && dType e ≤ 3 then descBitsOk e else true
  | 0x09 => if dType e = 4 then descBitsOk e else true
  | 0x0A => fld e 18 1 = 0 && fld e 80 13 = 0 && fld e 96 32 = 0
  | 0x0B => waitBitsOk e
  | 0x0C => fld e 26 6 = 0 && fld e 15 7 = 0 && fld e 47 17 = 0 && fld e 65 31 = 0 && fld e 96 32 = 0
  | 0x0D => fld e 30 2 = 0 && fld e 7 3 = 0
  | 0x0E => (List.range 5).all fun j => fld e (32 * j + 16) 13 = 0
  | 0x0F => fld e 26 2 = 0 && fld e 8 8 = 0 && fld e 32 16 = 0 && fld e 192 64 = 0
  | 0x10 => circuitBitsOk cu e
  | 0x11 => qdReservedOk e && (minor != 0 || !(qdPerChannel e))
  | 0x12 => fld e 36 27 = 0
  | 0x13 => fld e 26 6 = 0 && fld e 10 6 = 0 && fld e 224 32 = 0
  | _ => true

/-- The VALUE of an entry that `ok` refuses: its first 32-bit word whose clearing alone lets the entry pass, else its first word
(log entry 77). -/
def badWord (ok : Nat → Bool) (words e : Nat) : Nat :=
  dW e (((List.range words).find? fun j => ok (setFld e (32 * j) 32 0)).getD 0)

/-- RESERVED_BITS in a block: its header, then its entries. -/
def blkReserved (f : List Byte) (t : Nat) (b : Blk) : Option Nat :=
  let ok := entryBitsOk b.store (hdrVersion f % 256) ((b.row + b.col) % 2 = 0)
  if fld b.w0 16 3 != 0 || fld b.w0 0 8 != 0 then some (ldBlk 0x05 t b 0 b.w0)
  else if b.w3 != 0 then some (ldBlk 0x05 t b 3 b.w3)
  else if !(blkReads f b) || b.store = 0x14 || b.store = 0x02 || b.store = 0x04 then none
  else ((List.range b.count).find? fun i => !(ok (blkEnt f b i))).map fun i =>
    ldBlk 0x05 t b (b.first + i) (badWord ok (blkSize b / 4) (blkEnt f b i))

/-- A relocation entry's reserved word that is not 0 (R266, R277). -/
def relocReserved (f : List Byte) (i : Nat) : Option Nat :=
  let o := hdrRelocOff f + 16 * i
  if fld (leAt f (o + 8) 4) 8 24 != 0 then some (leAt f (o + 8) 4)
  else if leAt f (o + 12) 4 != 0 then some (leAt f (o + 12) 4)
  else none

/-- RESERVED_BITS: the header and the relocation table, then each turn's section table entry and its blocks (R264, R277). -/
def reservedFault (f : List Byte) : Option Nat :=
  ((List.range 64).find? (hdrWordBad f)).map (fun i => ldHead 0x05 i (hdrW f i)) |>.or
  ((List.range (hdrRelocCount f)).findSome? fun i => (relocReserved f i).map fun v => ldHead 0x05 i v) |>.or
  (perTurn f fun t =>
    (((List.range 16).find? (secWordBad f t)).map fun i => ldTurn 0x05 t 0 i (secW f t i)) |>.or
    ((blocksOf f t).findSome? (blkReserved f t)))

/-! ## 0x06 to 0x09: regions, level, class and strips -/

/-- REGION (R263). -/
def regionFault (f : List Byte) (q : LdIn) : Option Nat :=
  ((List.range 16).find? fun r =>
    let base := q.req.bases.getD r 0
    let used := (hdrRegionMask f).testBit r
    (q.req.echo.testBit r != used) || (!used && base != 0) ||
    (used && (base % 4096 != 0 || !(insideExtents q.extents 64 base (4096 * hdrRegionPages f r))))).map fun r =>
      ldHead 0x06 r (q.req.bases.getD r 0)

/-- SERVICE_LEVEL (R269). -/
def levelFault (f : List Byte) (q : LdIn) : Option Nat :=
  let l := q.req.level
  if l < hdrMinLevel f || 2 < l || (l = 2 && (!q.debug || q.twin)) then some (ldHead 0x07 0 l) else none

/-- TILE_MODE_LC (R141). -/
def tileModeFault (f : List Byte) (q : LdIn) : Option Nat :=
  if !q.lc then none else perTurn f fun t => if secKind f t = 2 then some (ldTurn 0x08 t 0 0 0) else none

/-- The shifts of R265 in order: least magnitude first, negative before positive. -/
def shiftOrder : List Int := 0 :: (List.range 15).flatMap fun (i : Nat) => [-((i : Int) + 1), (i : Int) + 1]

/-- A shift places every strip of a wing inside the grant. -/
def shiftFits (strips grant : Nat) (sigma : Int) : Bool :=
  (List.range 16).all fun i =>
    !(strips.testBit i) ||
      (let j := (i : Int) + sigma
       decide (0 ≤ j) && decide (j < 16) && grant.testBit j.toNat)

/-- The shift of a turn's wing, if one fits. -/
def placeWing (f : List Byte) (grant t w : Nat) : Option Int :=
  let strips := secStrips f t w
  let g := fld grant (16 * w) 16
  (if secReloc f t w && strips != 0 then shiftOrder else [0]).find? (shiftFits strips g)

/-- STRIP: too few strips, or no placement (R42, R265). -/
def stripFault (f : List Byte) (q : LdIn) : Option Nat :=
  if ((List.range 64).filter q.strips.testBit).length < hdrMinStrips f then some (ldHead 0x09 0 (hdrMinStrips f))
  else perTurn f fun t => (List.range 4).findSome? fun w =>
    if (placeWing f q.strips t w).isNone then some (ldTurn 0x09 t w 0 (secStrips f t w)) else none

/-- The shift of every turn and wing. -/
def placeAll (f : List Byte) (grant : Nat) : List Int :=
  (ldTurns f).flatMap fun t => (List.range 4).map fun w => (placeWing f grant t w).getD 0

/-! ## 0x0A: relocation (R265, R266) -/

/-- A circuit entry names the west grid-side port at column 0 or the east one at column 31 of a wing that may shift. -/
def edgeFault (f : List Byte) : Option Nat :=
  perBlock f fun t _ b =>
    if b.store != 0x10 || !(blkReads f b) || (b.col != 0 && b.col != 31) || !(secReloc f t b.wing) then none
    else
      let p := if b.col = 0 then 3 else 1
      ((List.range b.count).find? fun i =>
        let e := blkEnt f b i
        ceValid e && (ceInA e = p || (ceOp e = 1 && ceInB e = p) || (ceOut e).testBit p)).map fun i =>
          ldBlk 0x0A t b (b.first + i) 0

/-- The patched word of a relocation entry: its value, or the value at fault. -/
def relocWord (f : List Byte) (shift : List Int) (bases : List Nat) (o : Nat) : Except Nat (Nat × Nat) :=
  let off := leAt f o 4
  let w1 := leAt f (o + 4) 4
  let w2 := leAt f (o + 8) 4
  let kind := fld w1 24 8
  let arg := fld w1 16 8
  let width := fld w1 8 8
  let bit := fld w1 0 8
  let sect := fld w2 0 8
  let word := leAt f off 8
  let v := fld word bit width
  let inData := (ldTurns f).any fun t => (blocksOf f t).any fun b =>
    blkReads f b && decide (b.off ≤ off) && decide (off < b.off + blkSize b * b.count)
  let two : Int := 2 * shift.getD (4 * sect + arg) 0
  if off % 8 != 0 || width = 0 || 64 < bit + width || hdrNsect f ≤ sect ||
      !inData then .error v
  else
    let r : Option Int := match kind with
      | 1 => if width = 64 && bit = 0 && arg < 16 then some ((v : Int) + bases.getD arg 0) else none
      | 2 => if arg < 4 && 0 ≤ (v : Int) + two && (v : Int) + two ≤ 31 then some ((v : Int) + two) else none
      | 3 => if arg < 4 && v < 64 && 0 ≤ (v % 32 : Nat) + two && (v % 32 : Nat) + two ≤ 31 then some ((v : Int) + two) else none
      | _ => none
    match r with
    | none => .error v
    | some n => if n < 2 ^ width then .ok (off, setFld word bit width n.toNat) else .error n.toNat

/-- The bytes with those from `o` on replaced. -/
def patch (f : List Byte) (o : Nat) (bs : List Byte) : List Byte := f.take o ++ bs ++ f.drop (o + bs.length)

/-- Applies the relocation entries from the `i`-th on: the patched file, or the status of the first that is refused. -/
def relocate : Nat → Nat → List Byte → List Int → List Nat → Except Nat (List Byte)
  | 0, _, f, _, _ => .ok f
  | n + 1, i, f, shift, bases =>
    let o := hdrRelocOff f + 16 * i
    match relocWord f shift bases o with
    | .error v => let sect := leAt f (o + 8) 1
                  .error (ldTurn 0x0A (if sect < hdrNsect f then sect else 0xFF) 0 i v)
    | .ok (a, w) => relocate n (i + 1) (patch f a (leBytes 8 w)) shift bases

/-! ## 0x0B: blocks (R258, R260) -/

/-- The UNIT of a block is one that its store accepts, and the site holds that unit. -/
def blkUnitOk (b : Blk) : Bool :=
  let par := (b.row + b.col) % 2
  let c := b.store
  if (1 ≤ c && c ≤ 5) then b.unit = 0 && par = 0
  else if c = 6 || c = 7 || c = 0x13 then decide (b.unit < 2) && b.unit = par
  else if c = 0x10 then b.unit = 2
  else if c = 0x12 then b.unit = 3
  else b.unit = 1 && par = 1

/-- Two blocks write a common entry. -/
def blksMeet (a b : Blk) : Bool :=
  a.store = b.store && a.wing = b.wing && a.row = b.row && a.col = b.col &&
  decide (a.first < b.first + b.count) && decide (b.first < a.first + a.count)

/-- What is wrong with a block: the entry at fault and the offending value (log entry 77). -/
def blkCause (f : List Byte) (t n : Nat) (b : Blk) : Option (Nat × Nat) :=
  let cap := ((storeShape b.store).map (·.2)).getD 0
  if (storeShape b.store).isNone then some (b.first, b.store)
  else if !(blkUnitOk b) then some (b.first, b.unit)
  else if b.unit = 3 && !(b.wing = 0 && b.row = 0 && b.col = 0) then some (b.first, b.w0)
  else if b.unit != 3 && !((secStrips f t b.wing).testBit (b.col / 2)) then some (b.first, b.col)
  else if b.count = 0 then some (b.first, 0)
  else if b.off % 64 != 0 || !(blkHeld f t n b) then some (b.first, b.off)
  else if cap < b.first + b.count then some (max b.first cap, max b.first cap)
  else (((blocksOf f t).take n).find? (blksMeet b)).map fun a => (max a.first b.first, max a.first b.first)

/-- BLOCK. -/
def blockFault (f : List Byte) : Option Nat :=
  perBlock f fun t n b => (blkCause f t n b).map fun v => ldBlk 0x0B t b v.1 v.2

/-! ## 0x0C: element programs (R132) -/

/-- Kinds of registers as the program text fixes them: 0 either, 1 FP32, 2 INT32. -/
def regKind (h w : Nat) (kinds : List Nat) : Nat :=
  let o := inOp w
  if (0x08 ≤ o && o ≤ 0x17) || o = 0x1C || o = 0x30 || o = 0x31 then 1
  else if o = 0x1D || (0x20 ≤ o && o ≤ 0x25) then 2
  else if o = 0x02 then (match fmtOf (phInFmt h) with
    | some f => if fmtIsFloat f then 1 else 2
    | none => 0)
  else if o = 0x05 then kinds.getD (inA w) 0
  else 0

/-- What a walk over a program has found: its stage's row reductions, register kinds, and the kinds sent by OUT0 and OUT1. -/
structure ProgWalk where
  ok : Bool
  reds : Nat
  kinds : List Nat
  out0 : List Nat
  out1 : List Nat

/-- One instruction of a stage. -/
def progStep (h stage : Nat) (p : ProgWalk) (w : Nat) : ProgWalk :=
  let o := inOp w
  let reds := p.reds + b2n (o = 0x30 || o = 0x31)
  let ch := inX w % 2
  let ok := p.ok && opDefined o && ((o != 0x01 && o != 0x02) || stage = 0) && (o != 0x02 || phInEn h) && decide (reds ≤ 1) &&
    (o != 0x38 || phEn h ch)
  let k := p.kinds.getD (inA w) 0
  if o = 0x38 then
    { p with ok := ok, reds := reds, out0 := if ch = 0 then p.out0 ++ [k] else p.out0,
             out1 := if ch = 1 then p.out1 ++ [k] else p.out1 }
  else { p with ok := ok, reds := reds, kinds := if o = 0 then p.kinds else p.kinds.set (inD w) (regKind h w p.kinds) }

/-- The walk over the stages of a program. -/
def progWalk (h : Nat) (word : Nat → Nat) : ProgWalk :=
  ((List.range 6).foldl (fun (a : ProgWalk × Nat) st =>
    let n := phLen h st
    (((List.range n).foldl (fun p i => progStep h st p (word (a.2 + i))) { a.1 with reds := 0 }), a.2 + n))
    ({ ok := true, reds := 0, kinds := List.replicate 32 0, out0 := [], out1 := [] }, phBase h)).1

/-- A program whose header a block writes obeys R132, and its IN_FMT is a code that R52 and R53 admit there, whether or not IN_EN is
set. DESIGN CHOICE (log entry 71): the spec names no load status for that code, and the model gives it ELEMENT_PROGRAM (0x0C).
-/
def programOk (h : Nat) (word : Nat → Nat) (qds : List (Nat × Nat)) : Bool :=
  let p := progWalk h word
  let chOk (ch : Nat) (outs : List Nat) : Bool :=
    if !(phEn h ch) then true
    else outs.length = 1 &&
      (phQd h ch = 0x3FF || match qds.find? fun e => e.1 = phQd h ch with
        | none => false
        | some e => outs.all fun k => k = 0 || k = (if qdSource e.2 = 0x8 then 2 else 1))
  decide (1 ≤ phTotal h) && decide (phTotal h ≤ 256) && decide (phBase h + phTotal h ≤ 512) && phSatq h != 3 &&
  (match fmtOf (phInFmt h) with
    | some g => fmtDrainOut g
    | none => false) &&
  p.ok && chOk 0 p.out0 && chOk 1 p.out1

/-- ELEMENT_PROGRAM. -/
def programFault (y : Syllabus) : Option Nat :=
  perBlock y.file fun t _ b =>
    if b.store != 0x03 then none
    else
      let m := turnStores y t (blkSite y t b)
      ((List.range b.count).find? fun i =>
        !(programOk (blkEnt y.file b i) (fun j => stEnt m 0x02 4 j) (qdsOf y.file t))).map fun i =>
          ldBlk 0x0C t b (b.first + i) 0

/-! ## 0x0D, 0x0E: quantiser descriptors (R87, R99) -/

/-- A QD shares its Report Card with another QD, or differs from its own copy: the logical section and the index make copies
one QD (R90). -/
def qdClash (all : List (Nat × Nat × Nat)) (ls idx q : Nat) : Bool :=
  all.any fun e => if e.1 = ls && e.2.1 = idx then e.2.2 != q else qdRcIndex e.2.2 = qdRcIndex q

/-- QUANTISER: a clash is found at the later of the two entries. -/
def qdFault (f : List Byte) : Option Nat :=
  perEntry f 0x0D 0x11 fun t b i q =>
    let before := ((ldTurns f).take t).flatMap (fun u => (qdsOf f u).map fun e => (secLsect f u, e.1, e.2)) ++
      ((qdsOf f t).take (((blocksOf f t).takeWhile (· != b)).foldl (fun n a => n + if a.store = 0x11 then a.count else 0) 0 +
        (i - b.first))).map fun e => (secLsect f t, e.1, e.2)
    !(qdComboOk q) || qdClash before (secLsect f t) i q

def seedFault (f : List Byte) : Option Nat := perEntry f 0x0E 0x11 fun _ _ _ q => qdSeedMissing q

/-! ## 0x0F: rings and queues (R211, R218) -/

/-- Ring `r` of a unit is refused. -/
def ringBad (m : Mem) (r : Nat) : Bool :=
  let at_ (i : Nat) : Nat := stEnt m 0x0C 16 i
  let en (i : Nat) : Bool := bitOf (at_ i) 64
  let lo (i : Nat) : Nat := fld (at_ i) 0 15
  let hi (i : Nat) : Nat := lo i + (fld (at_ i) 22 4 + 1) * fld (at_ i) 32 15
  if !(en r) then at_ r != 0
  else decide (fld (at_ r) 22 4 < 2) || fld (at_ r) 32 15 = 0 || decide (24576 < hi r) ||
    ((List.range r).any fun i => en i && decide (lo i < hi r) && decide (lo r < hi i))

/-- RING. -/
def ringFault (y : Syllabus) : Option Nat :=
  perBlock y.file fun t n b =>
    if b.store = 0x0D then
      ((List.range b.count).find? fun i => decide (95 < fld (blkEnt y.file b i) 0 7)).map fun i =>
        ldBlk 0x0F t b (b.first + i) (fld (blkEnt y.file b i) 0 7)
    else if b.store != 0x0C || ((blocksOf y.file t).take n).any (fun a => a.store = 0x0C && blkSite y t a = blkSite y t b) then none
    else
      let m := turnStores y t (blkSite y t b)
      ((List.range 32).find? (ringBad m)).map fun r => ldBlk 0x0F t b r 0

/-! ## 0x10: waits, routes, imports and completion tables (R236, R239, R248, R274) -/

/-- The offending field of a wait condition: `gates` are those of the CU's gate table, empty for a wait table. -/
def waitBad (f : List Byte) (gate : Bool) (gates : List Nat) (w : Nat) : Option Nat :=
  if 47 < wcCounter w then some (wcCounter w)
  else if wcArg w != 0 && !((hdrShapeMask f).testBit (wcArg w)) then some (wcArg w)
  else if (if gate then w != 0 && decide (1 < (gates.filter fun g => g != 0 && wcDesc g = wcDesc w).length) else wcDesc w != 0) then
    some (wcDesc w)
  else none

/-- A counter of a unit takes an import (R248). -/
def ctrImported (m : Mem) (i : Nat) : Bool := (importsOf m).any fun e => e.1 = i

/-- The offending field of a route of a unit at a site. -/
def routeBad (y : Syllabus) (t k : Nat) (mu : Bool) (e : Nat) : Option Nat :=
  let dest := siteKey (rtWing e) (rtRow e) (rtCol e)
  if !(rtValid e) then none
  else if 3 < rtEvent e || (rtEvent e = 1 && mu) then some (rtEvent e)
  else if rtIncr e = 0 then some 0
  else if rtEvent e = 0 && decide (47 < rtSrc e) then some (rtSrc e)
  else if rtKind e = 1 then
    if (hdrExportMask y.file).testBit (rtExport e) then none else some (rtExport e)
  else if !((turnStrips y t).testBit (siteStrip dest)) then some (rtCol e)
  else if 47 < rtCtr e || (rtEvent e = 0 && dest = k && rtCtr e = rtSrc e) || ctrImported (turnStores y t dest) (rtCtr e) then
    some (rtCtr e)
  else none

/-- The offending value of an entry of a synchronisation table, or of a descriptor's SIG_CTR (log entry 77). -/
def syncBad (y : Syllabus) (t : Nat) (b : Blk) (e : Nat) : Option Nat :=
  let f := y.file
  let k := blkSite y t b
  match b.store with
  | 0x05 => waitBad f true ((List.range 32).map fun i => stEnt (turnStores y t k) 0x05 16 i) e
  | 0x0B => waitBad f false [] e
  | 0x06 => routeBad y t k (b.unit = 1) e
  | 0x07 =>
    if !(bitOf e 15) then none
    else if 47 < fld e 0 6 then some (fld e 0 6)
    else if (hdrImportMask f).testBit (fld e 8 4) then none
    else some (fld e 8 4)
  | 0x08 =>
    if 1 ≤ dType e && decide (dType e ≤ 3) && ctrImported (turnStores y t k) (dSig e) then some (dSig e) else none
  | 0x09 => if dType e = 4 && ctrImported (turnStores y t k) (dSig e) then some (dSig e) else none
  | 0x12 =>
    if !(bitOf e 63) then none
    else if !((hdrExportMask f).testBit (fld e 32 4)) then some (fld e 32 4)
    else if fld e 0 32 = 0 || decide (0x7FFFFFFF < fld e 0 32) then some (fld e 0 32)
    else none
  | _ => none

/-- SYNC. -/
def syncFault (y : Syllabus) : Option Nat :=
  perBlock y.file fun t _ b =>
    if !([0x05, 0x06, 0x07, 0x08, 0x09, 0x0B, 0x12].contains b.store) then none
    else (List.range b.count).findSome? fun i => (syncBad y t b (blkEnt y.file b i)).map fun v => ldBlk 0x10 t b (b.first + i) v

/-! ## 0x11: tile counters (R225) -/

/-- A tile counter descriptor is refused: the dimension at fault, or none for the descriptor as a whole. -/
def tcdFault (d : Nat) : Option Nat :=
  let cmax (i : Nat) : Nat := fld (dW d (2 + i)) 16 16
  let sel (i : Nat) : Nat := fld (dW d (2 + i)) 12 4
  let tile (i : Nat) : Nat := fld (dW d (2 + i)) 0 12
  if 2 ≤ fld d 30 2 || fld d 16 10 = 1023 || 2 ^ 32 ≤ prodOf ((List.range (tcDims d)).map cmax) then some 0
  else (List.range 4).find? fun i =>
    (decide (i < tcDims d) && cmax i = 0) || (sel i != 0 && tile i = 0) || (sel i = 0 && tile i != 0)

/-- The tile counter blocks and the groups of a turn: the blocks of stores 0x0F and 0x13. -/
def tileBlocks (f : List Byte) (t store : Nat) : List Blk := (blocksOf f t).filter fun b => b.store = store && b.count != 0

/-- TILE_COUNTER. -/
def tileFault (f : List Byte) : Option Nat :=
  perTurn f fun t =>
    let tcs := tileBlocks f t 0x0F
    let groups := (tileBlocks f t 0x13).map fun b => (b, fld (blkEnt f b 0) 16 10)
    (tcs.zipIdx.findSome? fun e =>
      if e.2 != 0 then some (ldBlk 0x11 t e.1 0 0) else (tcdFault (blkEnt f e.1 0)).map fun i => ldBlk 0x11 t e.1 i 0) |>.or
    (groups.zipIdx.findSome? fun e =>
      let g := e.1.2
      let limit := match tcs with
        | b :: _ => tcGroups (blkEnt f b 0)
        | [] => 0
      if g = 0x3FF then none
      else if limit ≤ g || ((groups.take e.2).any fun o => o.2 = g && o.1.wing != e.1.1.wing) then
        some (ldBlk 0x11 t e.1.1 g g)
      else none)

/-! ## 0x12: circuits that collide (R185) -/

/-- Two circuit entries of one switch collide. -/
def circuitsCollide (a b : Nat) : Bool :=
  let inputs (e : Nat) : List (Nat × Nat) := (ceInA e, ceSlotsA e) :: (if ceOp e = 1 then [(ceInB e, ceSlotsB e)] else [])
  ceValid a && ceValid b &&
  ((Nat.land (outSlots a) (outSlots b) != 0 && (Nat.land (ceOut a) (ceOut b) != 0 || (ceOp a = 1 && ceOp b = 1))) ||
   ((inputs a).any fun p => (inputs b).any fun q => p.1 = q.1 && Nat.land p.2 q.2 != 0))

/-- The operands of one reduce entry claim a common slot. -/
def operandsCollide (e : Nat) : Bool :=
  ceValid e && ceOp e = 1 && ceInA e = ceInB e && Nat.land (ceSlotsA e) (ceSlotsB e) != 0

/-- SLOT_COLLISION within a turn. -/
def collisionFault (y : Syllabus) : Option Nat :=
  let f := y.file
  perBlock f fun t n b =>
    let same (a : Blk) : Bool := a.store = 0x10 && blkSite y t a = blkSite y t b
    if b.store != 0x10 || ((blocksOf f t).take n).any same then none
    else
      let m := storesFor f ((blocksOf f t).filter same) true
      let e (i : Nat) : Nat := mnat m (8 * i) 8
      ((List.range 64).find? fun i => operandsCollide (e i) || (List.range i).any fun j => circuitsCollide (e j) (e i)).map
        fun i => ldBlk 0x12 t b i 0

/-! ## The load (R262, R264) -/

/-- The first check that fails over the file as written, up to the placement. -/
def loadEarly (f : List Byte) (q : LdIn) : Option Nat :=
  ((sigFault f q.req).map fun v => ldHead 0x02 0 v) |>.or
  (versionFault f) |>.or (gradeFault f q) |>.or (reservedFault f) |>.or (regionFault f q) |>.or (levelFault f q) |>.or
  (tileModeFault f q) |>.or (stripFault f q) |>.or (edgeFault f)

/-- The first check that fails over the relocated file. -/
def loadLate (y : Syllabus) : Option Nat :=
  (blockFault y.file) |>.or (programFault y) |>.or (qdFault y.file) |>.or (seedFault y.file) |>.or (ringFault y) |>.or
  (syncFault y) |>.or (tileFault y.file) |>.or (collisionFault y)

/-- The load of a file: the syllabus, or the load status of the first check that fails. -/
def loadFile (f : List Byte) (q : LdIn) : Except Nat Syllabus :=
  match loadEarly f q with
  | some st => .error st
  | none =>
    let shift := placeAll f q.strips
    match relocate (hdrRelocCount f) 0 f shift q.req.bases with
    | .error st => .error st
    | .ok g =>
      let y : Syllabus := { file := g, shift := shift, bases := q.req.bases, level := q.req.level, policy := q.req.policy,
                            signer := sigSigner f q.req }
      match loadLate y with
      | some st => .error st
      | none => .ok y

/-! ## Effective maxima (R271) -/

/-- The planned maxima that the descriptors of an MU's stores give shape entries. -/
def shapeCaps (m : Mem) : List (Nat × Nat) :=
  let descs := (List.range 256).map (fun j => stEnt m 0x08 128 j) ++ (List.range 128).map (fun j => stEnt m 0x09 128 j)
  let tc := stEnt m 0x0F 32 0
  (descs.flatMap fun d =>
    match dType d with
    | 2 => [(fld (dW d 3) 12 4, fld (dW d 3) 16 16), (fld (dW d 4) 4 4, fld (dW d 4) 8 24)]
    | 1 | 3 | 4 => (List.range (dNdim d)).map fun j => (dimSel d j, fld (dW d (dimWord d j)) 16 16)
    | _ => []) ++
  (if tc = 0 then [] else (List.range (tcDims tc)).map fun i =>
    let w := dW tc (2 + i)
    (fld w 12 4, fld w 16 16 * fld w 0 12))

/-- The effective maximum of every launch shape entry; entry 0 and undeclared entries have 0. -/
def effMaxima (y : Syllabus) : List Nat :=
  let f := y.file
  let caps := (ldTurns f).flatMap fun t => ((turnSites y t).filter fun k => !(siteIsCu k)).flatMap fun k => shapeCaps (turnStores y t k)
  (List.range 16).map fun i =>
    if i = 0 || !((hdrShapeMask f).testBit i) then 0
    else (caps.filter fun e => e.1 = i).foldl (fun a e => min a e.2) (hdrShapeMax f i)

end Sys2Proof.Machine
end

