-- ==== Sys2Proof/Machine/Contexts.lean ====
section
/-! DEFINITION. Contexts: OPEN (R281, R376), extents (R282), LOAD and UNLOAD (R262, R264, R280), LAUNCH (R272, R377), RECESS and
RESUME (R294, R295), RELEASE (R297) and the close of a context (R298). -/

namespace Sys2Proof.Machine

/-! ## OPEN (R281, R376, R389, R432) -/

/-- The highest version that lies in the host's window and in 1.0 to 1.1 (R389). -/
def hostVersion (w : Nat) : Option Nat :=
  let lo := max (fld w 16 16) 0x100
  let hi := min (fld w 0 16) 0x101
  if lo ≤ hi then some hi else none

/-- The class rules let a new context hold the strips beside a context (R281). -/
def classAllows (s : State) (lc lend : Bool) (mask : Nat) (x : Ctx) : Bool :=
  x.st == .free || Nat.land (ctxMask s x) mask = 0 ||
  (if lc then !x.lc && lend else !x.lc || x.lend)

/-- The class rules allow a mask. -/
def maskAllowed (s : State) (lc lend : Bool) (mask : Nat) : Bool := s.ctxs.all fun e => classAllows s lc lend mask e.2

/-- The lowest-numbered strips that the class rules allow, when there are enough of them. -/
def chooseStrips (s : State) (lc lend : Bool) (n : Nat) : Option Nat :=
  let ts := ((List.range (numStrips s)).filter fun t => maskAllowed s lc lend (2 ^ t)).take n
  if ts.length = n then some (sumOf (ts.map fun t => 2 ^ t)) else none

/-- A mask names no shadow strip, and no primary strips beside those of another wing (R432). -/
def twinAllowed (s : State) (mask : Nat) : Bool :=
  let ws := (List.range 4).filter fun w => fld mask (16 * w) 16 != 0
  ws.all fun w => (wingOf s w).st != .twinShadow && ((wingOf s w).st != .twinPrimary || ws.length = 1)

/-- The strips lie wholly in the fenced part of a split (R429). -/
def cutOff (s : State) (mask : Nat) : Bool :=
  mask != 0 && ((List.range 4).all fun w => fld mask (16 * w) 16 = 0 || s.health.split.getLsbD w)

/-- The bits of the OPEN payload (R376). -/
def openBits : List Nat := [0x03FF001F, all32, 0xFFFF007F, all32, all32, all32]

/-- An OPEN whose operands are in range opens the context, or answers the first failing status. -/
def openCtx (s : State) (c : HCmd) (mask : Option Nat) (ver : Nat) : State :=
  let w4 := cmdW c 4
  let lc := bitOf w4 0
  let lend := lc && bitOf w4 1
  let tt := if lc then fld w4 2 3 else 0
  let full := lc && decide (8 ≤ (s.ctxs.filter fun e => e.2.st != .free && e.2.lc).length)
  let n := if c.ctx = 0xFF then findBelow 64 fun i => (ctxOf s i).st == .free else some c.ctx
  match n, mask with
  | some n, some m =>
    if !(maskAllowed s lc lend m) || !(twinAllowed s m) || full then refuse s c 0x06
    else if cutOff s m then refuse s c 0x05
    else if lc && dget s (ttObj tt 7) != n then refuse s c 0x0C
    else
      let old := ctxOf s n
      let x : Ctx := { Ctx.free with
        st := .opened, host := c.host, lc := lc, lend := lend, weight := fld w4 16 10, tt := tt, strips := m,
        pbound := if cmdW c 7 = 0 then dget s 0x234006 else cmdW c 7, version := ver, evq := fld (cmdW c 6) 16 16,
        vtime := old.vtime, loadStatus := old.loadStatus }
      complete (setCtx s n x) c.ref n 0 (n + ver * 2 ^ 16)
  | _, _ => refuse s c 0x06

/-- OPEN. -/
def execOpen (conn : Nat) (msg : Send) (s : State) : Host.Outcome State Fault Refusal :=
  hostRow 0x10 1 openBits conn msg s fun c s =>
    let w4 := cmdW c 4
    let lc := bitOf w4 0
    let weight := fld w4 16 10
    let pb := cmdW c 7
    let count := fld (cmdW c 6) 0 7
    let q := fld (cmdW c 6) 16 16
    let m := cmdW2 c 8
    let badWeight := if lc then weight != 0 else weight = 0 || decide (1000 < weight)
    let badStrips := if count != 0 then decide (numStrips s < count) else m = 0 || decide (2 ^ numStrips s ≤ m)
    if badWeight || (pb != 0 && (decide (pb < 20) || decide (100000 < pb))) || badStrips ||
        decide (0xFF00 ≤ q) || !(ownQueue s q c.host) || (decide (64 ≤ c.ctx) && c.ctx != 0xFF) then refuse s c 0x07
    else match hostVersion (cmdW c 5) with
    | none => refuse s c 0x08
    | some ver =>
      if gateRead s 1 != 1 then refuse s c 0x0C
      else if c.ctx != 0xFF && (ctxOf s c.ctx).st != .free then refuse s c 0x05
      else openCtx s c (if count != 0 then chooseStrips s lc (lc && bitOf w4 1) count else some m) ver

/-! ## Extents (R282, R432) -/

/-- The bytes that belong to some context's extents, both copies, or are being zeroed for one. -/
def takenRanges (s : State) : List (Nat × Nat) :=
  s.ctxs.flatMap fun e => e.2.extents ++ e.2.shadow ++ e.2.granting.flatMap fun g => [(g.base, g.len), (g.shadow, g.len)]

/-- The bytes are free and lie below the grade's highest address. -/
def rangeFree (s : State) (taken : List (Nat × Nat)) (base len : Nat) : Bool :=
  decide (base + len ≤ hbmTop s) && (taken.all fun r => !(rangesMeet base len r.1 r.2))

/-- The lowest address, aligned to 64 KiB, at which `len` bytes are free. -/
def placeExtent (s : State) (taken : List (Nat × Nat)) (len : Nat) : Option Nat :=
  let starts := 0 :: taken.map fun r => ceilDiv (r.1 + r.2) 65536 * 65536
  (starts.filter fun a => rangeFree s taken a len).foldl (fun b a => some (min a (b.getD a))) none

/-- EXTENT_ADD: the firmware starts to zero the extent, and its twin's copy. -/
def execExtentAdd (conn : Nat) (msg : Send) (s : State) : Host.Outcome State Fault Refusal :=
  hostRow 0x11 1 [all32, all32, all32, all32] conn msg s fun c s =>
    let x := ctxOf s c.ctx
    let base := cmdW2 c 4
    let len := cmdW2 c 6
    if 64 ≤ c.ctx then refuse s c 0x07
    else if x.st != .free && x.host != c.host then refuse s c 0x04
    else if x.st == .free || x.st == .closing then refuse s c 0x05
    else if base % 4096 != 0 || len % 4096 != 0 || len = 0 || decide (hbmTop s < base + len) then refuse s c 0x07
    else
      let taken := takenRanges s
      let place := if base != 0 then (if rangeFree s taken base len then some base else none) else placeExtent s taken len
      match place with
      | none => refuse s c 0x06
      | some b =>
        let sh := if twinned s x then placeExtent s ((b, len) :: taken) len else some b
        match sh with
        | none => refuse s c 0x06
        | some h =>
          if 64 ≤ x.extents.length + x.granting.length then refuse s c 0x06
          else setCtx s c.ctx { x with granting := x.granting ++ [{ base := b, len := len, shadow := h, cmd := c.ref }] }

/-- Zeroes a range of device memory: every word of it is good again. -/
def zeroRange (s : State) (a n : Nat) : State :=
  { s with hbm := mclear s.hbm a n,
           hbmBad := s.hbmBad.filter fun e => !(decide (a ≤ 32 * e.1) && decide (32 * e.1 + 32 ≤ a + n)) }

/-- EXTENT_GRANT_COMPLETE: the oldest extent under way is zero and granted. -/
def execExtentGrantComplete (ctx : Nat) (s : State) : Host.Outcome State Fault Refusal :=
  actIf (decide (ctx < 64)) s fun s =>
    let x := ctxOf s ctx
    match x.granting with
    | [] => s
    | g :: r =>
      let s := zeroRange (zeroRange s g.base g.len) g.shadow g.len
      complete (setCtx s ctx { x with granting := r, extents := x.extents ++ [(g.base, g.len)],
                                      shadow := x.shadow ++ [(g.shadow, g.len)] }) g.cmd ctx 0 g.base

/-- An extent that a region, a memory window or the buffer of an HBM stream window uses. -/
def extentUsed (s : State) (c base len : Nat) : Bool :=
  let x := ctxOf s c
  let inside (a : Nat) : Bool := decide (base ≤ a) && decide (a < base + len)
  (x.syl.any fun y => (List.range 16).any fun r => (hdrRegionMask y.file).testBit r && inside (y.bases.getD r 0)) ||
  (s.mwins.any fun e => e.2.st != 0 && e.2.ctx = c && inside e.2.base) ||
  ((windowsOf s c).any fun w => wdKind (chanOf s w).wd = 2 && inside (wdAddr (chanOf s w).wd))

/-- EXTENT_FREE. -/
def execExtentFree (conn : Nat) (msg : Send) (s : State) : Host.Outcome State Fault Refusal :=
  hostRow 0x12 1 [all32, all32] conn msg s fun c s =>
    let x := ctxOf s c.ctx
    let base := cmdW2 c 4
    if 64 ≤ c.ctx then refuse s c 0x07
    else if x.st != .free && x.host != c.host then refuse s c 0x04
    else if x.st == .free || x.st == .closing then refuse s c 0x05
    else match x.extents.findIdx? fun e => e.1 = base with
    | none => refuse s c 0x07
    | some i =>
      if extentUsed s c.ctx base (x.extents.getD i (0, 0)).2 then refuse s c 0x05
      else done (setCtx s c.ctx { x with extents := x.extents.eraseIdx i, shadow := x.shadow.eraseIdx i }) c 0

/-! ## LOAD and UNLOAD (R262, R264, R280) -/

/-- A LOAD that is refused: status LOAD, with its load status. -/
def loadRefused (s : State) (c : Nat) (cmd : CmdRef) (st : Nat) : State :=
  complete (modCtx s c fun x => { x with loadStatus := st }) cmd c 0x09 st

/-- The load status CONTEXT_STATE. -/
def ldContextState : Nat := ldHead 0x01 0 0

/-- The oldest RDMA READ of a connection that waits leaves while fewer than 16 are outstanding (R368). -/
def pumpReads (s : State) (conn : Nat) : State :=
  if 16 ≤ (s.rdmas.filter fun r => r.conn = conn && r.isLoad && r.sent).length then s
  else match takeFirst (fun r => r.conn = conn && r.isLoad && !r.sent) s.rdmas with
  | none => s
  | some (r, _) =>
    match (ctxOf s r.ctx).loading with
    | none => s
    | some l =>
      emit { s with rdmas := s.rdmas.map fun q => if q.isLoad && q.ctx = r.ctx then { q with sent := true } else q }
        (.rdmaRead conn l.addr l.rkey l.length)

/-- LOAD: the firmware begins to fetch the file. -/
def execLoad (conn : Nat) (msg : Send) (s : State) : Host.Outcome State Fault Refusal :=
  ctxRow 0x13 3 ([all32, all32, all32, all32, 0x3, 0xFFFF] ++ List.replicate 32 all32) conn msg s fun c s =>
    let x := ctxOf s c.ctx
    if x.st != .opened || x.loading.isSome then loadRefused s c.ctx c.ref ldContextState
    else if cutOff s x.strips then refuse s c 0x05
    else if gateRead s 2 != 1 then refuse s c 0x0C
    else
      let l : Loading := { cmd := c.ref, addr := cmdW2 c 4, rkey := cmdW c 6, length := cmdW c 7, level := fld (cmdW c 8) 0 2, echo := fld (cmdW c 9) 0 16,
                           bases := (List.range 16).map fun r => cmdW2 c (10 + 2 * r), policy := dget s 0x292001,
                           keys := (List.range 8).map fun i => dget s (0x292002 + i) }
      let s := setCtx s c.ctx { x with loading := some l }
      let s := { s with rdmas := s.rdmas ++ [{ conn := c.conn, cmd := c.ref, ctx := c.ctx, status := 0, detail := 0,
                                               isLoad := true, sent := false }] }
      pumpReads s c.conn

/-- The load in progress of a context is over: its RDMA READ is no longer awaited, and one that waited for its place leaves. -/
def endLoading (s : State) (c : Nat) : State :=
  let mine := s.rdmas.filter fun r => r.isLoad && r.ctx = c
  let s := modCtx { s with rdmas := s.rdmas.filter fun r => !(r.isLoad && r.ctx = c) } c fun x => { x with loading := none }
  mine.foldl (fun s r => pumpReads s r.conn) s

/-- The RDMA READ of a context's load has left. -/
def loadSent (s : State) (c : Nat) : Bool := s.rdmas.any fun r => r.isLoad && r.ctx = c && r.sent

/-- What a load of the context is judged by. -/
def ldInOf (s : State) (x : Ctx) (l : Loading) : LdIn :=
  { product := s.fuse.product, strips := x.strips, extents := x.extents, lc := x.lc, twin := twinned s x,
    debug := dget s 0x233001 = 1, req := l }

/-- LOAD_FETCH_COMPLETE: the file has arrived in packets whose ICRC is right, and the load is accepted or refused. -/
def execLoadFetchComplete (ctx : Nat) (file : PktData) (s : State) : Host.Outcome State Fault Refusal :=
  actIf (decide (ctx < 64)) s fun s =>
    let x := ctxOf s ctx
    match x.loading with
    | none => s
    | some l =>
      if file.bytes.length != l.length || !(loadSent s ctx) then s
      else if !file.icrc then icrcDrop s (l.cmd.conn / 64)
      else
        let s := endLoading s ctx
        match loadFile file.bytes (ldInOf s x l) with
        | .error st => loadRefused s ctx l.cmd st
        | .ok y =>
          let s := modCtx s ctx fun x =>
            { x with st := .loaded, syl := some y, level := y.level, loadStatus := ldOk, launchNo := 0, last := none,
                     bind := ([], []), cards := [], tensors := [], resets := [] }
          complete s l.cmd ctx 0 ldOk

/-- Discards the queued launches of a context, each with a RUN_DONE. -/
def dropLaunches (s : State) (c : Nat) : State :=
  let ls := (ctxOf s c).launches
  ls.foldl (fun s l => discardLaunch s c l 0) (modCtx s c fun x => { x with launches := [], pend := false })

/-- The release kept for a context is dropped with the work it would start. -/
def dropDeferred (s : State) (c : Nat) : State :=
  let x := ctxOf s c
  if x.lc then modTt s x.tt fun t => { t with deferred := none } else s

/-- The syllabus of a context and all that belongs to it are discarded; the context is OPEN (R280, R297). -/
def unloadCtx (s : State) (c : Nat) : State :=
  let s := (ringWindows s c).foldl (fun s w => startClose s w none none) s
  modCtx s c fun x => { x with st := .opened, syl := none, level := 0, cards := [], tensors := [], resets := [], last := none,
                               bind := ([], []), launchNo := 0, pend := false }

/-- UNLOAD. -/
def execUnload (conn : Nat) (msg : Send) (s : State) : Host.Outcome State Fault Refusal :=
  ctxRow 0x14 1 [] conn msg s fun c s =>
    if (ctxOf s c.ctx).st != .loaded then refuse s c 0x05
    else
      let s := dropDeferred (dropLaunches s c.ctx) c.ctx
      let s := if (ctxOf s c.ctx).run.isSome then discardRun s c.ctx else s
      done (unloadCtx s c.ctx) c 0

/-! ## LAUNCH (R271, R272, R284, R377) -/

/-- A binding word: the object of a VALID one. -/
def bindWord (h : Nat) : Option Nat := if bitOf h 15 then some (fld h 0 12) else none
/-- The sixteen bindings in eight words. -/
def bindWords (c : HCmd) (w : Nat) : List (Option Nat) :=
  (List.range 16).map fun i => bindWord (fld (cmdW c (w + i / 2)) (16 * (i % 2)) 16)

/-- The context owns the object. -/
def ownsObj (s : State) (c o : Nat) : Bool := let x := objOf s o
                                              x.valid && !x.orphan && x.owner = some c

/-- The load status of a launch that is refused, or of one that is accepted (R264, R272). -/
def launchStatus (s : State) (c : Nat) (y : Syllabus) (shape : List Nat) (ex im : List (Option Nat)) : Nat :=
  let maxima := effMaxima y
  let above := (List.range 16).find? fun i => decide (maxima.getD i 0 < shape.getD i 0)
  let badEx := (List.range 16).find? fun i => match ex.getD i none with
    | some o => !(ownsObj s c o)
    | none => (hdrExportMask y.file).testBit i
  let badIm := (List.range 16).find? fun i => match im.getD i none with
    | some o => !((objOf s o).valid)
    | none => (hdrImportMask y.file).testBit i
  match above, badEx, badIm with
  | some i, _, _ => ldStatus 0x20 0xFF 0x1002 0 0 0 0 i (shape.getD i 0)
  | none, some i, _ => ldHead 0x21 i ((ex.getD i none).getD 0xFFFFFFFF)
  | none, none, some i => ldHead 0x21 (16 + i) ((im.getD i none).getD 0xFFFFFFFF)
  | none, none, none => ldOk

/-- The bits of the LAUNCH payload: with KEEP_BIND the binding words are 0 (R377). -/
def launchBits (keep : Bool) : List Nat :=
  [1, 0, 0, 0] ++ List.replicate 16 all32 ++ List.replicate 16 (if keep then 0 else 0x8FFF8FFF)

/-- LAUNCH. -/
def execLaunch (conn : Nat) (msg : Send) (s : State) : Host.Outcome State Fault Refusal :=
  ctxRow 0x15 4 (launchBits (bitOf (msgW msg.words 4) 0)) conn msg s fun c s =>
    let x := ctxOf s c.ctx
    match x.syl with
    | none => refuse s c 0x05
    | some y =>
      if (x.st != .loaded && x.st != .running && x.st != .recess) || wingsOut s x then refuse s c 0x05
      else if gateRead s 3 != 1 then refuse s c 0x0C
      else if 16 ≤ x.launches.length then refuse s c 0x0B
      else
        let shape := (List.range 16).map fun i => cmdW c (8 + i)
        let b := if bitOf (cmdW c 4) 0 then x.bind else (bindWords c 24, bindWords c 32)
        let st := launchStatus s c.ctx y shape b.1 b.2
        if st != ldOk then loadRefused s c.ctx c.ref st
        else
          let n := x.launchNo + 1
          let l : Launch := { num := n, shape := shape, exports := b.1, imports := b.2, cmd := c.ref, auto := false }
          let s := setCtx s c.ctx { x with launches := x.launches ++ [l], launchNo := n, bind := b, loadStatus := ldOk }
          let s := complete s c.ref c.ctx 0 ldOk
          if x.lc then s else setPend s c.ctx

/-! ## RECESS, RESUME and RELEASE (R286, R294, R295, R297) -/

/-- RECESS. -/
def execRecess (conn : Nat) (msg : Send) (s : State) : Host.Outcome State Fault Refusal :=
  ctxRow 0x16 1 [] conn msg s fun c s =>
    match (ctxOf s c.ctx).st with
    | .running => requestRecess s c.ctx true (some c.ref)
    | .loaded => done (modCtx s c.ctx fun x => { x with pend := false }) c 0
    | _ => refuse s c 0x05

/-- RESUME: an LC context begins to resume at once, a BE context once the scheduler finds its strips free. -/
def execResume (conn : Nat) (msg : Send) (s : State) : Host.Outcome State Fault Refusal :=
  ctxRow 0x17 1 [] conn msg s fun c s =>
    let x := ctxOf s c.ctx
    if x.st != .recess then refuse s c 0x05
    else
      let s := setCtx s c.ctx { x with hostHold := false, resume := x.resume ++ [c.ref] }
      if x.lc && mayResume s c.ctx && stripsFree s c.ctx then beginRestore s c.ctx else s

/-- The held state of a detained context is discarded. -/
def dropHeld (s : State) (c : Nat) : State :=
  let s := if (ctxOf s c).teardown.isSome then finishTeardown s c else s
  modCtx s c fun x =>
    { x with cus := [], mus := [], sws := [], heldState := false, heldRun := none, run := none, saved := false, heldObjs := [] }

/-- A context no longer owns some of its objects: those that nothing imports or awaits are freed (R250). -/
def disown (s : State) (c : Nat) (p : Obj → Bool) : State :=
  ((s.objs.filter fun e => e.2.owner = some c && p e.2).map (·.1)).foldl (fun s o =>
    sweepObj (setObj s o { objOf s o with owner := none }) o) s

/-- RELEASE. -/
def execRelease (conn : Nat) (msg : Send) (s : State) : Host.Outcome State Fault Refusal :=
  ctxRow 0x18 1 [1] conn msg s fun c s =>
    if (ctxOf s c.ctx).st != .detention then refuse s c 0x05
    else
      let s := disown (dropDeferred (dropHeld s c.ctx) c.ctx) c.ctx (·.orphan)
      let s := modCtx s c.ctx fun x => { x with st := if x.syl.isSome then .loaded else .opened, tensors := freshSteps x.tensors, before := none }
      done (if bitOf (cmdW c 4) 0 then s else unloadCtx s c.ctx) c 0

/-! ## Close (R298) -/

/-- Step 1 of a close: queued launches are counted, and end with a RUN_DONE while their queue exists. -/
def closeLaunches (s : State) (c : Nat) : State :=
  let ls := (ctxOf s c).launches
  let s := bump (modCtx s c fun x => { x with launches := [], pend := false }) 0x234008 ls.length
  (ls.filter fun l => ownQueue s l.cmd.queue l.cmd.host).foldl (fun s l => discardLaunch s c l 0) s

/-- A close begins: the context is CLOSING; a running run receives a Recess request, and any other run state is discarded. -/
def beginClose (s : State) (c : Nat) (cmd : Option CmdRef) : State :=
  let x := ctxOf s c
  if x.st == .free || x.st == .closing then s
  else
    let s := match x.loading with
      | some l => loadRefused (endLoading s c) c l.cmd ldContextState
      | none => s
    let s := dropDeferred (closeLaunches s c) c
    let s := requestRecess s c false none
    let s := if x.st == .detention then dropHeld s c else s
    let s := modCtx s c fun x => { x with st := .closing, closing := some { cmd := cmd, since := s.fclk, forced := false } }
    if x.st == .running then s
    else if x.run.any (·.staged) then discardRun s c
    else leaveRun (releaseConfig (modCtx s c fun x => { x with cus := [], mus := [], sws := [] }) c false) c

/-- CLOSE. -/
def execClose (conn : Nat) (msg : Send) (s : State) : Host.Outcome State Fault Refusal :=
  ctxRow 0x19 1 [] conn msg s fun c s =>
    if (ctxOf s c.ctx).st == .closing then refuse s c 0x05 else beginClose s c.ctx (some c.ref)

/-- CLOSE_TIMEOUT: step 2 has not ended in time, and the units are stopped. -/
def execCloseTimeout (ctx : Nat) (s : State) : Host.Outcome State Fault Refusal :=
  actIf (decide (ctx < 64)) s fun s =>
    let x := ctxOf s ctx
    if x.st != .closing || x.run.isNone then s
    else modCtx (abortRun s ctx true) ctx fun x => { x with closing := x.closing.map fun q => { q with forced := true } }

/-- Nothing of a closing context is left but its grants: no run, no window, no extent being zeroed. -/
def closed (s : State) (c : Nat) : Bool :=
  let x := ctxOf s c
  x.run.isNone && x.granting.isEmpty && (windowsOf s c).isEmpty && (s.mwins.all fun e => e.2.st = 0 || e.2.ctx != c)

/-- Step 4: the objects of a context are orphaned, and freed once nothing awaits them (R250). -/
def orphanOwned (s : State) (c : Nat) : State :=
  disown ((ownedObjs s c).foldl (fun s o => orphan s c o true) s) c fun _ => true

/-- CLOSE_COMPLETE: the context is FREE, and the close completes. DESIGN CHOICE (log entry 82): its syllabus, and what is read of it, stands
until then (R109 gives no moment of the close). -/
def execCloseComplete (ctx : Nat) (s : State) : Host.Outcome State Fault Refusal :=
  actIf (decide (ctx < 64)) s fun s =>
    let x := ctxOf s ctx
    match x.closing with
    | none => s
    | some q =>
      if x.st != .closing || !(closed s ctx) then s
      else
        let s := orphanOwned s ctx
        let s := setCtx s ctx { Ctx.free with vtime := x.vtime, loadStatus := x.loadStatus }
        match q.cmd with
        | some d => completeF s d ctx 0 0 (2 * b2n q.forced) (b2n q.forced)
        | none => s

end Sys2Proof.Machine
end

