-- ==== Sys2Proof/Machine/HostNet.lean ====
section
/-! DEFINITION. Hosts and their connections (R368 to R372), remote access errors (R378) and RDMA into memory windows (R369, R385,
R429, R432). -/

namespace Sys2Proof.Machine

/-! ## Connections -/

/-- A connection's send rate at the rate of its line; rates are kept in units of line rate / 2^64 (log entry 32). -/
def lineRate : Nat := 2 ^ 64

/-- The enabled host with a GID (R370). -/
def hostByGid (s : State) (gid : Nat) : Option Nat :=
  findBelow 16 fun h => dget s (hostObj h 2) = 1 && gid != 0 && dget s (hostObj h 1) = gid

/-- Connections of a host. -/
def hostConns (s : State) (h : Nat) : Nat := (s.conns.filter fun e => e.2.live && e.2.host = h).length

/-- Events of the host's queues leave once a queue's target is a live connection again (R372, R382). -/
def pumpHost (s : State) (h : Nat) : State :=
  (s.queues.filter fun e => e.2.live && e.2.host = h).foldl (fun s e => qPump ((queueOf s e.1).held.length + 2) e.1 s) s

/-- A command whose RDMA operation cannot end: status RANGE, and a LOAD leaves its context OPEN without a load status (R378). -/
def rdmaFailed (s : State) (r : Rdma) : State :=
  complete (if r.isLoad then modCtx s r.ctx fun x => { x with loading := none } else s) r.cmd r.ctx 0x07 0

/-- A connection is lost: its service queue ends with it, and so do the commands that wait on an RDMA operation over it; the
grace time of a host starts with the loss of its last one (R371, R372, log entry 33). -/
def loseConn (s : State) (conn : Nat) : State :=
  let n := connOf s conn
  if !n.live then s
  else
    let s := setConn s conn Conn.none
    let s := setQueue s (serviceQueue conn) Queue.none
    let mine := s.rdmas.filter fun r => r.conn = conn
    let s := mine.foldl rdmaFailed { s with rdmas := s.rdmas.filter fun r => r.conn != conn }
    if hostConns s n.host = 0 then setHost s n.host { hostOf s n.host with state := 0, lostAt := s.fclk + 1 } else s

/-- Every connection of a host port is lost (R396). -/
def losePort (s : State) (port : Nat) : State := (List.range 64).foldl (fun s i => loseConn s (64 * port + i)) s

/-- The host port carries frames: it is enabled and its link is up. -/
def hportUp (s : State) (port : Nat) : Bool := dget s (hportObj port 1) = 1 && s.hlink.getLsbD port

/-- The private data of a REQ is valid (R371). -/
def privOk (p : List Byte) : Bool :=
  decide (16 ≤ p.length) && leAt p 0 8 % 32 = 0 && fld (leAt p 12 4) 5 27 = 0 && decide (4 ≤ leAt p 12 4) && decide (leAt p 12 4 ≤ 15)

/-- CM_REQ: a connection request on a host port. Before step 8 every request is rejected for want of resources, also while the ROM fetches
its image over the ports (R439). The free connection is the lowest (DESIGN CHOICE, log entry 85). -/
def execCmReq (port gid : Nat) (priv : PktData) (s : State) : Host.Outcome State Fault Refusal :=
  actIf (decide (port < 4)) s fun s =>
    if s.boot.step < 2 || s.boot.stopped then s
    else if !s.boot.online then (if priv.icrc then emit s (.rej port 1) else s)
    else if !(hportUp s port) then s
    else if !priv.icrc then icrcDrop s port
    else match hostByGid s gid with
    | none => emit (bump s 0x270007 1) (.rej port 0)
    | some h =>
      match findBelow 64 fun i => !(connOf s (64 * port + i)).live with
      | none => emit s (.rej port 1)
      | some i =>
        if !(privOk priv.bytes) then emit s (.rej port 0)
        else
          let c := 64 * port + i
          let s := setConn s c { Conn.none with live := true, host := h, lastPacket := s.fclk, rate := lineRate }
          let s := setQueue s (serviceQueue c) { Queue.none with live := true, host := h, conn := c, addr := leAt priv.bytes 0 8,
                                                                 rkey := BitVec.ofNat 32 (leAt priv.bytes 8 4), log2 := leAt priv.bytes 12 4 }
          let s := setHost s h { hostOf s h with state := 1, lostAt := 0 }
          pumpHost (emit s (.rep c)) h

/-- CM_DREQ: the host ends the connection. -/
def execCmDreq (pkt : ConnPkt) (s : State) : Host.Outcome State Fault Refusal :=
  act s fun s => packetOn s pkt fun s => loseConn (emit s (.drep pkt.conn)) pkt.conn

/-- ACK_TIMEOUT: no acknowledgement has come for one local ACK timeout, or the host has no receive request for an event and says so; after
seven retries of the one or the other the connection is lost (R368, R372, R380). -/
def execAckTimeout (lost : Unacked) (s : State) : Host.Outcome State Fault Refusal :=
  actIf (decide (lost.conn < 256)) s fun s =>
    let n := connOf s lost.conn
    if !n.live then s
    else if 7 ≤ (if lost.rnr then n.rnrs else n.retries) then loseConn s lost.conn
    else
      let n := if lost.rnr then { n with rnrs := n.rnrs + 1, lastPacket := s.fclk } else { n with retries := n.retries + 1 }
      emit (setConn s lost.conn n) (.retransmit lost.conn)

/-- LIVENESS_TIMEOUT: no packet has come on the connection for 0x2700:02. -/
def execLivenessTimeout (conn : Nat) (s : State) : Host.Outcome State Fault Refusal :=
  actIf (decide (conn < 256)) s fun s => loseConn s conn

/-- The effects of the loss of a host (R372). -/
def loseHost (s : State) (h : Nat) : State :=
  let cs := ctxsWith s fun x => x.st != .free && x.host = h
  let s := cs.foldl (fun s c => beginClose s c none) s
  let s := if s.lease.holder = some h then endLease s 3 else s
  let bare (x : Obj) : Obj := { x with waits := x.waits.filter fun w => w.host != h, sig := x.sig &&& ~~~(BitVec.ofNat 16 (2 ^ h)) }
  let s := { s with queues := s.queues.filter fun (e : Nat × Queue) => !(e.2.live && e.2.host = h), objs := s.objs.map fun (e : Nat × Obj) => (e.1, bare e.2) }
  let s := (s.objs.map Prod.fst).foldl sweepObj s
  setHost s h { hostOf s h with state := 2, lostAt := 0 }

/-- HOST_GRACE_EXPIRY: the host has been without a connection for the grace time. -/
def execHostGraceExpiry (host : Nat) (s : State) : Host.Outcome State Fault Refusal :=
  actIf (decide (host < 16)) s fun s =>
    if hostConns s host != 0 || (hostOf s host).lostAt = 0 then s else loseHost s host

/-- REMOTE_ACCESS_ERROR: the host refuses the oldest RDMA operation of the device on the connection, which is lost with it. -/
def execRemoteAccessError (pkt : ConnPkt) (s : State) : Host.Outcome State Fault Refusal :=
  act s fun s => packetOn s pkt fun s => loseConn s pkt.conn

/-! ## Requests of hosts (R369, R385) -/

/-- UNSUPPORTED_REQUEST: a NAK for an invalid request. -/
def execUnsupportedRequest (pkt : ConnPkt) (s : State) : Host.Outcome State Fault Refusal :=
  act s fun s => packetOn s pkt fun s => emit s (.nak pkt.conn 0x61)

/-- The bytes reach a stack that the split has parted from the port's wing (R429). -/
def hostApart (s : State) (conn a n : Nat) : Bool :=
  s.health.split != 0 && (List.range (n / 4096 + 2)).any fun i =>
    decide (4096 * i < n + 4096) && n != 0 && apart s (conn / 64) (stackOf s (min (a + 4096 * i) (a + n - 1)) / 4)

/-- The window that accepts a request, with the context and the device address of the copy that hosts see (R385, R435). -/
def windowFor (s : State) (conn rkey off len : Nat) (write : Bool) : Option (MWin × Nat) :=
  match mwNamed s rkey with
  | none => none
  | some i =>
    let w := mwinOf s i
    let a := hostAddr (ctxOf s w.ctx) (w.base + off)
    if w.hosts.getLsbD (connOf s conn).host && (if write then w.wr else w.rd) && decide (off + len ≤ w.len) &&
        !(hostApart s conn a len) then some (w, a) else none

/-- A write by a host or its mirror reads the words that it covers in part, and the controllers meet in them what `r` says; an uncorrectable
word among them stays as it is (R206, R207). -/
def hwritePart (s : State) (a : Nat) (bs : List Byte) (r : HbmReads) : State × Bool :=
  let s := readPart s a bs.length r
  let part := (badIn s a bs.length).filter fun w => !(decide (a ≤ 32 * w) && decide (32 * w + 32 ≤ a + bs.length))
  let keep := part.map fun w => (32 * w, hread s (32 * w) 32)
  let s := hwrite s a bs
  ({ s with hbm := keep.foldl (fun m e => mwrite m e.1 e.2) s.hbm }, !part.isEmpty)

/-- RDMA_WRITE_REQUEST: a host writes into a memory window, into both copies of a twinned context. -/
def execRdmaWriteRequest (conn rkey off : Nat) (data : WriteData) (s : State) : Host.Outcome State Fault Refusal :=
  act s fun s => packetOn s { conn := conn, icrc := data.icrc } fun s =>
    match windowFor s conn rkey off data.bytes.length true with
    | none => emit s (.nak conn 0x62)
    | some (w, a) =>
      let x := ctxOf s w.ctx
      let one := hwritePart s a data.bytes data.reads
      let two := if twinned s x then hwritePart one.1 (shadowAddr x (w.base + off)) data.bytes data.reads else (one.1, false)
      let s := emit two.1 (.writeAck conn)
      if one.2 || two.2 then detain s w.ctx 0x2003 none none else s

/-- RDMA_READ_REQUEST: a host reads from a memory window and says what the controllers correct. An uncorrectable word is not
delivered, nor anything with it (R207, log entry 34). Each is answered before the next comes, so that the sixteen of a connection are never
exceeded (R368). -/
def execRdmaReadRequest (conn rkey off : Nat) (ask : ReadAsk) (s : State) : Host.Outcome State Fault Refusal :=
  act s fun s => packetOn s { conn := conn, icrc := ask.icrc } fun s =>
    match windowFor s conn rkey off ask.len false with
    | none => emit s (.nak conn 0x62)
    | some (w, a) =>
      let s := readThrough s a ask.len ask.reads
      match badIn s a ask.len with
      | [] => emit s (.readResponse conn (hread s a ask.len))
      | b :: _ => detain (countUncorrectable s (32 * b)) w.ctx 0x2003 none none

/-! ## Congestion (R368) -/

/-- ECN_MARKED_PACKET: the device answers with a CNP. -/
def execEcnMarkedPacket (pkt : ConnPkt) (s : State) : Host.Outcome State Fault Refusal :=
  act s fun s => packetOn s pkt fun s => emit s (.cnp pkt.conn)

/-- CNP_RECEIVED: the connection's send rate is halved. -/
def execCnpReceived (pkt : ConnPkt) (s : State) : Host.Outcome State Fault Refusal :=
  act s fun s => packetOn s pkt fun s =>
    let n := connOf s pkt.conn
    bump (setConn s pkt.conn { n with rate := n.rate / 2, lastCnp := s.fclk }) (hportObj (pkt.conn / 64) 0x0B) 1

/-- SEND_RATE_RAISE: 55 µs without a CNP raise the send rate by 1/16 of line rate. -/
def execSendRateRaise (conn : Nat) (s : State) : Host.Outcome State Fault Refusal :=
  actIf (decide (conn < 256)) s fun s =>
    let n := connOf s conn
    if !n.live then s else setConn s conn { n with rate := min lineRate (n.rate + lineRate / 16) }

end Sys2Proof.Machine
end

