-- ==== Sys2Proof/Machine/Wings.lean ====
section
/-! DEFINITION. Wings that fail or are fenced: spare columns (R421, R422), bridges (R426, R427), a split (R428 to R430), the ends
of twin runs (R434, R435) and the states of wings (R436). -/

namespace Sys2Proof.Machine

/-! ## Loss of a wing -/

/-- The shadow runs that a wing held are over: their contexts go on alone (R434). -/
def dropShadow (s : State) (w : Nat) (cs : List Nat) : State :=
  let own := (cs.map fun c => (ctxOf s c).strips).foldl Nat.lor 0
  let s := clearSites s (fld own (16 * partner w) 16 * 2 ^ (16 * w))
  cs.foldl (fun s c => modCtx s c fun x =>
    { x with twinFault := none, cmp := [], tensors := x.tensors.filter fun e => !(shadowKey e.1),
             before := x.before.map fun p => (p.1, p.2.filter fun e => !(shadowKey e.1)) }) s

/-- The VCMP rail of a wing is switched off (R464, R481). -/
def cmpOff (s : State) (w : Nat) : State :=
  let p := s.power
  { s with power := { p with off := p.off ||| BitVec.ofNat 4 (2 ^ w), rails := p.rails &&& ~~~(BitVec.ofNat 32 (2 ^ (6 * w + 13))) } }

/-- A wing enters FAILED (R436): its contexts are detained, unless they run as twins, for which it is the fault of that
twin alone (R434). With no twinned run under way the other wing takes over at once. Wing D of SJ-L3612-M stays FENCED (R4). Its VCMP is switched off (R464). -/
def failWing (s : State) (w : Nat) : State :=
  let was := (wingOf s w).st
  if was == .failed || (isSmall s && w = 3) then s
  else
    let cs := wingCtxs s w
    let s := modWing (wingTo s w .failed 0x8001) w fun x => { x with retiring := none, recessed := [], remapDue := false }
    let s := cmpOff s w
    if was == .twinShadow then
      let s := (cs.filter fun c => (ctxOf s c).twinFault.isSome).foldl (fun s c => twinFaulted s c true w 0x8001 none) s
      wingTo (dropShadow s w cs) (partner w) .active 0
    else if was == .twinPrimary then
      let live := cs.filter fun c => (ctxOf s c).st == .running
      let s := live.foldl (fun s c => twinFaulted s c false w 0x8001 none) s
      if live.any fun c => (ctxOf s c).twinFault.isSome then s else startPromotion s (wingPair w)
    else cs.foldl (fun s c => detain s c 0x8001 none none) s

/-! ## Spare columns (R421, R422) -/

/-- The physical pair of a logical site (R25). -/
def sitePair (s : State) (k : Nat) : Nat :=
  let c := siteCol k / 2
  match (wingOf s (siteWing k)).retired with
  | some r => if r ≤ c then c + 1 else c
  | none => c

/-- A pair is failed: it waits for its retirement, or makes the spare pair unavailable, or is the second one of its wing, which
enters FAILED (R26, R422). -/
def failPair (s : State) (w p : Nat) (cause : W16) : State :=
  let x := wingOf s w
  if x.st == .failed || (isSmall s && w = 3) || x.retired = some p then s
  else match x.retired, x.retiring with
    | none, none =>
      if p = 16 then setWing s w { x with spareBad := true }
      else if x.spareBad then failWing s w
      else setWing s w { x with retiring := some (p, cause) }
    | none, some (q, _) => if q = p then s else failWing s w
    | some _, _ => failWing s w

/-- Corrected words on all neighbour links of a pair's sites, in both directions (R179, R421). -/
def pairErrors (s : State) (w c : Nat) : Nat :=
  let ks := stripSites (16 * w + c)
  sumOf (ks.flatMap fun k => (List.range 4).flatMap fun p =>
    sget 0 s.linkCe (8 * k + p) :: (match neighbour k p with
      | some j => if ks.contains j then [] else [sget 0 s.linkCe (8 * j + oppositePort p)]
      | none => []))

/-- LINK_ERROR_RATE: a neighbour link exceeds its limit, and the pair of its two ends with more corrected errors fails, the west
one on a tie (R421). -/
def execLinkErrorRate (site port : Nat) (s : State) : Host.Outcome State Fault Refusal :=
  actIf (decide (site < 2048) && decide (port < 8)) s fun s =>
    let far := if port < 4 then (neighbour site port).getD site else site
    let a := min (siteCol site / 2) (siteCol far / 2)
    let b := max (siteCol site / 2) (siteCol far / 2)
    let w := siteWing site
    let c := if pairErrors s w a < pairErrors s w b then b else a
    failPair s w (sitePair s (siteKey w 0 (2 * c))) 0x3004

/-- UNIT_FAILED: a unit's checker raises the fault, and its pair fails (R421). -/
def execUnitFailed (site : Nat) (s : State) : Host.Outcome State Fault Refusal :=
  actIf (decide (site < 2048)) s fun s =>
    failPair (unitFault s site 0x8006) (siteWing site) (sitePair s site) 0x8006

/-- The firmware writes zero to a word of a unit store (R419). -/
def zeroWord (s : State) (k store addr : Nat) : State :=
  let z := leBytes 8 0
  let a := addr / 8 * 8
  if store = 0 then
    if siteIsCu k then
      modCu s k fun u => setSlot u (addr / 16384)
        (let l := slotOf u (addr / 16384)
         { l with elems := sset 0 (sset 0 l.elems (a % 16384 / 4) 0) (a % 16384 / 4 + 1) 0 })
    else modMu s k fun u => { u with spad := mwrite u.spad a z }
  else if store = 0x10 then modSw s k fun u => { u with stores := mwrite u.stores a z }
  else if siteIsCu k then modCu s k fun u => { u with stores := mwrite u.stores (stBase store + a) z }
  else modMu s k fun u => { u with stores := mwrite u.stores (stBase store + a) z }

/-- A context still holds the site. -/
def siteHeld (s : State) (k : Nat) : Bool :=
  s.ctxs.any fun e => (ctxMask s e.2).testBit (siteStrip k) && (executes e.2 || e.2.holdSince.isSome)

/-- SRAM_RETEST: once the context has left the unit, the firmware writes zero to the word and reads it back; if that is
uncorrectable again, the unit's pair fails. A word that no context owns is counted and tested in the same way (R419). -/
def execSramRetest (site store addr : Nat) (bad : Bool) (s : State) : Host.Outcome State Fault Refusal :=
  actIf (decide (site < 2048)) s fun s =>
    if siteHeld s site then s
    else
      let known := s.sramErr.contains (site, store, addr)
      let s := if known then { s with sramErr := s.sramErr.filter fun e => e != (site, store, addr) }
        else deviceFault (modWing s (siteWing site) fun w => { w with uncorr := satAdd 32 w.uncorr 1 }) 0x8003 (siteWing site)
      let s := zeroWord s site store addr
      if bad then failPair s (siteWing site) (sitePair s site) 0x8003 else s

/-- A context uses the strip of a failed pair: the fault that found the failure detains it (R417, R422). -/
def pairFault (s : State) (w c : Nat) (word : W16) : State :=
  let x := ctxOf s c
  if twinned s x && x.st == .running && twinRule word then
    twinFaulted s c ((wingOf s w).st == .twinShadow) w word none
  else detain s c word none none

/-- The fault words of what finds a pair failed at run time: a link, the write-back test and a checker (R421). -/
def pairCause (word : W16) : Bool := word = 0x3004 || word = 0x8003 || word = 0x8006

/-- PAIR_RETIREMENT: the users of the failed pair are detained, and RUNNING contexts on higher strips get a Recess request
(steps 1 and 2 of R422). -/
def execPairRetirement (wing pair : Nat) (cause : W16) (s : State) : Host.Outcome State Fault Refusal :=
  actIf (decide (wing < 4) && decide (pair < 17)) s fun s =>
    let s := if pairCause cause then failPair s wing pair cause else s
    match (wingOf s wing).retiring with
    | none => s
    | some (q, word) =>
      if q != pair || (wingOf s wing).remapDue then s
      else
        let users := ctxsWith s fun x => (ctxMask s x).testBit (16 * wing + pair)
        let s := users.foldl (fun s c => pairFault s wing c word) s
        let above := (ctxsWith s fun x =>
          x.st == .running && fld (ctxMask s x) (16 * wing + pair + 1) (15 - pair) != 0).filter fun c => !(users.contains c)
        let s := above.foldl (fun s c => requestRecess s c false none) s
        modWing s wing fun x => { x with remapDue := true, recessed := above }

/-- PAIR_REMAP: the spare pair is powered and tested, the columns move, and the firmware resumes what it recessed (steps 3 to 5
of R422). A spare that fails its test is a second failure (R26). -/
def execPairRemap (wing : Nat) (testOk : Bool) (s : State) : Host.Outcome State Fault Refusal :=
  actIf (decide (wing < 4)) s fun s =>
    let x := wingOf s wing
    match x.retiring with
    | none => s
    | some (p, cause) =>
      let held := s.ctxs.any fun e => (e.2.holdSince.isSome || e.2.teardown.isSome) && fld (ctxMask s e.2) (16 * wing + p) (16 - p) != 0
      if !x.remapDue || held then s
      else if !testOk then failWing s wing
      else
        let s := setWing s wing { x with retired := some p, retiring := none, remapDue := false, recessed := [] }
        let s := addRemap s 1 2 wing 0 p 0 0 cause.toNat
        x.recessed.foldl (fun s c =>
          if mayResume s c && stripsFree s c then beginRestore s c else s) s

/-! ## Bridges (R426, R427) -/

/-- The run of a context holds section slots on a bridge. -/
def onBridge (x : Ctx) (b : Nat) : Bool :=
  match x.run with
  | some r => executes x && (r.bridge.getD (2 * b) 0 != 0 || r.bridge.getD (2 * b + 1) 0 != 0)
  | none => false

/-- BRIDGE_LOSS: while the other bridges join all wings, the owners of circuits on the bridge are detained. A loss that splits
the device acts through SPLIT_FENCE. -/
def execBridgeLoss (bridge : Nat) (s : State) : Host.Outcome State Fault Refusal :=
  actIf (decide (bridge < 4)) s fun s =>
    if s.health.bridges.getLsbD bridge then s
    else
      let cs := ctxsWith s fun x => onBridge x bridge
      let s := { s with health := { s.health with bridges := s.health.bridges ||| BitVec.ofNat 4 (2 ^ bridge) } }
      if joined s 1 != 15 then s
      else cs.foldl (fun s c => detain s c 0x8005 none none) (deviceFault s 0x8005 0xFF)

/-! ## Split (R428 to R430) -/

/-- The wings of a strip mask. -/
def wingsIn (m : Nat) : List Nat := (List.range 4).filter fun w => fld m (16 * w) 16 != 0

/-- A context spans the parts: its strips lie in more than one, or they lie in the continuing part, the wings `live`, and the stacks that
hold its records do not (R429, R430). -/
def spansParts (s : State) (live : Nat) (x : Ctx) : Bool :=
  let ws := wingsIn x.strips
  match ws with
  | [] => false
  | w :: _ =>
    let half := (if ws.all fun v => 2 ≤ v then [2, 3] else [0, 1]).filter fun v => decide (4 * v < numStacks s)
    (ws.any (apart s w)) || (live.testBit w && half.any fun v => !(live.testBit v))

/-- A spanning context is detained, in whatever state it is; only units in the continuing part reach its held state (R328, R429). -/
def splitCtx (s : State) (live c : Nat) : State :=
  let m := (List.range 4).foldl (fun a w =>
    if live.testBit w then a else a + fld (ctxOf s c).strips (16 * w) 16 * 2 ^ (16 * w)) 0
  let s := match (ctxOf s c).loading with
    | some l => loadRefused (endLoading s c) c l.cmd ldContextState
    | none => s
  let s := clearSites (detainAny s c 0x8002 none) m
  modCtx s c fun x =>
    { x with cus := x.cus.filter fun (e : Nat × CU) => live.testBit (siteWing e.1),
             mus := x.mus.filter fun (e : Nat × MU) => live.testBit (siteWing e.1),
             sws := x.sws.filter fun (e : Nat × Switch) => live.testBit (siteWing e.1) }

/-- A twin pair in a split: the twin in the continuing part goes on as ACTIVE, and one in a fenced part is FENCED (R429). -/
def splitPair (s : State) (live pair : Nat) : State :=
  match (List.range 4).find? fun w => w / 2 = pair && (wingOf s w).st == .twinShadow with
  | none => s
  | some v =>
    let p := partner v
    if live.testBit p then (if live.testBit v then s else fenceShadow s pair 0x8002)
    else
      let s := modWing s p fun x => { x with cause := 0x8002 }
      if live.testBit v then promote s pair
      else fenceShadow (if (wingOf s p).st == .failed then s else wingTo s p .fenced 0x8002) pair 0x8002

/-- Objects in the other part are orphaned for the waiters of this part: host waits end, and units that wait fault (R429). -/
def cutObject (s : State) (o : Nat) : State :=
  let x := objOf s o
  let s := if objApart s o 0 then
      x.waits.foldl (fun s w => endWait s o w true) (setObj s o { x with waits := [] })
    else s
  let ds := (x.importers.filterMap fun i =>
    if objApart s o (siteWing i.1) && ((heldWaits s i.1).any fun w => wcCounter w.2.1 = i.2) then siteCtx s i.1 else none).eraseDups
  ds.foldl (fun s d => detain s d 0x4002 none none) s

/-- SPLIT_FENCE: the wings without a path to MC0 are fenced, each with a SPLIT emergency; where every one of them was FENCED or FAILED
before, a new split is reported for no wing (R399). Wings fenced by an earlier split stay so, and a later loss may part them further. The
contexts that span the parts are detained, from OPEN and LOADED too (R328, R428, R429; log entry 86). -/
def execSplitFence (s : State) : Host.Outcome State Fault Refusal :=
  act s fun s =>
    let cut := (List.range 4).filter fun w => s.health.split.getLsbD w || !((joined s 1).testBit w)
    let mask := sumOf (cut.map fun w => 2 ^ w)
    let live := 15 - mask
    if joined s 1 = 15 then s
    else
      let told := mask = s.health.split.toNat || cut.any fun w => (wingOf s w).st != .fenced && (wingOf s w).st != .failed
      let s := { s with health := { s.health with split := BitVec.ofNat 4 mask } }
      let s := if told then s else deviceFault s 0x8002 0xFF
      let s := splitPair (splitPair s live 0) live 1
      let s := cut.foldl (fun s w =>
        if (wingOf s w).st == .fenced || (wingOf s w).st == .failed then s else wingTo s w .fenced 0x8002) s
      let s := (ctxsWith s fun x => x.st != .free && x.st != .detention && x.st != .closing && spansParts s live x).foldl
        (fun s c => splitCtx s live c) s
      ((s.objs.filter fun e => e.2.valid && !e.2.orphan).map Prod.fst).foldl cutObject s

/-! ## Twins (R431, R434, R435) -/

/-- TWIN_FAULT_WINDOW_CLOSE: the other twin has not faulted, and takes over alone. -/
def execTwinFaultWindowClose (ctx : Nat) (s : State) : Host.Outcome State Fault Refusal :=
  actIf (decide (ctx < 64)) s fun s =>
    let x := ctxOf s ctx
    match x.twinFault, wingsIn x.strips with
    | some (_, true, _), w :: _ => startPromotion s (wingPair w)
    | some (_, false, word), w :: _ => fenceShadow s (wingPair w) word
    | _, _ => s

/-- PROMOTION_COMPLETE: the promoted wing holds the grants (R435). -/
def execPromotionComplete (pair : Nat) (s : State) : Host.Outcome State Fault Refusal :=
  actIf (decide (pair < 2)) s fun s => if (sget none s.health.promoteAt pair).isSome then promote s pair else s

/-- Any context that is not FREE holds strips in either wing of a pair. -/
def pairHeld (s : State) (pair : Nat) : Bool :=
  s.ctxs.any fun e => e.2.st != .free && fld (ctxMask s e.2) (32 * pair) 32 != 0

/-- The wing states that a value of a twin pair object asks for: off, the first or the second wing primary (R431). -/
def twinStates (v : Nat) : WingSt × WingSt :=
  match v with
  | 0 => (.active, .active) | 1 => (.twinPrimary, .twinShadow) | _ => (.twinShadow, .twinPrimary)

/-- A wing takes a state; an unchanged one is no change (R399). -/
def wingInto (s : State) (w : Nat) (st : WingSt) : State := if (wingOf s w).st == st then s else wingTo s w st 0

/-- Twin mode of a pair is set (R431). -/
def setTwins (s : State) (pair v : Nat) : State :=
  wingInto (wingInto s (2 * pair) (twinStates v).1) (2 * pair + 1) (twinStates v).2

end Sys2Proof.Machine
end

