-- ==== Sys2Proof/Machine/Power.lean ====
section
/-! DEFINITION. Power (R460 to R468), the clock control of R48, and thermal control (R478, R479). -/

namespace Sys2Proof.Machine

/-! ## Fuses (R446, R447) -/

/-- The rollback counter: the number of its bits that are blown. -/
def rollback (f : Fuses) : Nat := popBits f.counter.toNat 63

/-- The fuse bits that a commit of the running image blows, in order: counter bits from the lowest unblown one upward (0–62), then
revocation bits (63 + slot). -/
def commitBits (s : State) : List Nat :=
  match s.boot.image with
  | none => []
  | some i =>
    let free := (List.range 63).filter fun b => !(s.fuse.counter.getLsbD b)
    free.take (i.svn - rollback s.fuse) ++
    ((List.range 4).filter fun k => i.revoke.getLsbD k && !(s.fuse.revoked.getLsbD k)).map fun k => 63 + k

/-- Blows fuse bits. -/
def blow (f : Fuses) (bits : List Nat) : Fuses :=
  bits.foldl (fun f b =>
    if b < 63 then { f with counter := f.counter ||| BitVec.ofNat 63 (2 ^ b) }
    else { f with revoked := f.revoked ||| BitVec.ofNat 4 (2 ^ (b - 63)) }) f

/-- The fuses when a commit is cut off: each bit takes 1 ms (R447). -/
def cutCommit (s : State) : Fuses :=
  if s.boot.commit = 1 then blow s.fuse ((commitBits s).take ((s.fclk - s.boot.commitAt) / ms 1)) else s.fuse

/-- A command that may change fuses: everything but the clock and the queue of waiting commands follows what it does. -/
def actFuse (s : State) (f : State → State) : Host.Outcome State Fault Refusal :=
  .next (settle { f s with pending := s.pending, fclk := s.fclk })

/-! ## Power-down and full reset (R455, R456, R462) -/

/-- What neither a power-down nor a full reset clears: the fuses, the clock of the model, the waiting commands, what has left the
block, the number of the next free value, and the levels and links that its surroundings hold. -/
def rebooted (s : State) : State :=
  { State.cold (cutCommit s) s.fclk s.pending with free := s.free, out := s.out, ecatLink := s.ecatLink, bell := s.bell }

/-- The power-down of R462. `latch` marks the shutdowns of R479, after which the module stays off. -/
def powerDown (s : State) (latch : Bool) : State :=
  let p := s.power
  { rebooted s with power := { Power.none with pwrEn := p.pwrEn, resetN := p.resetN, input := p.input, fellAt := p.fellAt,
                                               latched := latch || p.latched, inputHigh := p.inputHigh } }

/-- A full reset: steps 2 to 8 again with the rails kept up; FAILED wings are tested again, so every VCMP that was switched off is on
again and regulates, and any other keeps its status (R455, R456, R481). -/
def fullReset (s : State) (cause : Nat) : State :=
  let p := s.power
  let t := rebooted s
  let back : W32 := BitVec.ofNat 32 (sumOf (((List.range 4).filter fun w => p.off.getLsbD w).map fun w => 2 ^ (6 * w + 13)))
  { t with power := { p with off := 0, rails := p.rails ||| (back &&& railsOn s.fuse.product) }, scan := s.scan,
           boot := { Boot.off with step := 1, start := s.fclk, cause := cause } }

/-- The module is powered: step 1 runs or has ended. -/
def powered (s : State) : Bool := s.power.on || s.power.seq

/-- A power-down of a module that is powered. -/
def dropPower (s : State) (latch : Bool) : Host.Outcome State Fault Refusal :=
  actFuse s fun s => if powered s then powerDown s latch else s

/-! ## Step 1 (R462, R467) -/

/-- Step 1 starts. -/
def startRails (s : State) : State :=
  { s with power := { s.power with seq := true, rows := 0, holdoff := false, latched := false } }

/-- PWR_EN_RISE: step 1 starts, or waits when PWR_EN was low for less than 100 ms; after a shutdown such a short low has no effect
(R467, R479). -/
def execPwrEnRise (s : State) : Host.Outcome State Fault Refusal :=
  act s fun s =>
    let p := s.power
    if p.pwrEn then s
    else
      let s := { s with power := { p with pwrEn := true } }
      let long := elapsed s p.fellAt (ms 100)
      if powered s then s
      else if long then (if p.input then startRails s else s)
      else if p.latched then s
      else { s with power := { s.power with holdoff := true } }

/-- POWER_UP_HOLDOFF_EXPIRY: 100 ms have passed since the power-down ended, and step 1 starts once the input is there (R467). -/
def execPowerUpHoldoffExpiry (s : State) : Host.Outcome State Fault Refusal :=
  act s fun s =>
    if !s.power.holdoff then s
    else
      let s := { s with power := { s.power with holdoff := false } }
      if s.power.pwrEn && s.power.input then startRails s else s

/-- INPUT_START_THRESHOLD: the input has passed 46.0 V; with PWR_EN high step 1 starts (R460, R462). -/
def execInputStartThreshold (s : State) : Host.Outcome State Fault Refusal :=
  act s fun s =>
    let p := s.power
    if p.input then s
    else
      let s := { s with power := { p with input := true } }
      if p.pwrEn && !(powered s) && !p.latched && !p.holdoff then startRails s else s

/-- PWR_EN_FALL: the module powers down (R467). -/
def execPwrEnFall (s : State) : Host.Outcome State Fault Refusal :=
  actFuse s fun s =>
    if !s.power.pwrEn then s
    else
      let s := { s with power := { s.power with pwrEn := false, fellAt := s.fclk, holdoff := false } }
      if powered s then powerDown s false else s

/-- INPUT_UNDERVOLTAGE: the input falls below 44.0 V, which also ends a shutdown (R464, R479). -/
def execInputUndervoltage (s : State) : Host.Outcome State Fault Refusal :=
  actFuse s fun s =>
    let s := if powered s then powerDown s false else s
    { s with power := { s.power with input := false, inputHigh := false, latched := false } }

/-- INPUT_OVERVOLTAGE, R464. -/
def execInputOvervoltage (s : State) : Host.Outcome State Fault Refusal := dropPower s false

/-- RAIL_FAULT, R464. -/
def execRailFault (s : State) : Host.Outcome State Fault Refusal := dropPower s false

/-- The rail status bits of the rails that come up one after another: the rows of R462, the seventh as VHBMC and then VHBMQ (R481). -/
def rowBits (row : Nat) : W32 :=
  match row with
  | 1 => 1 | 2 => 2 | 3 => 4 | 4 => 8 | 5 => 0x04104100 | 6 => 0x08208200 | 7 => 0x10410400 | 8 => 0x20820800 | 9 => 0x41041000
  | _ => 0x82082000

/-- RAIL_ENABLE: the next rails come up; with VCMP, the tenth, step 1 ends and PWR_OK is high (R462, R468). -/
def execRailEnable (s : State) : Host.Outcome State Fault Refusal :=
  act s fun s =>
    let p := s.power
    if !p.seq then s
    else
      let n := p.rows + 1
      let p := { p with rows := n, rails := p.rails ||| (rowBits n &&& railsOn s.fuse.product) }
      if n < 10 then { s with power := p }
      else { s with power := { p with seq := false, on := true }, boot := { s.boot with step := 1, start := s.fclk } }

/-- RESET_N_ASSERT: a full reset, or during step 1 step 2 waits (R467). -/
def execResetNAssert (s : State) : Host.Outcome State Fault Refusal :=
  actFuse s fun s =>
    if !s.power.resetN then s
    else
      let s := { s with power := { s.power with resetN := false } }
      if s.power.on then fullReset s 1 else s

/-- RESET_N_RELEASE: power-up continues from step 2 (R467). -/
def execResetNRelease (s : State) : Host.Outcome State Fault Refusal :=
  act s fun s =>
    let s := { s with power := { s.power with resetN := true } }
    if s.power.on && s.boot.step = 1 then { s with boot := { s.boot with start := s.fclk } } else s

/-! ## Rails and links (R464) -/

/-- VCMP_FAULT: the wing enters FAILED, and its VCMP is switched off. -/
def execVcmpFault (wing : Nat) (s : State) : Host.Outcome State Fault Refusal :=
  actIf (decide (wing < 4)) s fun s =>
    if !s.power.on || (isSmall s && wing = 3) || s.power.off.getLsbD wing then s else failWing (cmpOff s wing) wing

/-- VOPT_FAULT: the wing's optics rail is switched off; its Trien ports lose light and leave UP, and its host port goes down. -/
def execVoptFault (wing : Nat) (s : State) : Host.Outcome State Fault Refusal :=
  actIf (decide (wing < 4)) s fun s =>
    if !s.power.on then s
    else
      let p := s.power
      let s := { s with power := { p with opticsOff := p.opticsOff ||| BitVec.ofNat 4 (2 ^ wing),
                                          rails := p.rails &&& ~~~(BitVec.ofNat 32 (2 ^ (6 * wing + 12))) },
                        hlink := s.hlink &&& ~~~(BitVec.ofNat 4 (2 ^ wing)) }
      ((List.range 16).filter fun j => isPort s (16 * wing + j)).foldl (fun s j =>
        retrain (lightOut s (16 * wing + j)) (16 * wing + j) false) s

/-- VOLTAGE_TOLERANCE_CHANGE: a rail by its bit in the rail status word, or the input by number 32, leaves or returns within its
limits (R461, R464, R481). -/
def execVoltageToleranceChange (rail : Nat) (inside : Bool) (s : State) : Host.Outcome State Fault Refusal :=
  actIf (decide (rail < 33)) s fun s =>
    let p := s.power
    let b : W32 := BitVec.ofNat 32 (2 ^ rail)
    if rail = 32 then { s with power := { p with inputHigh := !inside } }
    else if !p.on || !((railsDue s).testBit rail) then s
    else { s with power := { p with rails := if inside then p.rails ||| b else p.rails &&& ~~~b } }

/-- HOST_LINK_CHANGE: the link of an enabled host port goes down or comes up (R410). -/
def execHostLinkChange (port : Nat) (up : Bool) (s : State) : Host.Outcome State Fault Refusal :=
  actIf (decide (port < 4)) s fun s =>
    let b : BitVec 4 := BitVec.ofNat 4 (2 ^ port)
    if s.boot.step < 6 || dget s (hportObj port 1) != 1 || (up && s.power.opticsOff.getLsbD port) then s
    else { s with hlink := if up then s.hlink ||| b else s.hlink &&& ~~~b }

/-! ## The sideband outputs (R468) -/

/-- PWR_OK. -/
def pwrOk (s : State) : Bool := s.power.on
/-- ALERT_n; an open-drain output of an unpowered module is high (R466). -/
def alertN (s : State) : Bool := !s.power.on || errorRegister s = 0
/-- THERM_n. -/
def thermN (s : State) : Bool := !s.power.on || !(throttleThermal s || s.clk.coolStatus != 0)
/-- READY_n. -/
def readyN (s : State) : Bool := !s.boot.online

/-! ## ACLK and VCMP (R46, R48, R51, R463) -/

/-- The lowest of the cap target, the thermal target and the ceiling. -/
def clkLimit (s : State) (k : Clk) : Nat := min (min k.capTarget k.thermTarget) (dget s 0x210005)

/-- The VCMP set value in mV at an ACLK in MHz: 0.60 V and 0.2 V more over 1,800 MHz, rounded up to 5 mV (R463). -/
def vcmpAt (aclk : Nat) : Nat := 600 + 5 * ceilDiv ((aclk - 1800) * 200) (1800 * 5)

/-- ACLK goes up to a frequency: VCMP is raised first and regulates before the step (R463; log entry 59 for the wait). -/
def raiseTo (k : Clk) (f : Nat) : Clk := { { k with vcmp := vcmpAt f } with aclk := f }

/-- ACLK goes down to a frequency, and VCMP follows it (R463). -/
def lowerTo (k : Clk) (f : Nat) : Clk := { { k with aclk := f } with vcmp := vcmpAt f }

/-- ACLK steps down by 100 MHz toward a limit. -/
def stepDown (k : Clk) (limit : Nat) : Clk := if limit < k.aclk then lowerTo k (k.aclk - 100) else k

/-- ACLK steps up by 100 MHz where the limit allows. -/
def stepUp (k : Clk) (limit : Nat) : Clk := if k.aclk + 100 ≤ limit then raiseTo k (k.aclk + 100) else k

/-- The VCMP set value of a wing: none where it is switched off or never enabled (R461, R464). -/
def vcmpSet (s : State) (w : Nat) : Nat :=
  if s.power.off.getLsbD w || (isSmall s && w = 3) || !s.power.on then 0 else s.clk.vcmp

/-- A new ceiling stands: ACLK below the limit goes up to it, ACLK above it goes down at once by one step, unless a step of the
present 1 ms window has been taken (R48, R51). -/
def ceilingMoved (s : State) : State :=
  let k := s.clk
  let l := clkLimit s k
  if k.aclk < l then { s with clk := raiseTo k l }
  else if l < k.aclk && !k.stepped then { s with clk := { lowerTo k (k.aclk - 100) with stepped := true } }
  else s

/-- The firmware controls the clock: it runs from step 3 on. -/
def firmwareRuns (s : State) : Bool := decide (3 ≤ s.boot.step) && s.boot.image.isSome && !s.boot.stopped

/-- POWER_WINDOW_END: a window above the cap lowers ACLK, ten consecutive ones at least 3 % below it raise it (R48, R50, R51). A
step taken here is the next window's. DESIGN CHOICE (log entry 59): CAP_UNATTAINABLE is worked out here and at no other
instant, so a cap that is raised leaves bit 2 of 0x2100:04 as it is until the present window ends; and it is set already at the end of a
window above the cap whose own step takes ACLK to 1,800 MHz. -/
def execPowerWindowEnd (mean : Nat) (s : State) : Host.Outcome State Fault Refusal :=
  act s fun s =>
    if !(firmwareRuns s) then s
    else
      let cap := dget s 0x210001
      let k : Clk := { s.clk with power := min mean 6000 }
      let k : Clk :=
        if cap < mean then
          let k : Clk := { k with capTarget := max 1800 (min k.capTarget k.aclk - 100), below := 0 }
          stepDown k (clkLimit s k)
        else if 100 * mean ≤ 97 * cap then
          if k.below < 9 then stepDown { k with below := k.below + 1 } (clkLimit s k)
          else
            let k : Clk := { k with capTarget := max k.capTarget (min (dget s 0x210005) (k.capTarget + 100)), below := 0 }
            if clkLimit s k < k.aclk then stepDown k (clkLimit s k) else stepUp k (clkLimit s k)
        else stepDown { k with below := 0 } (clkLimit s k)
      { s with clk := { k with stepped := decide (k.aclk < s.clk.aclk), unattain := cap < mean && k.aclk = 1800 } }

/-! ## Temperatures and coolant (R478, R479) -/

/-- Readings of a kind, one per part. -/
def readings (n : Nat) (l : List Int) : List Int := (List.range n).map fun i => l.getD i 0

/-- The readings of the four kinds with their limits: throttle above, release at or below, shutdown at (R478). -/
def thermal (k : Clk) : List (List Int × Int × Int × Int) :=
  [(k.compute, 100, 95, 110), (k.base, 105, 100, 110), (k.stack, 95, 90, 105), (k.optic, 75, 70, 85)]

/-- THERMAL_READING: the hottest sensors move the thermal target, or shut the module down. -/
def execThermalReading (compute base stack optic : List Int) (s : State) : Host.Outcome State Fault Refusal :=
  actFuse s fun s =>
    if !(firmwareRuns s) then s
    else
      let k : Clk := { s.clk with compute := readings 4 compute, base := readings 4 base, stack := readings 16 stack,
                                  optic := readings 4 optic }
      let rows := thermal k
      if rows.any fun r => r.1.any fun t => decide (r.2.2.2 ≤ t) then powerDown s true
      else if rows.any fun r => r.1.any fun t => decide (r.2.1 < t) then
        let k : Clk := { k with thermTarget := max 1800 (k.thermTarget - 100), cool := 0 }
        { s with clk := stepDown k k.thermTarget }
      else if rows.all fun r => r.1.all fun t => decide (t ≤ r.2.2.1) then
        if k.cool < 9 then { s with clk := { k with cool := k.cool + 1 } }
        else
          let k : Clk := { k with thermTarget := min 3600 (k.thermTarget + 100), cool := 0 }
          { s with clk := stepUp k (clkLimit s k) }
      else { s with clk := { k with cool := 0 } }

/-- Outlet warning (R480). -/
def outletHigh (s : State) (outlet : Int) : Bool := decide ((dget s 0x2A2005 : Int) < outlet)

/-- COOLANT_FLOW_LOW: flow, inlet and outlet as MC0 reads them set the coolant status (R477, R479, R480). -/
def execCoolantFlowLow (flow : Nat) (inlet outlet : Int) (glycol : Bool) (s : State) : Host.Outcome State Fault Refusal :=
  act s fun s =>
    if !(firmwareRuns s) then s
    else
      let st := b2n (decide (flow < if glycol then 450 else 400)) + 2 * b2n (decide ((400 : Int) < inlet)) + 4 * b2n (outletHigh s outlet)
      { s with clk := { s.clk with flow := flow, inlet := inlet, outlet := outlet, coolStatus := BitVec.ofNat 8 st } }

/-- COOLANT_FLOW_SHUTDOWN: flow below 2.0 L/min for 2 s (R479). -/
def execCoolantFlowShutdown (s : State) : Host.Outcome State Fault Refusal :=
  actFuse s fun s => if firmwareRuns s then powerDown s true else s

end Sys2Proof.Machine
end

