-- ==== Sys2Proof/Machine/Boot.lean ====
section
/-! DEFINITION. The power-up order (R438 to R442), firmware images (R443 to R445), commit (R447), resets (R455, R456), and identity
and attestation (R451 to R454). -/

namespace Sys2Proof.Machine

/-! ## Firmware images (R443, R444) -/

/-- Word `i` of an image's header. -/
def imgW (f : List Byte) (i : Nat) : Nat := leAt f (4 * i) 4

/-- Every byte is zero. -/
def zeros (l : List Byte) : Bool := l.all fun b => b = 0

/-- Check 1 of R444: format, length and reserved bits. -/
def imageFormat (f : List Byte) : Bool :=
  decide (4096 ≤ f.length) && decide (f.length ≤ 24 * 2 ^ 20) && imgW f 0 = 0x49574653 && imgW f 1 = 0x01000100 &&
  f.length = 4096 + imgW f 5 && imgW f 5 % 64 = 0 && Nat.land (imgW f 3) 0xFFFCC0FC = 0 && Nat.land (imgW f 4) 0xFFFFFFF0 = 0 &&
  zeros ((f.drop 24).take 8) && zeros ((f.drop 64).take 192) && zeros ((f.drop 3988).take 108)

/-- The measurement of an image. -/
def measurement (f : List Byte) : List Byte := sha3 (f.take 256)

/-- What an image says of itself. -/
def imageOf (s : State) (path : Nat) (f : List Byte) : Image :=
  { version := BitVec.ofNat 32 (imgW f 2), svn := fld (imgW f 3) 8 6, slot := fld (imgW f 3) 16 2,
    revoke := BitVec.ofNat 4 (imgW f 4), measure := BitVec.ofNat 256 (leNat (measurement f)), counter := rollback s.fuse,
    path := path }

/-- The checks of R444 in their order: the AL status code of the first that fails (R440). -/
def imageRefused (s : State) (f : List Byte) : Option W16 :=
  let slot := fld (imgW f 3) 16 2
  let key := (f.drop 256).take 1312
  if !(imageFormat f) then some 0x8011
  else if !((imgW f 3).testBit (b2n (isSmall s))) then some 0x8014
  else if leNat (sha3 key) != (s.fuse.keyHash.getD slot 0).toNat || s.fuse.revoked.getLsbD slot then some 0x8012
  else if !(Config.mldsaVerify key (measurement f) ((f.drop 1568).take 2420) (ascii "SFWI")) then some 0x8012
  else if sha3 (f.drop 4096) != (f.drop 32).take 32 then some 0x8012
  else if fld (imgW f 3) 8 6 < rollback s.fuse then some 0x8013
  else none

/-! ## Steps 2 and 3 (R438, R440 to R442) -/

/-- DHCP discovery on a host port names the vendor class and the product code (R441). -/
def discover (s : State) (port : Nat) : State := emit s (.dhcpDiscover port (ascii "Stolnos-Leroa") s.fuse.product)

/-- ROM_START: the ROMs test themselves and read the fuses; MC0's failure stops the power-up. The fetch of step 3 then starts. -/
def execRomStart (mc0Ok mc1Ok : Bool) (s : State) : Host.Outcome State Fault Refusal :=
  act s fun s =>
    if !s.power.on || !s.power.resetN || s.boot.step != 1 || s.boot.stopped then s
    else if !mc0Ok then { s with boot := { s.boot with stopped := true } }
    else
      let s := { s with boot := { s.boot with step := 2, mc1 := mc1Ok, al := 0x8010, transfers := [] } }
      (List.range 4).foldl discover s

/-- The ROM fetches firmware: no image has been accepted. -/
def fetching (s : State) : Bool := s.boot.step = 2 && !s.boot.stopped && s.boot.candidate.isNone

/-- The transfer of a path: 0 EtherCAT, 1 + n host port n. Its state is 0 not started, 1 under way, 3 ended without an image that
passed. -/
def transferOf (s : State) (path : Nat) : Transfer := sget Transfer.idle s.boot.transfers path

def setTransfer (s : State) (path : Nat) (t : Transfer) : State :=
  { s with boot := { s.boot with transfers := sset Transfer.idle s.boot.transfers path t } }

/-- The DHCP offer that a port uses. -/
def offerOf (s : State) (port : Nat) : DhcpOffer := sget { addr := 0, server := 0, file := [] } s.boot.offers port

/-- A TFTP transfer starts from its first block: the boot file, from the server of the offer, in blocks of 8,192 bytes and a window of
16 (R441). -/
def startTftp (s : State) (port : Nat) : State :=
  let o := offerOf s port
  emit (setTransfer s (port + 1) { state := 1, data := [], since := s.fclk }) (.tftpRead port o.server o.file 8192 16)

/-- DHCP_OFFER: an offer that names a boot file starts the port's TFTP transfer, and the port holds its address for it (R441). -/
def execDhcpOffer (port : Nat) (offer : DhcpOffer) (s : State) : Host.Outcome State Fault Refusal :=
  actIf (decide (port < 4)) s fun s =>
    if !(fetching s) || offer.file.isEmpty || (transferOf s (port + 1)).state != 0 then s
    else
      let none_ : DhcpOffer := { addr := 0, server := 0, file := [] }
      startTftp { s with boot := { s.boot with offers := sset none_ s.boot.offers port offer } } port

/-- DHCP_RETRY: a port with no offer repeats its discovery (R441). -/
def execDhcpRetry (port : Nat) (s : State) : Host.Outcome State Fault Refusal :=
  actIf (decide (port < 4)) s fun s =>
    if fetching s && (transferOf s (port + 1)).state = 0 then discover s port else s

/-- TFTP_RETRY: a transfer that failed, or whose image was refused, starts again (R441, R442). -/
def execTftpRetry (port : Nat) (s : State) : Host.Outcome State Fault Refusal :=
  actIf (decide (port < 4)) s fun s =>
    if fetching s && (transferOf s (port + 1)).state != 0 then startTftp s port else s

/-- TFTP_BLOCK: the next block of a port's transfer; a block has at most 8,192 B (R441). -/
def execTftpBlock (port : Nat) (data : List Byte) (s : State) : Host.Outcome State Fault Refusal :=
  actIf (decide (port < 4)) s fun s =>
    let t := transferOf s (port + 1)
    if !(fetching s) || t.state != 1 || 8192 < data.length then s
    else setTransfer s (port + 1) { t with data := t.data ++ data }

/-- FOE_WRITE: in PREOP the master writes the file "leroa.sfw" with password 0; another name or password is refused (R441). -/
def execFoeWrite (named : Bool) (file : List Byte) (s : State) : Host.Outcome State Fault Refusal :=
  act s fun s =>
    if !(fetching s) || s.boot.alState != .preop then s
    else if !named then emit s (.fetchError 0)
    else setTransfer s 0 { state := 1, data := file, since := s.fclk }

/-- Step 3 ends: the image runs on the controllers that hold it, the ports give their DHCP addresses back, the keys are derived, and the
UDS fuses are locked until the next reset (R441, R451). -/
def stepThree (s : State) : State :=
  match s.boot.candidate with
  | some (_, i) =>
    let s := s.boot.offers.foldl (fun s e => emit s (.dhcpRelease e.1 e.2.addr)) s
    let id := if s.boot.udsLocked then s.boot.ident else some (identOf s.fuse i)
    { s with boot := { s.boot with step := 3, image := some i, offers := [], ident := id, udsLocked := true } }
  | none => s

/-- FIRMWARE_IMAGE_RECEIVED: MC0 checks a complete image. One that passes ends the other transfers with an error (R442, R444). -/
def execFirmwareImageReceived (path : Nat) (s : State) : Host.Outcome State Fault Refusal :=
  actIf (decide (path < 5)) s fun s =>
    let t := transferOf s path
    if !(fetching s) || t.state != 1 then s
    else match imageRefused s t.data with
      | some code =>
        let s := setTransfer s path { t with state := 3, data := [] }
        { s with boot := { s.boot with al := code } }
      | none =>
        let others := (s.boot.transfers.filter fun e => e.1 != path && e.2.state = 1).map Prod.fst
        let s := { s with boot := { s.boot with candidate := some (t.data, imageOf s path t.data), transfers := [] } }
        let s := others.foldl (fun s p => emit s (.fetchError p)) s
        if s.boot.mc1 then s else stepThree s

/-- MC1_IMAGE_CHECK: MC1 checks its copy of the image against its own reading of the same fuses; without a path to MC1 it cannot
be reached (R440, R445). -/
def execMc1ImageCheck (pathOk : Bool) (s : State) : Host.Outcome State Fault Refusal :=
  act s fun s =>
    match s.boot.candidate with
    | some (f, _) =>
      if s.boot.step != 2 then s
      else stepThree { s with boot := { s.boot with mc1 := s.boot.mc1 && pathOk && (imageRefused s f).isNone } }
    | none => s

/-! ## Steps 4 to 8 (R438, R440) -/

/-- HBM_TRAINING: failing pseudo-channels, by 64 × stack + number, take the spares of their stack in order; more than four in one
stack stop the power-up (R424). -/
def execHbmTraining (failing : List Nat) (s : State) : Host.Outcome State Fault Refusal :=
  act s fun s =>
    if s.boot.step != 3 || s.boot.stopped then s
    else
      let bad (k : Nat) : List Nat := (List.range 64).filter fun p => failing.contains (64 * k + p)
      let ks := List.range (numStacks s)
      if ks.any fun k => decide (4 < (bad k).length) then { s with boot := { s.boot with stopped := true, al := 0x8020 } }
      else
        let s := ks.foldl (fun s k => (List.range (bad k).length).foldl (fun s n =>
          let p := (bad k).getD n 0
          let s := { s with pchans := sset PChan.good s.pchans (64 * k + p) { PChan.good with spare := some n } }
          addRemap (bump s 0x220006 1) 3 1 (k / 4) (k % 4) p 0 n 0) s) s
        { s with boot := { s.boot with step := 4 } }

/-- The result of the self-test of a wing: its failed pairs are the fused ones and those found now, and the one
failed pair, the spare pair among them, is retired (R25, R26, R421, R425, R436, R437). -/
def testWing (s : State) (failing dead : List Nat) (w : Nat) : State :=
  let found := (List.range 17).filter fun p => failing.contains (17 * w + p) || s.fuse.pairs.contains (w, p)
  let x := wingOf s w
  if dead.contains w || 2 ≤ found.length then cmpOff (setWing s w { x with st := .failed, cause := 0x8001 }) w
  else
    let cut := !s.boot.mc1 && decide (2 ≤ w)
    let x := { x with st := if cut then .fenced else .active, cause := if cut then 0x8002 else 0 }
    match found with
    | [] => setWing s w x
    | p :: _ =>
      addRemap (setWing s w { x with retired := some p }) 1 (if s.fuse.pairs.contains (w, p) then 0 else 1) w 0 p 0 0 0

/-- A pair that the self-test of a plane reset finds failed is retired before contexts open, as at power-up (R26, R421, R425). -/
def retireNow (s : State) (w p : Nat) : State :=
  let x := wingOf s w
  if x.st == .failed || x.retired = some p || x.retiring.any (fun q => q.1 = p) then s
  else if x.retired.isSome || x.retiring.isSome || (x.spareBad && p != 16) then failWing s w
  else if p = 16 then setWing s w { x with spareBad := true }
  else addRemap (setWing s w { x with retired := some p }) 1 1 w 0 p 0 0 0

/-- A wing that a split, twin logic or a lost controller path had fenced is tested in a plane reset: it enters ACTIVE, or FAILED
(step 5 of R456). A written fence, and the split that stands after the
training, keep it FENCED. -/
def planeWing (s : State) (failing dead : List Nat) (w : Nat) : State :=
  let x := wingOf s w
  if x.st != .fenced || x.fence || (isSmall s && w = 3) || s.health.split.getLsbD w then s
  else if dead.contains w then failWing s w
  else
    ((List.range 17).filter fun p => failing.contains (17 * w + p)).foldl (fun s p => retireNow s w p) (wingTo s w .active 0)

/-- A twin pair re-enters the states of its object (R456). -/
def planePair (s : State) (pair : Nat) : State :=
  let fit (w : Nat) : Bool := (wingOf s w).st != .fenced && (wingOf s w).st != .failed
  if fit (2 * pair) && fit (2 * pair + 1) then setTwins s pair (dget s (0x281001 + pair)) else s

/-- SITE_SELF_TEST: pairs by 17 × wing + pair that fail, and wings whose compute die fails. Without MC1 half CD fences itself. In a
plane reset it is step 5 of R456. -/
def execSiteSelfTest (failing dead : List Nat) (s : State) : Host.Outcome State Fault Refusal :=
  act s fun s =>
    if s.boot.plane = 4 then
      let s := { s with boot := { s.boot with plane := 5 } }
      planePair (planePair ((List.range (numWings s)).foldl (fun s w => planeWing s failing dead w) s) 0) 1
    else if s.boot.step != 4 || s.boot.stopped then s
    else
      let s := (List.range (numWings s)).foldl (fun s w => testWing s failing dead w) s
      let split : BitVec 4 := if s.boot.mc1 then s.health.split else 0xC
      { s with health := { s.health with split := split }, boot := { s.boot with step := 5 } }

/-- The bridges that fail to train are lost and all others are up; the wings without a path to MC0 are fenced, and `base` with
them (R426, R428, R440, R456). -/
def trainBridges (s : State) (bridges : List Nat) (base : BitVec 4) : State :=
  let lost := (List.range 4).foldl (fun a b => if bridges.contains b then a + 2 ^ b else a) 0
  let s := { s with health := { s.health with bridges := BitVec.ofNat 4 lost } }
  let cut := (List.range 4).filter fun w => !((joined s 1).testBit w)
  { s with health := { s.health with split := base ||| BitVec.ofNat 4 (sumOf (cut.map fun w => 2 ^ w)) } }

/-- The wings that a split cuts off. -/
def splitWings (s : State) : List Nat := (List.range 4).filter fun w => s.health.split.getLsbD w

/-- LINK_TRAINING: bridges that fail to train are lost, which may split the device; the host ports have links and the Trien ports
are DOWN. In a plane reset it is step 4 of R456, which reports what it finds at once. -/
def execLinkTraining (bridges : List Nat) (s : State) : Host.Outcome State Fault Refusal :=
  act s fun s =>
    if s.boot.plane = 3 then
      let was := s.health.bridges
      let s := trainBridges { s with boot := { s.boot with plane := 4 } } bridges 0
      let s := (splitWings s).foldl (fun s w =>
        if (wingOf s w).st == .fenced || (wingOf s w).st == .failed then s else wingTo s w .fenced 0x8002) s
      if s.health.split != 0 then s
      else (List.range 4).foldl (fun s b =>
        if s.health.bridges.getLsbD b && !(was.getLsbD b) then deviceFault s 0x8005 0xFF else s) s
    else if s.boot.step != 5 then s
    else
      let s := trainBridges { s with hlink := 0xF &&& ~~~s.power.opticsOff, boot := { s.boot with step := 6 } } bridges s.health.split
      (splitWings s).foldl (fun s w =>
        if (wingOf s w).st == .active then modWing s w fun x => { x with st := .fenced, cause := 0x8002 } else s) s

/-- DICTIONARY_ONLINE: every object is served at its default, and what the power-up found is reported: a split, and each lost bridge where
the lost bridges part no wing from MC0 (R438, R440). -/
def execDictionaryOnline (s : State) : Host.Outcome State Fault Refusal :=
  act s fun s =>
    if s.boot.step != 6 then s
    else
      let s := { s with boot := { s.boot with step := 7, al := 0 } }
      let s := { s with health := { s.health with errReg := BitVec.ofNat 8 (errorRegister s) } }
      let s := (List.range 4).foldl (fun s w =>
        if (wingOf s w).st == .failed then deviceFault s 0x8001 w
        else if s.health.split.getLsbD w && (wingOf s w).cause = 0x8002 then deviceFault s 0x8002 w else s) s
      let s := if s.health.split = 0 || ((splitWings s).any fun w => (wingOf s w).st != .failed && (wingOf s w).cause = 0x8002) then s
        else deviceFault s 0x8002 0xFF
      if joined s 1 != 15 then s
      else (List.range 4).foldl (fun s b => if s.health.bridges.getLsbD b then deviceFault s 0x8005 0xFF else s) s

/-- CONTEXTS_MAY_OPEN: firmware-owned memory is initialised, MC0 discards the image, and ONLINE is set (R438, R441). The boot time
runs from the start of step 2 (R458); a plane reset, which ends here after its step 5, leaves it. -/
def execContextsMayOpen (s : State) : Host.Outcome State Fault Refusal :=
  act s fun s =>
    if s.boot.step != 7 || s.boot.online || (s.boot.plane != 0 && s.boot.plane != 5) then s
    else
      let b := s.boot
      { s with boot := { b with step := 8, online := true, candidate := none, plane := 0,
                                time := if b.cause = 3 then b.time else min ((s.fclk - b.start) / ms 1) 0xFFFFFFFF } }

/-! ## Commit (R447) -/

/-- A commit starts; one with no bit to blow succeeds at once. -/
def startCommit (s : State) : State :=
  { s with boot := { s.boot with commit := if (commitBits s).isEmpty then 2 else 1, commitAt := s.fclk } }

/-- Which bits a failed commit has blown: the read-back does not say, and the bits of this free value decide (log entry 37). -/
def freeBits (n : Nat) : Nat :=
  (Config.freeDetail n).toNat + (Config.freeDetail (n + 1)).toNat * 2 ^ 32 + (Config.freeDetail (n + 2)).toNat * 2 ^ 64

/-- COMMIT_COMPLETE: every bit has been blown and read back. -/
def execCommitComplete (readBack : Bool) (s : State) : Host.Outcome State Fault Refusal :=
  actFuse s fun s =>
    if s.boot.commit != 1 then s
    else if readBack then { s with fuse := blow s.fuse (commitBits s), boot := { s.boot with commit := 2 } }
    else
      let bits := (commitBits s).filter fun b => (freeBits s.free).testBit b
      { s with fuse := blow s.fuse bits, free := s.free + 3, boot := { s.boot with commit := 3 } }

/-! ## Plane reset (R456) -/

/-- Every window of a channel closes; one with a live link sends CLOSE with REASON 0x03. -/
def planeWindow (s : State) (c : Nat) : State :=
  let w := chanOf s c
  if w.st == .closed || w.st == .lost then s
  else
    let fin := (w.fin.getD (if w.st == .opened && !(wdEgress w.wd) then expectedBlock w else w.cursor)).toNat
    sendWord s (c / 64) (cw 0x07 c (fin * 2 ^ 32 + 3 * 2 ^ 64))

/-- Steps 1 to 3 of a plane reset: connections and windows end, every unit stops, and every context is FREE. LINK_TRAINING and
SITE_SELF_TEST are its steps 4 and 5, and ONLINE returns with CONTEXTS_MAY_OPEN. -/
def planeReset (s : State) : State :=
  let s := (s.conns.filter fun e => e.2.live).foldl (fun s e => emit s (.dreq e.1)) s
  let s := (s.chans.map Prod.fst).foldl planeWindow s
  let s := { s with
    conns := [], chans := [], ctxs := [], cus := [], mus := [], sws := [], wires := [], credits := [], ring := [], gridIn := [], ctl := [], linkCe := [],
    mesh := [], flying := [],
    terms := [], queues := [], objs := [], mwins := [], rdmas := [], due := [],
    hosts := s.hosts.map fun (e : Nat × HostSt) => (e.1, { e.2 with state := 0, lostAt := 0 }),
    lease := { s.lease with holder := none, expiry := 0, cmd := none },
    tts := s.tts.map fun (e : Nat × Timetable) => (e.1, { e.2 with state := 0, cycle := none, deferred := none, base := [] }),
    health := { s.health with promoteAt := [] },
    boot := { s.boot with step := 7, online := false, cause := 3, plane := 3 } }
  (List.range 4).foldl (fun s w => modWing s w fun x => { x with recessed := [] }) s

/-! ## Identity and attestation (R451 to R454) -/

/-- The keys and the endorsement that the firmware holds. -/
def identNow (s : State) : Ident := s.boot.ident.getD { secret := [], endorse := [], device := [] }

/-- The 256-byte body of an attestation report on a context, or on the device alone (R453). -/
def reportBody (s : State) : List Byte :=
  let c := dget s 0x293001
  let x := ctxOf s c
  let i := s.boot.image.getD Image.initial
  let live := c < 64 && x.st != .free
  let syl := if live then x.syl else none
  let ofSyl (f : Syllabus → Nat) : Nat := match syl with
    | some y => f y
    | none => 0
  leBytes 4 0x54544153 ++ leBytes 2 0x0100 ++ leBytes 1 c ++ leBytes 1 (if live then ctxCode x.st else 0) ++
  leBytes 4 s.fuse.product.toNat ++ leBytes 4 s.fuse.serial.toNat ++ leBytes 32 (dget s 0x293002) ++ leBytes 32 i.measure.toNat ++
  leBytes 4 i.version.toNat ++ leBytes 1 i.svn ++ leBytes 1 (rollback s.fuse) ++ leBytes 1 i.slot ++
  leBytes 1 s.fuse.revoked.toNat ++ leBytes 8 s.fclk ++ leBytes 32 (ofSyl fun y => leAt y.file 64 32) ++
  leBytes 8 (ofSyl fun y => leAt y.file 48 8) ++ leBytes 1 (ofSyl fun y => y.level) ++ leBytes 1 (b2n (live && x.lc)) ++
  leBytes 1 (ofSyl fun y => y.policy) ++ leBytes 1 0 ++ leBytes 32 (ofSyl fun y => y.signer) ++
  ((List.range 4).flatMap fun w => leBytes 1 (wingCode (wingOf s w).st)) ++ leBytes 1 s.health.remaps.length ++
  leBytes 1 (dget s 0x233001) ++ leBytes 1 (dget s 0x281001) ++ leBytes 1 (dget s 0x281002) ++ leBytes 76 0

/-- The signature of a report under the alias key (R453). -/
def reportSignature (s : State) (body : List Byte) : List Byte :=
  padTo 2420 (Config.mldsaSign (identNow s).secret (sha3 body) (ascii "SATT"))

/-- ATTESTATION_SIGNED: the captured report is signed, and the trigger reads 2. -/
def execAttestationSigned (s : State) : Host.Outcome State Fault Refusal :=
  act s fun s =>
    if s.attest.1 != 1 then s
    else { s with attest := (2, s.attest.2.take 256 ++ reportSignature s (s.attest.2.take 256)) }

/-- A chunk of 1,024 bytes of the item that 0x2930:04 selects, zero beyond its end. -/
def attestChunk (s : State) : List Byte :=
  let sel := dget s 0x293004
  let item := match sel / 16 with
    | 0 => s.attest.2
    | 1 => (identNow s).endorse
    | _ => (identNow s).device
  padTo 1024 ((item.drop (1024 * (sel % 16))).take 1024)

end Sys2Proof.Machine
end

