-- ==== Sys2Proof/Machine/Module.lean ====
section
/-! DEFINITION. What a carrier meets at the module: the rails and the input with the commands that their voltages lead to (R460, R461,
R464), the pins of the sideband connector and their levels (R465, R466), the optical receptacles and their fibres (R471 to R473, R475),
and the feed of the cold plate (R477). -/

namespace Sys2Proof.Machine

/-! ## Rails and input (R460, R461, R464) -/

/-- The target in mV of a rail by its bit in the rail status word, at an ACLK for VCMP (R461, R463, R481). -/
def railTarget (bit aclk : Nat) : Nat :=
  if bit < 8 then [12000, 3300, 1800, 800].getD bit 0
  else [750, 800, 1050, 400, 900, vcmpAt aclk].getD ((bit - 8) % 6) 0

/-- A voltage lies within so many percent of a target. -/
def nearTo (percent mv target : Nat) : Bool := decide (100 * (mv - target + (target - mv)) ≤ percent * target)

/-- A rail regulates (R461). -/
def regulates (bit aclk mv : Nat) : Bool := nearTo 3 mv (railTarget bit aclk)

/-- The command that a voltage of a rail leads to, once it has lasted as long as R464 asks for. -/
def railReading (bit aclk mv : Nat) : Instr :=
  if nearTo 5 mv (railTarget bit aclk) then .voltageToleranceChange bit (regulates bit aclk mv)
  else if bit < 8 then .railFault
  else match (bit - 8) % 6 with
    | 4 => .voptFault ((bit - 8) / 6)
    | 5 => .vcmpFault ((bit - 8) / 6)
    | _ => .railFault

/-- The commands that a change of the input voltage, in 10 mV, leads to (R460, R464). -/
def inputReading (old new : Nat) : List Instr :=
  (if old < 4600 && 4600 ≤ new then [.inputStartThreshold] else []) ++
  (if 4400 ≤ old && new < 4400 then [.inputUndervoltage] else []) ++
  (if (old ≤ 5800) != (new ≤ 5800) then [.voltageToleranceChange 32 (decide (new ≤ 5800))] else []) ++
  (if old ≤ 6000 && 6000 < new then [.inputOvervoltage] else [])

/-! ## The sideband connector (R465, R466) -/

/-- Where a pin's signal goes. -/
inductive PinDir
  | input | output | ground | reserved
  deriving DecidableEq, Repr

/-- The signals of J5 with their pins, row A as 1 to 20 and row B as 21 to 40. PRESENT_n is tied to ground in the module. -/
def sideband : List (String × PinDir × List Nat) :=
  [("GND", .ground, [1, 4, 7, 10, 14, 19, 20, 21, 23, 28, 30, 39, 40]), ("BELL_A", .input, [2, 3]), ("BELL_B", .input, [5, 6]),
   ("BELL_Z", .input, [8, 9]), ("PWR_EN", .input, [11]), ("RESET_n", .input, [12]), ("PRESENT_n", .ground, [13]),
   ("PWR_OK", .output, [15]), ("ALERT_n", .output, [16]), ("THERM_n", .output, [17]), ("READY_n", .output, [18]),
   ("TCK", .input, [22]), ("TMS", .input, [24]), ("TDI", .input, [25]), ("TDO", .output, [26]), ("TRST_n", .input, [27]),
   ("VREF_JTAG", .output, [29]), ("", .reserved, [31, 32, 33, 34, 35, 36, 37, 38])]

/-- PWR_EN reads high or low at a level in mV; between the two the input is not defined (R466). -/
def pwrEnReads (mv : Nat) : Option Bool := if 2000 ≤ mv then some true else if mv ≤ 800 then some false else none

/-- A low of RESET_n by its length in ns: one of 10 µs acts, one shorter than 1 µs is ignored, and the spec leaves those between open
(R466). -/
def resetLow (ns : Nat) : Option Bool := if 10000 ≤ ns then some true else if ns < 1000 then some false else none

/-! ## Optical receptacles (R471 to R473, R475) -/

/-- The receptacle OPT-wq of a Trien port: the wing and q. -/
def receptacle (port : Nat) : Nat × Nat := (port / 16, port % 16 / 2)

/-- The position of a port's transmit lane `k` in its receptacle (R472). -/
def fibreTx (port k : Nat) : Nat := if port % 2 = 0 then 1 + k else 6 + k

/-- The position of a port's receive lane `k` in its receptacle (R472). -/
def fibreRx (port k : Nat) : Nat := if port % 2 = 0 then 24 - k else 19 - k

/-- Positions without a fibre (R472). -/
def fibreDark (n : Nat) : Bool := decide (11 ≤ n) && decide (n ≤ 14)

/-- The position that a position meets over a Type-B trunk (R472). -/
def trunk (n : Nat) : Nat := 25 - n

/-- A lane detects light at a power in 0.01 dBm (R473). -/
def lightSeen (power : Int) : Bool := decide (-900 ≤ power)

/-- A Trien port transmits in every link state except DISABLED (R475). -/
def portTransmits (s : State) (p : Nat) : Bool := (tportOf s p).link != .disabled

/-! ## The cold plate (R477) -/

/-- The coolant feed is within its limits: flow in 0.01 L/min, inlet in 0.1 °C. -/
def feedOk (flow : Nat) (inlet : Int) (glycol : Bool) : Bool :=
  decide ((if glycol then 450 else 400) ≤ flow) && decide (flow ≤ 800) && decide (150 ≤ inlet) && decide (inlet ≤ 400)

end Sys2Proof.Machine
end

