-- ==== Sys2Proof/Machine/Dictionary.lean ====
section
/-! DEFINITION. The object dictionary (R408): which objects there are, their size, access and range, and what a read returns. -/

namespace Sys2Proof.Machine

/-! ## The objects (R49, R108, R202, R231, R253, R278, R299, R311, R330, R364, R394, R396, R398, R409, R411, R437, R458, R480) -/

/-- Who may write an object: nobody; the master, and a host under the lease; each requester its own copy; the master alone. -/
inductive Acc
  | ro | rw | own | ecat
  deriving DecidableEq, Repr

/-- An object: its size in bytes, access, and the range of what may be written. -/
structure Od where
  size : Nat
  acc : Acc
  lo : Nat
  hi : Nat
  deriving DecidableEq, Repr

def ro (n : Nat) : Od := { size := n, acc := .ro, lo := 0, hi := 0 }
def rw (n lo hi : Nat) : Od := { size := n, acc := .rw, lo := lo, hi := hi }
def whole (n : Nat) : Od := { size := n, acc := .rw, lo := 0, hi := 2 ^ (8 * n) - 1 }
def own (n lo hi : Nat) : Od := { size := n, acc := .own, lo := lo, hi := hi }
def ecat (n lo hi : Nat) : Od := { size := n, acc := .ecat, lo := lo, hi := hi }

/-- Subindices from `a` on, with their objects. -/
def rowFrom (a : Nat) (l : List Od) : List (Nat × Od) := (List.range l.length).map fun i => (a + i, l.getD i (ro 1))

/-- The measurement of the running image, 0 before one runs. -/
def runningMeasure (s : State) : Nat := match s.boot.image with
  | some i => i.measure.toNat
  | none => 0

/-- The hardware version of the fused stepping, or the software version of the running firmware (R409). -/
def versionText (s : State) (index : Nat) : List Byte :=
  Config.text index (if index = 0x1009 then s.fuse.revision.toNat else runningMeasure s)

/-- The objects of an index below 0x2500 except subindex 0. -/
def lowRow (s : State) (index : Nat) : List (Nat × Od) :=
  match index with
  | 0x1000 => [(0, ro 4)]
  | 0x1001 => [(0, ro 1)]
  | 0x1003 => (0, rw 1 0 0) :: rowFrom 1 (List.replicate 16 (ro 4))
  | 0x1008 => [(0, ro 25)]
  | 0x1009 => [(0, ro (versionText s 0x1009).length)]
  | 0x100A => [(0, ro (versionText s 0x100A).length)]
  | 0x1018 => rowFrom 1 (List.replicate 4 (ro 4))
  | 0x1A00 => rowFrom 1 (List.replicate 8 (ro 4))
  | 0x1C00 => rowFrom 1 (List.replicate 4 (ro 1))
  | 0x1C13 => [(1, ro 2)]
  | 0x1C33 => [(1, rw 2 0 2), (2, ro 4)]
  | 0x2000 => [(1, ro 2), (2, ro 4), (4, ro 4), (5, own 1 0 3), (6, ro 4)]
  | 0x2010 => [(1, rw 1 0 1), (2, ro 2)]
  | 0x2011 => [(1, rw 1 0 1), (2, ro 4)]
  | 0x2012 => [(1, ro 4), (2, ro 2)]
  | 0x2020 => [(1, rw 2 1024 65535), (2, ro 4), (3, ro 4), (4, ro 4)]
  | 0x2060 => rowFrom 1 (List.replicate 5 (rw 1 0 1))
  | 0x2061 => [(1, rw 4 10 600000), (2, ro 4)]
  | 0x2100 => [(1, rw 2 1500 (if isSmall s then 3500 else 4600)), (2, ro 2), (3, ro 2), (4, ro 1), (5, rw 2 1800 3600)]
  | 0x2200 => [(1, ro 4), (2, ro 4), (3, ro 2), (4, ro 2), (5, rw 2 1 168), (6, ro 1), (7, ro 8)]
  | 0x2300 => [(1, ro 4), (2, rw 4 64 16777216), (3, ro 4), (4, ro 4), (5, ro 4)]
  | 0x2310 => [(1, rw 4 100 10000000), (2, rw 4 0 3600000), (3, rw 1 0 63), (4, rw 1 1 1), (5, own 4 0 0xFFFFFFFF), (6, ro 32),
               (7, ro 4), (8, ro 4), (9, ro 160)]
  | 0x2330 => [(1, rw 1 0 1), (2, own 1 0 63), (3, ro 16), (4, ro 4), (5, ro 4)]
  | 0x2340 => [(1, rw 4 100 100000), (2, own 1 0 63), (3, ro 32), (4, rw 1 0 63), (5, rw 4 1000 10000000),
               (6, rw 4 20 100000), (7, ro 4), (8, ro 4), (9, ro 1)]
  | 0x2350 => [(1, own 8 0 (2 ^ 64 - 1)), (2, own 2 4 1024), (3, ro 1024)]
  | 0x2420 => [(1, rw 2 0 0x3FFF), (2, ro 64), (3, rw 1 1 3)]
  | _ => []

/-- The objects of an index from 0x2500 on except subindex 0. -/
def highRow (s : State) (index : Nat) : List (Nat × Od) :=
  let top := numChans s - 1
  match index with
  | 0x2500 => rowFrom 1 [rw 1 0 3, rw 1 0 255, rw 1 0 2, rw 4 0 0xFFFFFFFF, rw 1 1 50, rw 4 10 10000000]
  | 0x2501 => rowFrom 1 [rw 1 0 255, rw 4 100 1000000000, whole 8, rw 1 0 1, whole 2, whole 2, whole 2, whole 2]
  | 0x2502 => rowFrom 1 (List.replicate 8 (ro 8))
  | 0x2503 => rowFrom 1 (List.replicate 8 (ro 4))
  | 0x2510 => [(1, rw 2 0 4095), (2, whole 16)]
  | 0x2600 => rowFrom 1 [ro 4, rw 4 100 1000000, rw 4 1 60000, rw 4 1000 10000000, rw 4 1000 240000, rw 4 5 10000]
  | 0x2610 => [(1, own 2 0 top), (2, ro 32), (3, ro 32)]
  | 0x2700 => rowFrom 1 [ro 4, rw 4 100 600000, rw 4 0 3600000, ro 4, ro 2, ro 2, ro 4]
  | 0x2720 => rowFrom 1 [ro 1, ro 1, rw 4 1000 600000, ro 4, ecat 1 1 1]
  | 0x2800 => [(1, ro 2), (2, ro 4)]
  | 0x2810 => rowFrom 1 [rw 1 0 2, rw 1 0 (if isSmall s then 0 else 2), rw 4 2 10000, ro 4, ro 4]
  | 0x2830 => rowFrom 1 (List.replicate 5 (ro 1))
  | 0x2840 => [(1, ro 1), (2, rw 4 100 1000000)]
  | 0x2850 => [(1, rw 1 0 63), (2, ro 16), (3, ro 1)]
  | 0x2900 => rowFrom 1 [ro 1, ecat 1 0 255, ro 4, ro 1, ro 1]
  | 0x2910 => rowFrom 1 [ro 1, ro 1, ro 1, ro 1, ecat 1 1 1, ro 32]
  | 0x2920 => (1, ecat 1 0 1) :: rowFrom 2 (List.replicate 8 (ecat 32 0 (2 ^ 256 - 1)))
  | 0x2930 => rowFrom 1 [rw 1 0 255, whole 32, rw 1 1 1, rw 1 0 255, ro 1024]
  | 0x2A00 => [(1, ro 2), (2, ro 2), (3, ro 4)]
  | 0x2A10 => rowFrom 1 (List.replicate 13 (ro 2))
  | 0x2A20 => rowFrom 1 [ro 2, ro 2, ro 2, ro 1, rw 2 300 650]
  | _ =>
    if 0x2520 ≤ index && index < 0x2528 then
      rowFrom 1 [rw 1 0 1, rw 1 0 7, rw 2 0 4095, rw 2 1 4096, rw 8 0 (2 ^ 48 - 1), rw 8 0 (2 ^ 48 - 1), rw 1 0 255, rw 1 0 3,
                 rw 4 0 10000000, ro 32, ro 2]
    else if 0x2640 ≤ index && index < 0x2640 + numPorts s then
      rowFrom 1 [rw 1 0 1, ro 1, ro 2, ro 2, ro 4, ro 4, ro 4, ro 4, ro 4, ro 4, ro 8, ro 4]
    else if 0x2710 ≤ index && index < 0x2720 then rowFrom 1 [whole 16, rw 1 0 1, ro 1, ro 1]
    else if 0x2730 ≤ index && index < 0x2734 then
      rowFrom 1 [rw 1 0 1, ro 1, ro 8, whole 4, whole 16, rw 2 1 65535, rw 1 0 255, rw 1 0 127, ro 4, ro 1, ro 4, ro 4]
    else if 0x2820 ≤ index && index < 0x2824 then rowFrom 1 [ro 1, rw 1 0 1, ro 1, ro 4, ro 4, ro 2]
    else if 0x2A30 ≤ index && index < 0x2A34 then rowFrom 1 [ro 160, ro 160, ro 8, ro 8]
    else []

/-- The objects of an index. Where the tables list no subindex 0 it holds the highest subindex (PRESUMED: CANopen; log entry
38). -/
def objRow (s : State) (index : Nat) : List (Nat × Od) :=
  match lowRow s index ++ highRow s index with
  | [] => []
  | l => if l.any fun e => e.1 = 0 then l else (0, ro 1) :: l

/-- An object, or the abort code of R415 for an absent index or subindex. -/
def locate (s : State) (index sub : Nat) : Except Nat Od :=
  match objRow s index with
  | [] => .error 0x06020000
  | l => match l.find? fun e => e.1 = sub with
    | some e => .ok e.2
    | none => .error 0x06090011

/-- Values that a range of the tables leaves out between its bounds, and reserved codes. -/
def gapOk (s : State) (index sub v : Nat) : Bool :=
  let off (top : Nat) : Bool := v ≤ top
  match index, sub with
  | 0x1C33, 1 => v != 1
  | 0x2020, 1 => v != 4791
  | 0x2100, 5 => v % 100 = 0
  | 0x2350, 1 => daKind v != 3 && daOff v % 4 = 0
  | 0x2350, 2 => v % 4 = 0
  | 0x2500, 4 => v = 0 || 8 ≤ v
  | 0x2501, 1 => off 3 || v = 0xFF
  | 0x2501, _ => sub < 5 || off (numChans s - 1) || v = 0xFFFF
  | 0x2900, 2 => v = 0xA5 || v = 0x5A
  | 0x2930, 1 => off 63 || v = 0xFF
  | 0x2930, 4 => v / 16 ≤ 2 && v % 16 ≤ 3
  | _, _ =>
    if 0x2520 ≤ index && index < 0x2528 then (sub != 2 || v != 3) && (sub != 7 || off 63 || v = 0xFF)
    else if 0x2730 ≤ index && index < 0x2734 then (sub != 6 || off 4094 || v = 0xFFFF) && (sub != 7 || off 7 || v = 0xFF)
    else true

/-- Reserved bits of a write are discarded (R16). -/
def keepBits (index sub v : Nat) : Nat :=
  match index, sub with
  | 0x2310, 5 => Nat.land v 0xFFFBFFFF
  | 0x2350, 1 => Nat.land v 0x3FFFFF00FFFFFFFF
  | _, _ => v

/-! ## Requesters (R404) -/

/-- The number of a requester: 0 the master, h + 1 host h. -/
def reqNum : Requester → Nat
  | .master => 0
  | .host h => h + 1

/-- Where a requester's copy of a per-requester object is kept. -/
def ownKey (r : Requester) (index sub : Nat) : Nat := 0x1000000 * (reqNum r + 1) + okey index sub

/-- The value that a requester has selected. -/
def ownGet (s : State) (r : Requester) (index sub : Nat) : Nat := dget s (ownKey r index sub)

/-! ## Readings without a value in the spec -/

/-- A reading at this instant: its default before any device time has passed, and later a value that the spec does not give and
that is free (log entry 39). -/
def reading (s : State) (key : Nat) : Nat := if s.fclk = 0 then 0 else Config.reading (key + 2 ^ 40 * s.fclk)

/-- An optical power of a lane: 0x8000 without light (R480). -/
def powerBytes (s : State) (key : Nat) (lit : Bool) : List Byte := leBytes 2 (if lit && s.fclk != 0 then reading s key else 0x8000)

/-- Trien powers of a wing: local port j, lane k at byte 10j + 2k. -/
def trienPowers (s : State) (w : Nat) (tx : Bool) : List Byte :=
  (List.range 80).flatMap fun i =>
    let p := 16 * w + i / 5
    let t := tportOf s p
    let lit := p < numPorts s && !(s.power.opticsOff.getLsbD w) &&
      (if tx then portTransmits s p else t.lit.getLsbD (i % 5))
    powerBytes s (2 ^ 20 + 1000 * w + 2 * i + b2n tx) lit

/-- Powers of a wing's host port. No command says which of its lanes receive light: the receive power of a lane is free, and 0x8000 is one
of its values (log entry 39). -/
def hostPowers (s : State) (w : Nat) (tx : Bool) : List Byte :=
  (List.range 4).flatMap fun i =>
    let lit := !(s.power.opticsOff.getLsbD w) && (!tx || dget s (hportObj w 1) = 1)
    powerBytes s (2 ^ 21 + 1000 * w + 2 * i + b2n tx) lit

/-! ## Reading an object -/

/-- The hottest stack (R231). -/
def hottest (s : State) : Int := (s.clk.stack.take (numStacks s)).foldl max (s.clk.stack.headD 0)

/-- The context whose close 0x2340:04 has asked for, while it is pending (R299). -/
def forceClosing (s : State) : Nat :=
  let c := dget s 0x234004
  if c < 64 && (ctxOf s c).st == .closing then c else 0xFF

/-- The version windows (R407). -/
def window (i : Nat) : Nat := [0x02000201, 0x01000101, 0x01000101, 0x01000100].getD i 0

/-- The value of an object of an index below 0x2500, for a requester. -/
def lowVal (s : State) (r : Requester) (index sub : Nat) : Nat :=
  match index, sub with
  | 0x1001, _ => errorRegister s
  | 0x1003, 0 => s.health.history.length
  | 0x1003, i => (s.health.history.getD (i - 1) 0).toNat
  | 0x1008, _ => leNat (ascii (if isSmall s then "Jaovotex Leroa SJ-L3612-M" else "Jaovotex Leroa SJ-L4816-M"))
  | 0x1009, _ => leNat (versionText s 0x1009)
  | 0x100A, _ => leNat (versionText s 0x100A)
  | 0x1018, i => [0x00534A4C, s.fuse.product.toNat, s.fuse.revision.toNat, s.fuse.serial.toNat].getD (i - 1) 0
  | 0x1A00, i => [0x20100210, 0x21000310, 0x21000210, 0x22000410, 0x23400908, 0x00000008, 0x20120120, 0x20120210].getD (i - 1) 0
  | 0x1C00, i => [1, 2, 0, 4].getD (i - 1) 0
  | 0x1C13, _ => 0x1A00
  | 0x1C33, 2 => reading s 0x1C3302
  | 0x2000, 1 => 0x0100
  | 0x2000, 2 => (s.boot.image.map fun i => i.version.toNat).getD 0
  | 0x2000, 4 => window 3
  | 0x2000, 6 => window (ownGet s r 0x2000 5)
  | 0x2010, 1 => serviceRead s
  | 0x2010, 2 => deviceStatus s
  | 0x2012, 2 => sumOf ((List.range 8).map fun i => srcCode (srcOf s i).st * 4 ^ i)
  | 0x2060, g => gateRead s g
  | 0x2100, 2 => s.clk.aclk
  | 0x2100, 3 => s.clk.power
  | 0x2100, 4 => throttleCause s
  | 0x2200, 3 => if 85 < hottest s then 78 else 39
  | 0x2200, 4 => unsignedOf 16 (hottest s)
  | 0x2310, 4 => s.roll.state
  | 0x2310, 6 => (rollSelect s (ownGet s r 0x2310 5) false).getD 0
  | 0x2310, 9 => (rollSelect s (ownGet s r 0x2310 5) true).getD 0
  | 0x2330, 3 => (ctxOf s (ownGet s r 0x2330 2)).loadStatus
  | 0x2330, 4 => window 0
  | 0x2340, 3 => leNat (ctxRecord (ctxOf s (ownGet s r 0x2340 2)))
  | 0x2340, 4 => forceClosing s
  | 0x2340, 9 => (s.ctxs.filter fun e => e.2.lc && e.2.st != .free).length
  | 0x2420, 2 =>
    let v := dget s 0x242001
    let x := ctxOf s (v / 256)
    if x.syl.isSome then leNat (cardRecord (cardOf x (v % 256))) else 0
  | 0x2420, 3 => 0
  | _, _ => dget s (okey index sub)

/-- A field of a Trien port (R364). -/
def portVal (s : State) (p sub : Nat) : Nat :=
  let t := tportOf s p
  match sub with
  | 2 => linkCode t.link
  | 3 => t.version
  | 4 => t.map.toNat
  | 5 => t.rtt
  | 6 => t.uncorr
  | 7 => t.crcErr
  | 8 => t.replayed
  | 9 => t.retrains
  | 10 => 2 ^ 16 * t.trainFails + t.protoErr
  | 11 => t.partner.toNat
  | 12 => portStatus s p
  | _ => dget s (okey (0x2640 + p) sub)

/-- A field of a host port (R396). -/
def hportVal (s : State) (n sub : Nat) : Nat :=
  match sub with
  | 2 => b2n (hportUp s n)
  | 3 => (s.fuse.mac.getD n 0).toNat
  | 9 => unsignedOf 32 (ptpOf s n).offset
  | 10 => b2n (ptpOf s n).locked
  | _ => dget s (hportObj n sub)

/-- A field of a wing (R437). -/
def wingVal (s : State) (w sub : Nat) : Nat :=
  let x := wingOf s w
  match sub with
  | 1 => wingCode x.st
  | 2 => b2n x.fence
  | 3 => x.retired.getD 0xFF
  | 4 => x.corrections
  | 5 => x.uncorr
  | _ => x.cause.toNat

/-- A field of a timetable (R330). -/
def ttVal (s : State) (t sub : Nat) : Nat :=
  let x := ttOf s t
  match sub with
  | 1 => match x.state with
    | 1 => if inRun (ctxOf s (ttCtx s t)) then 2 else 1
    | n => n
  | 10 => leNat (ttRecord x)
  | 11 => x.error
  | _ => dget s (ttObj t sub)

/-- The temperatures of 0x2A10 (R480). -/
def tempVal (s : State) (sub : Nat) : Nat :=
  if sub = 13 then s.clk.thermTarget
  else unsignedOf 16 ((s.clk.compute ++ s.clk.base ++ s.clk.optic).getD (sub - 1) 0)

/-- The value of an object of an index from 0x2500 on, for a requester. -/
def highVal (s : State) (r : Requester) (index sub : Nat) : Nat :=
  match index, sub with
  | 0x2502, i => (srcOf s (i - 1)).phase
  | 0x2503, i => srcStatus (srcOf s (i - 1))
  | 0x2510, 2 => entryOf s (dget s 0x251001)
  | 0x2600, 1 => window 1
  | 0x2610, 2 => (chanOf s (ownGet s r 0x2610 1)).wd
  | 0x2610, 3 =>
    let c := ownGet s r 0x2610 1
    leNat (winRecord (chanOf s c) (wdKind (chanOf s c).wd = 1 && twinned s (ctxOf s (wdCtx (chanOf s c).wd))))
  | 0x2700, 1 => window 2
  | 0x2700, 4 => (s.queues.filter fun e => e.2.live).length
  | 0x2700, 5 => (s.mwins.filter fun e => e.2.st != 0).length
  | 0x2700, 6 => (s.conns.filter fun e => e.2.live).length
  | 0x2720, 1 => if leased s then s.lease.holder.getD 0xFF else 0xFF
  | 0x2720, 2 => s.lease.term
  | 0x2720, 4 => leaseLeft s
  | 0x2720, 5 => 0
  | 0x2830, 5 => s.health.split.toNat
  | 0x2830, b => b2n (s.health.bridges.getLsbD (b - 1))
  | 0x2840, 1 => ((List.range (numPorts s)).filter fun p => (tportOf s p).spareUsed).length
  | 0x2850, 2 => s.health.remaps.getD (dget s 0x285001) 0
  | 0x2850, 3 => s.health.remaps.length
  | 0x2900, 1 => (s.boot.image.map Image.path).getD 0
  | 0x2900, 2 => 0
  | 0x2900, 3 => s.boot.time
  | 0x2900, 4 => s.boot.step
  | 0x2900, 5 => s.boot.cause
  | 0x2910, 1 => (s.boot.image.map Image.svn).getD 0
  | 0x2910, 2 => rollback s.fuse
  | 0x2910, 3 => (s.boot.image.map Image.slot).getD 0
  | 0x2910, 4 => s.fuse.revoked.toNat
  | 0x2910, 5 => s.boot.commit
  | 0x2910, 6 => runningMeasure s
  | 0x2930, 3 => s.attest.1
  | 0x2930, 5 => leNat (attestChunk s)
  | 0x2A00, 1 => reading s 0x2A0001 % 6501
  | 0x2A00, 2 => reading s 0x2A0002 % 15001
  | 0x2A00, 3 => s.power.rails.toNat
  | 0x2A10, i => tempVal s i
  | 0x2A20, 1 => unsignedOf 16 s.clk.inlet
  | 0x2A20, 2 => unsignedOf 16 s.clk.outlet
  | 0x2A20, 3 => s.clk.flow
  | 0x2A20, 4 => s.clk.coolStatus.toNat
  | _, _ =>
    if 0x2520 ≤ index && index < 0x2528 then ttVal s (index - 0x2520) sub
    else if 0x2640 ≤ index && index < 0x2680 then portVal s (index - 0x2640) sub
    else if 0x2710 ≤ index && index < 0x2720 && sub = 3 then (hostOf s (index - 0x2710)).state
    else if 0x2710 ≤ index && index < 0x2720 && sub = 4 then min 255 (hostConns s (index - 0x2710))
    else if 0x2730 ≤ index && index < 0x2734 then hportVal s (index - 0x2730) sub
    else if 0x2820 ≤ index && index < 0x2824 then wingVal s (index - 0x2820) sub
    else if 0x2A30 ≤ index && index < 0x2A34 then
      leNat (if sub < 3 then trienPowers s (index - 0x2A30) (sub = 2) else hostPowers s (index - 0x2A30) (sub = 4))
    else dget s (okey index sub)

/-- The value of an object for a requester. -/
def objVal (s : State) (r : Requester) (index sub : Nat) (acc : Acc) : Nat :=
  if acc = .own then ownGet s r index sub
  else if sub = 0 && index != 0x1003 && (lowRow s index ++ highRow s index).all fun e => e.1 != 0 then
    ((lowRow s index ++ highRow s index).map Prod.fst).foldl max 0
  else if index < 0x2500 then lowVal s r index sub
  else highVal s r index sub

/-- A read of 0x2350:03: the context that holds the site must be the host's own; the master reads any site (R391, R394). -/
def debugData (s : State) (r : Requester) : Except Nat (List Byte) × State :=
  let addr := ownGet s r 0x2350 1
  let hs := holders s (daSite addr)
  let ctx := match r with
    | .master => hs.head?
    | .host h => hs.find? fun c => (ctxOf s c).host = h
  if r != .master && ctx.isNone then (.error 0x08000024, s)
  else match dbgRead s ctx addr (ownGet s r 0x2350 2) with
    | (.bytes bs, s) => (.ok (padTo 1024 bs), s)
    | (.state, s) => (.error 0x08000022, s)
    | (_, s) => (.error 0x08000024, s)

/-- One subindex read. A Roll Call select of a site outside the context's strips, or of a record that the readout does not have, aborts
with 0x0800_0024 (R254, R415). -/
def readObj (s : State) (r : Requester) (index sub : Nat) (o : Od) : Except Nat (List Byte) × State :=
  if index = 0x2350 && sub = 3 then debugData s r
  else if index = 0x2310 && (sub = 6 || sub = 9) && (rollSelect s (ownGet s r 0x2310 5) (sub == 9)).isNone then (.error 0x08000024, s)
  else (.ok (leBytes o.size (objVal s r index sub o.acc)), s)

/-- An upload; a complete access packs every subindex from `sub` on, subindex 0 padded to 16 bits (R397, R402; log entry 40). -/
def upload (s : State) (r : Requester) (index sub : Nat) (complete : Bool) : Except Nat (List Byte) × State :=
  match locate s index sub with
  | .error a => (.error a, s)
  | .ok o =>
    if !complete then readObj s r index sub o
    else ((objRow s index).filter fun e => decide (sub ≤ e.1)).foldl (fun (acc : Except Nat (List Byte) × State) e =>
      match acc with
      | (.error a, s) => (.error a, s)
      | (.ok bs, s) => match readObj s r index e.1 e.2 with
        | (.error a, s) => (.error a, s)
        | (.ok b, s) => (.ok (bs ++ if e.1 = 0 && b.length < 2 then padTo 2 b else b), s)) (.ok [], s)

end Sys2Proof.Machine
end

