-- ==== Sys2Proof/Machine/DictWrite.lean ====
section
/-! DEFINITION. Writes of dictionary objects (R402 to R405): the checks in order, the effect of each object, the answers, and the
commands that are writes of one object. -/

namespace Sys2Proof.Machine

/-! ## Answers -/

/-- The 20-byte header of a response with its data (R400). -/
def udpResponse (reqId term index sub complete abort : Nat) (data : List Byte) : List Byte :=
  leBytes 4 (0x4C44 * 2 ^ 16 + 0x0100) ++ leBytes 4 (reqId * 2 ^ 16 + term % 256 * 2 ^ 8 + 3) ++
  leBytes 4 (index * 2 ^ 16 + sub * 2 ^ 8 + complete) ++ leBytes 4 (data.length * 2 ^ 16) ++ leBytes 4 abort ++ data

/-- The form of an SDO transfer of `n` bytes: 4 bytes are expedited, what the mailbox of 512 B has room for after its header, the CoE header
and the SDO header is normal, and the rest goes in segments, after a first message of 496 bytes 503 in each (R397; PRESUMED of the headers
of CoE, log entry 40). -/
def sdoForm (n : Nat) : SdoForm :=
  if n ≤ 4 then .expedited else if n ≤ 496 then .normal else .segmented (ceilDiv (n - 496) 503)

/-- The master's answer to an SDO request. -/
def coeAnswer (s : State) (abort : Nat) (data : List Byte) : State := emit s (.coe abort (sdoForm data.length) data)

/-- The answer to a request that carries no REQ_ID. -/
def answer (s : State) (r : Requester) (term index sub abort : Nat) (data : List Byte) : State :=
  match r with
  | .master => coeAnswer s abort data
  | .host h => emit s (.udp h none (udpResponse 0 term index sub 0 abort data))

/-! ## Gates (R411, R413) -/

/-- Stream windows close, but for a RING window whose turn is RUNNING (R413). -/
def quiesceStreams (s : State) : State :=
  (s.chans.map Prod.fst).foldl (fun s c =>
    let w := chanOf s c
    if (w.st == .opened || w.st == .opening) && !(ringActive s w.wd) then startClose s c none none else s) s

/-- Memory windows close (R386, R413). -/
def quiesceMemory (s : State) : State :=
  { s with mwins := s.mwins.map fun (e : Nat × MWin) => (e.1, if e.2.st = 1 then { e.2 with st := 2 } else e.2) }

/-- A write of 0 or 1 to a function gate (R413). -/
def writeGate (s : State) (g v : Nat) : State :=
  if v = 1 then { s with gates := sset (0, 0) s.gates g (0, 0) }
  else if gateRead s g != 1 then s
  else
    let s := { s with gates := sset (0, 0) s.gates g (1, s.fclk) }
    match g with
    | 4 => quiesceStreams s
    | 5 => quiesceMemory s
    | _ => s

/-- A write of the service object writes every gate at once (R411). -/
def writeService (s : State) (v : Nat) : State := [1, 2, 3, 4, 5].foldl (fun s g => writeGate s g v) s

/-! ## What a write does -/

/-- A write that is refused leaves the state. -/
def refuseWrite (s : State) (abort : Nat) : Nat × State := (abort, s)

/-- Some GID of another enabled host equals this one (R370). -/
def gidTaken (s : State) (h gid : Nat) : Bool :=
  (List.range 16).any fun i => i != h && dget s (hostObj i 2) = 1 && dget s (hostObj i 1) = gid

/-- The effect of a write of an object below 0x2500, or its refusal in the present state. -/
def lowWrite (s : State) (index sub v : Nat) : Nat × State :=
  let put := dset s (okey index sub) v
  match index, sub with
  | 0x1003, _ => (0, { s with health := { s.health with history := [] } })
  | 0x2010, _ => (0, writeService s v)
  | 0x2060, g => (0, writeGate s g v)
  | 0x2100, 5 => (0, ceilingMoved put)
  | 0x2310, 4 =>
    if s.roll.state = 1 then refuseWrite s 0x08000022
    else (0, { s with roll := { s.roll with state := 1, ctx := dget s 0x231003 } })
  | 0x2340, 4 => if (ctxOf s v).st == .free then refuseWrite s 0x08000024 else (0, beginClose put v none)
  | 0x2420, 3 =>
    let sel := dget s 0x242001
    if (ctxOf s (sel / 256)).syl.isNone then refuseWrite s 0x08000024
    else (0, requestReset s (sel / 256) (sel % 256) v none)
  | _, _ => (0, put)

/-- The sources that an object of 0x2500 or 0x2501 belongs to (R311). -/
def srcsOfObj (index sub : Nat) : List Nat :=
  if index = 0x2500 then (if sub = 5 then [0, 2, 4, 5, 6, 7] else if sub = 6 then [0, 1, 2, 4, 5, 6, 7] else [0])
  else if sub ≤ 3 then [1] else if sub = 4 then [2] else [sub - 1]

/-- A write of a phase-source object (R311). -/
def srcWrite (s : State) (index sub v : Nat) : Nat × State :=
  let n := if index = 0x2500 && sub = 4 then v else dget s 0x250004
  let mode := if index = 0x2500 && sub = 3 then v else dget s 0x250003
  if (index = 0x2500 && (sub = 3 || sub = 4)) && mode = 1 && n < 8 then refuseWrite s 0x06090030
  else
    let srcs := srcsOfObj index sub
    if (List.range 8).any fun t => (ttOf s t).state = 1 && srcs.contains (ttSource s t) then refuseWrite s 0x08000022
    else (0, srcs.foldl configureSrc (dset s (okey index sub) v))

/-- A range of an enabled timetable is checked as R318 does; the result of the check is its enable error. -/
def ttChecked (s : State) (t first count : Nat) (f : State → State) : Nat × State :=
  match rangeFault s t first count with
  | some e => (0x06090030, modTt s t fun x => { x with error := e })
  | none => (0, f s)

/-- A write of a timetable object (R318, R329). -/
def ttWrite (s : State) (t sub v : Nat) : Nat × State :=
  let live := (ttOf s t).state = 1
  let put := dset s (ttObj t sub) v
  let bound := decide (ttCtx s t < 64) && (ctxOf s (ttCtx s t)).st != .free && (ctxOf s (ttCtx s t)).lc &&
    (ctxOf s (ttCtx s t)).tt = t
  match sub with
  | 1 =>
    if v = 0 then (0, ttDisable s t)
    else if live then (0, s)
    else ttChecked s t (dget s (ttObj t 3)) (dget s (ttObj t 4)) fun s => ttEnable s t
  | 3 => if live then ttChecked s t v (dget s (ttObj t 4)) fun _ => put else (0, put)
  | 4 => if live then ttChecked s t (dget s (ttObj t 3)) v fun _ => put else (0, put)
  | 7 => if live || bound then refuseWrite s 0x08000022 else (0, put)
  | 2 | 5 | 6 => if live then refuseWrite s 0x08000022 else (0, put)
  | _ => (0, put)

/-- A write of a Trien port enable (R339, R360). -/
def trienWrite (s : State) (p v : Nat) : State :=
  let s := dset s (okey (0x2640 + p) 1) v
  if v = 0 then loseWindows (if (tportOf s p).link == .disabled then s else linkTo s p .disabled) p
  else if (tportOf s p).link == .disabled then modTport (linkTo s p .down) p fun t => { t with cause := 0 } else s

/-- A write of a host's GID or enable (R370, R396). -/
def hostWrite (s : State) (h sub v : Nat) : Nat × State :=
  let put := dset s (hostObj h sub) v
  if sub = 1 then
    if (hostOf s h).state = 1 || (dget s (hostObj h 2) = 1 && (v = 0 || gidTaken s h v)) then refuseWrite s 0x08000022 else (0, put)
  else
    let gid := dget s (hostObj h 1)
    if v = 1 && (gid = 0 || gidTaken s h gid) then refuseWrite s 0x08000022 else (0, put)

/-- A write of a host port object: its enable moves the link, and a changed address, VLAN or PFC priority drops its connections
(R396). -/
def hportWrite (s : State) (n sub v : Nat) : State :=
  let old := dget s (hportObj n sub)
  let s := dset s (hportObj n sub) v
  let b : BitVec 4 := BitVec.ofNat 4 (2 ^ n)
  match sub with
  | 1 =>
    if v = 0 then losePort { s with hlink := s.hlink &&& ~~~b } n
    else if s.power.opticsOff.getLsbD n then s else { s with hlink := s.hlink ||| b }
  | 4 | 5 | 6 | 7 => if v = old then s else losePort s n
  | _ => s

/-- A write of a twin pair object (R431, R436): twin mode is set while both wings are ACTIVE, and ends while they are twins. The pair C
and D of SJ-L3612-M, whose wing D is never ACTIVE, accepts 0, and stays without twins (R5). -/
def twinWrite (s : State) (pair v : Nat) : Nat × State :=
  let a := (wingOf s (2 * pair)).st
  let b := (wingOf s (2 * pair + 1)).st
  let both := a == .active && b == .active
  let twins := (a == .twinPrimary && b == .twinShadow) || (a == .twinShadow && b == .twinPrimary)
  if isSmall s && pair = 1 then (0, dset s (0x281001 + pair) v)
  else if pairHeld s pair || !(both || (v = 0 && twins)) then refuseWrite s 0x08000022
  else (0, setTwins (dset s (0x281001 + pair) v) pair v)

/-- A write of a wing fence (R436). -/
def fenceWrite (s : State) (w v : Nat) : Nat × State :=
  let x := wingOf s w
  if v = 1 then
    if x.st == .twinPrimary || x.st == .twinShadow then refuseWrite s 0x08000022
    else
      let s := modWing s w fun x => { x with fence := true }
      (0, if x.st == .active then wingTo s w .fenced 0 else s)
  else if s.health.split.getLsbD w || (isSmall s && w = 3) || x.st == .failed then refuseWrite s 0x08000022
  else
    let s := modWing s w fun x => { x with fence := false }
    (0, if x.st == .fenced then wingTo s w .active 0 else s)

/-- The effect of a write of an object from 0x2500 on, or its refusal in the present state. A reset that 0x2900:02 asks for begins
after the answer. -/
def highWrite (s : State) (index sub v : Nat) : Nat × State :=
  let put := dset s (okey index sub) v
  match index, sub with
  | 0x2500, _ => srcWrite s index sub v
  | 0x2501, _ => srcWrite s index sub v
  | 0x2510, 2 =>
    let i := dget s 0x251001
    if entryLocked s i then refuseWrite s 0x08000022 else (0, { s with entries := sset 0 s.entries i v })
  | 0x2720, 5 => (0, if leased s then endLease s 2 else s)
  | 0x2810, 1 => twinWrite s 0 v
  | 0x2810, 2 => twinWrite s 1 v
  | 0x2900, _ => if s.boot.commit = 1 then refuseWrite s 0x08000022 else (0, s)
  | 0x2910, _ => if s.boot.commit = 1 then refuseWrite s 0x08000022 else (0, startCommit s)
  | 0x2930, 3 => if s.attest.1 = 1 then refuseWrite s 0x08000022 else (0, { s with attest := (1, reportBody s) })
  | 0x2930, 4 => (0, put)
  | 0x2930, _ => if s.attest.1 = 1 then refuseWrite s 0x08000022 else (0, put)
  | 0x2A20, _ =>
    let c := s.clk.coolStatus
    let bit : BitVec 8 := if outletHigh put s.clk.outlet then 4 else 0
    (0, { put with clk := { s.clk with coolStatus := c &&& 0xFB ||| bit } })
  | _, _ =>
    if 0x2520 ≤ index && index < 0x2528 then ttWrite s (index - 0x2520) sub v
    else if 0x2640 ≤ index && index < 0x2680 then (0, trienWrite s (index - 0x2640) v)
    else if 0x2710 ≤ index && index < 0x2720 then hostWrite s (index - 0x2710) sub v
    else if 0x2730 ≤ index && index < 0x2734 then (0, hportWrite s (index - 0x2730) sub v)
    else if 0x2820 ≤ index && index < 0x2824 then fenceWrite s (index - 0x2820) v
    else (0, put)

/-- The effect of a write whose value is in range. -/
def writeObj (s : State) (r : Requester) (index sub v : Nat) (acc : Acc) : Nat × State :=
  if acc = .own then (0, dset s (ownKey r index sub) v)
  else if index < 0x2500 then lowWrite s index sub v
  else highWrite s index sub v

/-! ## The checks of a write, in order -/

/-- A host write that the lease does not carry (R388, R405). -/
def leaseStops (s : State) (r : Requester) (term : Nat) (acc : Acc) : Bool :=
  match r, acc with
  | .host h, .rw => term = 0 || !(holdsLease s h term)
  | _, _ => false

/-- The abort code of a value outside its object's range (R51, R415). -/
def rangeAbort (index sub v : Nat) (o : Od) : Nat :=
  if index = 0x2100 && sub = 1 then (if o.hi < v then 0x06090031 else 0x06090032) else 0x06090030

/-- The value lies in the range of its object. -/
def inRange (s : State) (index sub v : Nat) (o : Od) : Bool := decide (o.lo ≤ v) && decide (v ≤ o.hi) && gapOk s index sub v

/-- A write at its turn (R402, R404, R405): it is judged on its object, its form, the lease, the value and the present state, and
takes effect whole or not at all. SM3's sync mode in OP is refused before its value is judged (R398). -/
def dictWrite (s : State) (r : Requester) (term index sub : Nat) (data : List Byte) : Nat × State :=
  match locate s index sub with
  | .error a => (a, s)
  | .ok o =>
    let host := r != .master
    if o.acc = .ro then (0x06010002, s)
    else if o.acc = .ecat && host then (0x06010002, if index = 0x2720 then bump s 0x202004 1 else s)
    else if o.size < data.length then (0x06070012, s)
    else if data.length < o.size then (0x06070013, s)
    else if leaseStops s r term o.acc then (0x08000021, bump s 0x202004 1)
    else
      let v := leNat data
      if index = 0x1C33 && s.boot.alState == .op then (0x08000022, s)
      else if !(inRange s index sub v o) then (rangeAbort index sub v o, s)
      else writeObj s r index sub (keepBits index sub v) o.acc

/-! ## Requests at MC0 -/

/-- The CoE mailbox answers: the slave runs, in PREOP or above (R397, R438). -/
def mailboxUp (s : State) : Bool := decide (2 ≤ s.boot.step) && s.boot.alState != .init

/-- The host is enabled (R370). -/
def hostEnabled (s : State) (h : Nat) : Bool := decide (h < 16) && dget s (hostObj h 2) = 1 && dget s (hostObj h 1) != 0

/-- A request of a row without a datagram reaches MC0, or is dropped: before the dictionary is online the master hears 0x08000022
and a host nothing; a host that is not enabled is dropped and counted (R401, R406). -/
def reach (s : State) (r : Requester) (term index sub : Nat) (f : State → State) : State :=
  match r with
  | .master =>
    if !(mailboxUp s) then s
    else if s.boot.step < 7 then answer s r term index sub 0x08000022 []
    else f s
  | .host h =>
    if s.boot.step < 7 then s
    else if !(hostEnabled s h) then bump s 0x202002 1
    else f s

/-- The reset that an accepted write asks for begins once the write has been answered (R455, R456). -/
def thenReset (abort index sub v : Nat) (s : State) : State :=
  if abort != 0 || index != 0x2900 || sub != 2 then s
  else if v = 0xA5 then fullReset s 2
  else planeReset s

/-- A write is performed and answered. -/
def serveWrite (s : State) (r : Requester) (term index sub : Nat) (data : List Byte) : State :=
  reach s r term index sub fun s =>
    let q := dictWrite s r term index sub data
    thenReset q.1 index sub (leNat data) (answer q.2 r term index sub q.1 [])

/-- The data of a value: a value too wide for its object makes data longer than the object. -/
def valueData (s : State) (index sub v : Nat) : List Byte :=
  let n := match locate s index sub with
    | .ok o => o.size
    | .error _ => 0
  if v < 2 ^ (8 * n) then leBytes n v else leBytes (n + 1) v

/-- A row that writes one value to an object. `ok` says that the row's operand names one of the objects; a number beyond them
is an index that the dictionary lacks (R415). -/
def writeRow (ok : Bool) (r : Requester) (term index sub v : Nat) (s : State) : Host.Outcome State Fault Refusal :=
  let index := if ok then index else 0xFFFF
  act s fun s => serveWrite s r term index sub (valueData s index sub v)

/-! ## Commands that write one object -/

/-- A write of any object; only one of the reset request may cut off a commit, and so change fuses (R447). -/
def writeAny (s : State) (r : Requester) (term index sub : Nat) (data : List Byte) : Host.Outcome State Fault Refusal :=
  if index = 0x2900 && sub = 2 then actFuse s fun s => serveWrite s r term index sub data
  else act s fun s => serveWrite s r term index sub data

/-- DICT_WRITE: a write of any object (R402). -/
def execDictWrite (req : Requester) (term index sub : Nat) (data : List Byte) (s : State) : Host.Outcome State Fault Refusal :=
  writeAny s req term index sub data

/-- POWER_CAP_WRITE, R51. -/
def execPowerCapWrite (req : Requester) (term value : Nat) (s : State) : Host.Outcome State Fault Refusal :=
  writeRow true req term 0x2100 1 value s

/-- ACLK_CEILING_WRITE: ACLK starts to step down to a lower ceiling at once (R51). -/
def execAclkCeilingWrite (req : Requester) (term value : Nat) (s : State) : Host.Outcome State Fault Refusal :=
  writeRow true req term 0x2100 5 value s

/-- REPORT_CARD_RESET, R109. -/
def execReportCardReset (req : Requester) (term value : Nat) (s : State) : Host.Outcome State Fault Refusal :=
  writeRow true req term 0x2420 3 value s

/-- WATCHDOG_PERIOD_WRITE: the watchdog period :01 or the external wait period :02 (R243, R253). -/
def execWatchdogPeriodWrite (req : Requester) (term sub value : Nat) (s : State) : Host.Outcome State Fault Refusal :=
  writeRow true req term 0x2310 sub value s

/-- ROLL_CALL_TRIGGER, R253. -/
def execRollCallTrigger (req : Requester) (term : Nat) (s : State) : Host.Outcome State Fault Refusal :=
  writeRow true req term 0x2310 4 1 s

/-- REJOIN_THRESHOLD_WRITE, R202. -/
def execRejoinThresholdWrite (req : Requester) (term value : Nat) (s : State) : Host.Outcome State Fault Refusal :=
  writeRow true req term 0x2300 2 value s

/-- FORCE_CLOSE, R298. -/
def execForceClose (req : Requester) (term value : Nat) (s : State) : Host.Outcome State Fault Refusal :=
  writeRow true req term 0x2340 4 value s

/-- DEBUG_PERMITTED_WRITE, R269. -/
def execDebugPermittedWrite (req : Requester) (term value : Nat) (s : State) : Host.Outcome State Fault Refusal :=
  writeRow true req term 0x2330 1 value s

/-- TIMETABLE_ENTRY_WRITE: the 16 bytes of the selected entry (R318). -/
def execTimetableEntryWrite (req : Requester) (term : Nat) (entry : List Byte) (s : State) : Host.Outcome State Fault Refusal :=
  act s fun s => serveWrite s req term 0x2510 2 entry

/-- TIMETABLE_ENABLE, R318. -/
def execTimetableEnable (req : Requester) (term tt : Nat) (s : State) : Host.Outcome State Fault Refusal :=
  writeRow (decide (tt < 8)) req term (0x2520 + tt) 1 1 s

/-- TIMETABLE_DISABLE, R329. -/
def execTimetableDisable (req : Requester) (term tt : Nat) (s : State) : Host.Outcome State Fault Refusal :=
  writeRow (decide (tt < 8)) req term (0x2520 + tt) 1 0 s

/-- TIMETABLE_RANGE_WRITE: the first entry :03 or the count :04 (R318). -/
def execTimetableRangeWrite (req : Requester) (term tt sub value : Nat) (s : State) : Host.Outcome State Fault Refusal :=
  writeRow (decide (tt < 8)) req term (0x2520 + tt) sub value s

/-- TRIEN_PORT_ENABLE, R339. -/
def execTrienPortEnable (req : Requester) (term port : Nat) (s : State) : Host.Outcome State Fault Refusal :=
  writeRow (isPort s port) req term (0x2640 + port) 1 1 s

/-- TRIEN_PORT_DISABLE, R339. -/
def execTrienPortDisable (req : Requester) (term port : Nat) (s : State) : Host.Outcome State Fault Refusal :=
  writeRow (isPort s port) req term (0x2640 + port) 1 0 s

/-- HOST_PORT_ENABLE_WRITE, R396. -/
def execHostPortEnableWrite (req : Requester) (term port value : Nat) (s : State) : Host.Outcome State Fault Refusal :=
  writeRow (decide (port < 4)) req term (0x2730 + port) 1 value s

/-- HOST_PORT_ADDRESS_WRITE: an address :04 or :05, the VLAN :06 or the PFC priority :07 (R396). -/
def execHostPortAddressWrite (req : Requester) (term port sub value : Nat) (s : State) : Host.Outcome State Fault Refusal :=
  writeRow (decide (port < 4)) req term (0x2730 + port) sub value s

/-- HOST_GID_WRITE, R370. -/
def execHostGidWrite (req : Requester) (term host value : Nat) (s : State) : Host.Outcome State Fault Refusal :=
  writeRow (decide (host < 16)) req term (0x2710 + host) 1 value s

/-- HOST_ENABLE_WRITE, R370. -/
def execHostEnableWrite (req : Requester) (term host value : Nat) (s : State) : Host.Outcome State Fault Refusal :=
  writeRow (decide (host < 16)) req term (0x2710 + host) 2 value s

/-- LEASE_REVOKE, R388. -/
def execLeaseRevoke (req : Requester) (term : Nat) (s : State) : Host.Outcome State Fault Refusal :=
  writeRow true req term 0x2720 5 1 s

/-- SERVICE_WRITE, R411. -/
def execServiceWrite (req : Requester) (term value : Nat) (s : State) : Host.Outcome State Fault Refusal :=
  writeRow true req term 0x2010 1 value s

/-- A function gate has number 1 to 5. -/
def isGate (g : Nat) : Bool := decide (1 ≤ g) && decide (g ≤ 5)

/-- GATE_DISABLE, R413. -/
def execGateDisable (req : Requester) (term gate : Nat) (s : State) : Host.Outcome State Fault Refusal :=
  writeRow (isGate gate) req term 0x2060 gate 0 s

/-- GATE_ENABLE, R413. -/
def execGateEnable (req : Requester) (term gate : Nat) (s : State) : Host.Outcome State Fault Refusal :=
  writeRow (isGate gate) req term 0x2060 gate 1 s

/-- ERROR_HISTORY_CLEAR, R409. -/
def execErrorHistoryClear (req : Requester) (term value : Nat) (s : State) : Host.Outcome State Fault Refusal :=
  writeRow true req term 0x1003 0 value s

/-- SM3_SYNC_MODE_WRITE, R398. -/
def execSm3SyncModeWrite (req : Requester) (term value : Nat) (s : State) : Host.Outcome State Fault Refusal :=
  writeRow true req term 0x1C33 1 value s

/-- TWIN_MODE_WRITE, R431. -/
def execTwinModeWrite (req : Requester) (term pair value : Nat) (s : State) : Host.Outcome State Fault Refusal :=
  writeRow (decide (pair < 2)) req term 0x2810 (pair + 1) value s

/-- WING_FENCE, R436. -/
def execWingFence (req : Requester) (term wing : Nat) (s : State) : Host.Outcome State Fault Refusal :=
  writeRow (decide (wing < 4)) req term (0x2820 + wing) 2 1 s

/-- WING_UNFENCE, R436. -/
def execWingUnfence (req : Requester) (term wing : Nat) (s : State) : Host.Outcome State Fault Refusal :=
  writeRow (decide (wing < 4)) req term (0x2820 + wing) 2 0 s

/-- FULL_RESET_REQUEST, R455. -/
def execFullResetRequest (req : Requester) (term : Nat) (s : State) : Host.Outcome State Fault Refusal :=
  writeAny s req term 0x2900 2 (leBytes 1 0xA5)

/-- PLANE_RESET_REQUEST, R456. -/
def execPlaneResetRequest (req : Requester) (term : Nat) (s : State) : Host.Outcome State Fault Refusal :=
  writeAny s req term 0x2900 2 (leBytes 1 0x5A)

/-- COMMIT, R447. -/
def execCommit (req : Requester) (term : Nat) (s : State) : Host.Outcome State Fault Refusal :=
  writeRow true req term 0x2910 5 1 s

/-- SYLLABUS_POLICY_WRITE, R450. -/
def execSyllabusPolicyWrite (req : Requester) (term value : Nat) (s : State) : Host.Outcome State Fault Refusal :=
  writeRow true req term 0x2920 1 value s

/-- SYLLABUS_KEY_HASH_WRITE, R450. -/
def execSyllabusKeyHashWrite (req : Requester) (term slot value : Nat) (s : State) : Host.Outcome State Fault Refusal :=
  writeRow (decide (slot < 8)) req term 0x2920 (slot + 2) value s

/-- ATTESTATION_TRIGGER, R454. -/
def execAttestationTrigger (req : Requester) (term : Nat) (s : State) : Host.Outcome State Fault Refusal :=
  writeRow true req term 0x2930 3 1 s

/-! ## Ends of what a write has started -/

/-- ROLL_CALL_DONE: every record has been read, and the trigger reads 2 (R253, R254). -/
def execRollCallDone (s : State) : Host.Outcome State Fault Refusal :=
  act s fun s =>
    if s.roll.state != 1 then s
    else
      let c := s.roll.ctx
      let x := ctxOf s c
      let recs := if rollEmpty x then [] else rollRecs s c
      { s with roll := { s.roll with state := 2, mask := if x.st == .free then none else some x.strips,
                                     objs := ctxObjs (viewOf s c) c, recs := recs } }

/-- Runs and queued launches of every context end (R414). -/
def forceLaunches (s : State) : State :=
  (ctxsWith s fun x => x.st != .closing && x.st != .detention).foldl (fun s c =>
    let s := if runLive (ctxOf s c) then abortRun s c true else s
    let ls := (ctxOf s c).launches
    let s := if !ls.isEmpty && (ctxOf s c).run.any (·.staged) then discardRun s c else s
    let s := modCtx s c fun x => { x with launches := [], pend := false }
    let s := bump s 0x234008 ls.length
    ls.foldl (fun s l => discardLaunch s c l 2) s) s

/-- Windows close by force; a context with a RING window of a RUNNING turn is detained, and its windows close as for a context close
(R414). -/
def forceStreams (s : State) : State :=
  let cs := (List.range 64).filter fun c => (ringWindows s c).any fun w => (chanOf s w).st != .lost && ringActive s (chanOf s w).wd
  let s := cs.foldl (fun s c => closeWindows (detain s c 0x7001 none none) c) s
  (s.chans.map Prod.fst).foldl (fun s c =>
    let w := chanOf s c
    if w.st == .closed || w.st == .lost || cs.contains (wdCtx w.wd) then s else forceWindow s c) s

/-- QUIESCE_TIMEOUT: a gate has been QUIESCING for 0x2061:01 (R414). -/
def execQuiesceTimeout (gate : Nat) (s : State) : Host.Outcome State Fault Refusal :=
  actIf (isGate gate) s fun s =>
    if gateRead s gate != 2 then s
    else match gate with
    | 3 => bump (forceLaunches s) 0x206102 1
    | 4 => bump (forceStreams s) 0x206102 1
    | _ => s

end Sys2Proof.Machine
end

