-- ==== Sys2Proof/Machine/EtherCAT.lean ====
section
/-! DEFINITION. The two paths to the dictionary: CANopen over EtherCAT (R397, R398, R406, R439) and SDO over UDP (R400, R401). -/

namespace Sys2Proof.Machine

/-! ## EtherCAT slave -/

def alCode : AlState → Nat
  | .init => 0 | .preop => 1 | .safeop => 2 | .op => 3

/-- The master no longer drives the device: with supervision on, that acts as a write of 0 to 0x2010:01 (R411). -/
def supervise (s : State) : State := if dget s 0x201101 = 1 then writeService s 0 else s

/-- AL_STATE_REQUEST: upward one state at a time, downward to any (log entry 41). Before step 8 of the power-up SAFEOP is refused with
the AL status of R440 (R439). -/
def execAlStateRequest (target : AlState) (s : State) : Host.Outcome State Fault Refusal :=
  act s fun s =>
    let now := s.boot.alState
    let no (code : W16) : State := emit { s with boot := { s.boot with alRefused := true } } (.alStatus now code)
    if s.boot.step < 2 then s
    else if s.boot.step < 8 && s.boot.plane = 0 && 2 ≤ alCode target then no s.boot.al
    else if alCode now + 1 < alCode target then no 0x0011
    else
      let s := emit { s with boot := { s.boot with alState := target, alRefused := false } } (.alStatus target s.boot.al)
      if now == .op && target != .op then supervise s else s

/-- The fixed station alias (R470). -/
def stationAlias : W16 := 0

/-- The position address that the master's frame carries: the slave is meant when it is 0 on arrival, and passes it on one higher, as
EtherCAT numbers the slaves of a line (R470; PRESUMED, log entry 90). -/
def positionAddress (adp : W16) : Bool × W16 := (adp = 0, adp + 1)

/-- How an indicator shows (ETG.1300, which R470 names). -/
inductive Led
  | off | on | blinking | singleFlash
  deriving DecidableEq, Repr

/-- The link/activity LED of a jack is lit with a link; it flickers with traffic, of which the block has no record. -/
def linkLed (s : State) (port : Nat) : Led := if powered s && s.ecatLink.getLsbD port then .on else .off

/-- The RUN LED of J3. -/
def runLed (s : State) : Led :=
  if s.boot.step < 2 then .off
  else match s.boot.alState with
    | .init => .off | .preop => .blinking | .safeop => .singleFlash | .op => .on

/-- The ERR LED of J4 blinks once a request for an AL state has been refused. -/
def errLed (s : State) : Led := if s.boot.alRefused then .blinking else .off

/-- ECAT_SUPERVISION_TIMEOUT: 100 ms without frames from the master (R411). -/
def execEcatSupervisionTimeout (s : State) : Host.Outcome State Fault Refusal := act s supervise

/-- ECAT_LINK_CHANGE: a port with no link is closed (R397). -/
def execEcatLinkChange (port : Nat) (up : Bool) (s : State) : Host.Outcome State Fault Refusal :=
  actIf (decide (port < 2)) s fun s =>
    let b : BitVec 2 := BitVec.ofNat 2 (2 ^ port)
    if s.ecatLink.getLsbD port = up then s
    else emit { s with ecatLink := if up then s.ecatLink ||| b else s.ecatLink &&& ~~~b } (.ecatPort port up)

/-! ## Process data (R398) -/

/-- The 16 bytes of TxPDO 0x1A00. -/
def txPdo (s : State) : List Byte :=
  let v (index sub n : Nat) : List Byte := leBytes n (objVal s .master index sub .ro)
  v 0x2010 2 2 ++ v 0x2100 3 2 ++ v 0x2100 2 2 ++ v 0x2200 4 2 ++ v 0x2340 9 1 ++ [0] ++ v 0x2012 1 4 ++ v 0x2012 2 2

/-- The inputs are sampled; they reach the master in SAFEOP and OP (R397). -/
def sampleInputs (s : State) : State :=
  let bs := txPdo s
  let s := { s with sampled := bs }
  if 2 ≤ alCode s.boot.alState then emit s (.pdo bs) else s

/-- SYNC0_EVENT: source 2 steps while 0x2501:04 is 1, and in mode 2 the inputs are sampled (R309, R398). -/
def execSync0Event (s : State) : Host.Outcome State Fault Refusal :=
  act s fun s =>
    if s.boot.step < 7 then s
    else
      let s := if dget s 0x250104 = 1 then forward s 2 ((srcOf s 2).phase / 65536 + 1) else s
      if dget s 0x1C3301 = 2 then sampleInputs s else s

/-- INPUT_REFRESH: in mode 0 the inputs are sampled (R398). -/
def execInputRefresh (s : State) : Host.Outcome State Fault Refusal :=
  act s fun s => if s.boot.step < 7 || dget s 0x1C3301 != 0 then s else sampleInputs s

/-! ## CoE (R397, R406) -/

/-- A CoE upload is performed and answered. -/
def serveUpload (s : State) (index sub : Nat) (complete : Bool) : State :=
  let q := upload s .master index sub complete
  match q.1 with
  | .ok bs => coeAnswer q.2 0 bs
  | .error a => coeAnswer q.2 a []

/-- COE_SDO_UPLOAD: before the dictionary is online only 0x1000 and 0x1018 are served (R406). -/
def execCoeSdoUpload (index sub : Nat) (complete : Bool) (s : State) : Host.Outcome State Fault Refusal :=
  act s fun s =>
    if !(mailboxUp s) then s
    else if s.boot.step < 7 && index != 0x1000 && index != 0x1018 then coeAnswer s 0x08000022 []
    else serveUpload s index sub complete

/-- COE_SDO_DOWNLOAD. Complete access is for uploads only: a download that asks for it writes nothing (R397; the abort is 0x0504_0001,
PRESUMED of CoE, log entry 40). -/
def execCoeSdoDownload (index sub : Nat) (data : SdoDown) (s : State) : Host.Outcome State Fault Refusal :=
  if data.complete then act s fun s => reach s .master 0 index sub fun s => coeAnswer s 0x05040001 []
  else writeAny s .master 0 index sub data.bytes

/-- Every index that the object map names (R408). -/
def allIndices : List Nat :=
  [0x1000, 0x1001, 0x1003, 0x1008, 0x1009, 0x100A, 0x1018, 0x1A00, 0x1C00, 0x1C13, 0x1C33, 0x2000, 0x2010, 0x2011, 0x2012,
   0x2020, 0x2060, 0x2061, 0x2100, 0x2200, 0x2300, 0x2310, 0x2330, 0x2340, 0x2350, 0x2420, 0x2500, 0x2501, 0x2502, 0x2503,
   0x2510] ++ (List.range 8).map (0x2520 + ·) ++ [0x2600, 0x2610] ++ (List.range 64).map (0x2640 + ·) ++ [0x2700] ++
  (List.range 16).map (0x2710 + ·) ++ [0x2720] ++ (List.range 4).map (0x2730 + ·) ++ [0x2800, 0x2810] ++
  (List.range 4).map (0x2820 + ·) ++ [0x2830, 0x2840, 0x2850, 0x2900, 0x2910, 0x2920, 0x2930, 0x2A00, 0x2A10, 0x2A20] ++
  (List.range 4).map (0x2A30 + ·)

/-- SDO_INFORMATION: the list of every object of the grade's map (R397, R408). Before step 7 it is aborted (R406). -/
def execSdoInformation (s : State) : Host.Outcome State Fault Refusal :=
  act s fun s =>
    if !(mailboxUp s) then s
    else if s.boot.step < 7 then coeAnswer s 0x08000022 []
    else emit s (.coeList (allIndices.filter fun i => !(objRow s i).isEmpty))

/-- DEBUG_DATA_READ: a read of 0x2350:03 by its requester (R391, R394). -/
def execDebugDataRead (req : Requester) (s : State) : Host.Outcome State Fault Refusal :=
  act s fun s => reach s req 0 0x2350 3 fun s =>
    let q := upload s req 0x2350 3 false
    match q.1 with
    | .ok bs => answer q.2 req 0 0x2350 3 0 bs
    | .error a => answer q.2 req 0 0x2350 3 a []

/-! ## SDO over UDP (R400, R401) -/

/-- Word `i` of a datagram's header. -/
def udpW (d : List Byte) (i : Nat) : Nat := leAt d (4 * i) 4

/-- The request's reserved bits are zero, its OP is an upload or a download, ABORT is 0, and only an upload is complete. -/
def udpOk (d : List Byte) : Bool :=
  let op := fld (udpW d 1) 0 4
  (op = 1 || op = 2) && fld (udpW d 1) 4 4 = 0 && fld (udpW d 2) 1 7 = 0 && fld (udpW d 3) 0 16 = 0 && udpW d 4 = 0 &&
  (op = 1 || !(bitOf (udpW d 2) 0))

/-- A datagram of a host is performed: its response and the state after it. -/
def udpPerform (s : State) (h : Nat) (d : List Byte) : List Byte × State :=
  let w1 := udpW d 1
  let w2 := udpW d 2
  let index := fld w2 16 16
  let sub := fld w2 8 8
  let resp (abort : Nat) (data : List Byte) : List Byte :=
    udpResponse (fld w1 16 16) (fld w1 8 8) index sub (fld w2 0 1) abort data
  if fld (udpW d 0) 0 16 != 0x0100 || !(udpOk d) then (resp 0x05040001 [], s)
  else if fld w1 0 4 = 2 then
    let q := dictWrite s (.host h) (fld w1 8 8) index sub ((d.drop 20).take (fld (udpW d 3) 16 16))
    (resp q.1 [], q.2)
  else
    let q := upload s (.host h) index sub (bitOf w2 0)
    match q.1 with
    | .ok bs => (if 1024 < bs.length then resp 0x06070012 [] else resp 0 bs, q.2)
    | .error a => (resp a [], q.2)

/-- A datagram is sent to the UDP port of 0x2020:01 and to an address of the host port (R400). -/
def toDictionary (s : State) (port : Nat) (data : Datagram) : Bool :=
  data.dport = dget s 0x202001 &&
  ((data.dst = 0xFFFF00000000 + dget s (hportObj port 4) && dget s (hportObj port 4) != 0) ||
   (data.dst = dget s (hportObj port 5) && dget s (hportObj port 5) != 0))

/-- SDO_UDP_DATAGRAM: a datagram from a source GID at a host port, answered to its source address and port (R400, R401). Before the
dictionary is online, and in the fenced part of a split, nothing answers (R406, R429); what is sent elsewhere is no request. -/
def execSdoUdpDatagram (port src : Nat) (data : Datagram) (s : State) : Host.Outcome State Fault Refusal :=
  actIf (decide (port < 4)) s fun s =>
    if s.boot.step < 7 || !(hportUp s port) || s.health.split.getLsbD port || !(toDictionary s port data) then s
    else match hostByGid s src with
    | none => bump s 0x202002 1
    | some h =>
      if data.bytes.length < 20 || fld (udpW data.bytes 0) 16 16 != 0x4C44 || data.bytes.length < 20 + fld (udpW data.bytes 3) 16 16 then
        bump s 0x202002 1
      else
        let id := fld (udpW data.bytes 1) 16 16
        match (hostOf s h).recent.find? fun e => e.1 = id && decide (s.fclk ≤ e.2.1 + ms 2000) with
        | some e => emit s (.udp h (some (src, data.sport)) e.2.2)
        | none =>
          if 64 ≤ data.waiting then bump s 0x202003 1
          else
          let q := udpPerform s h data.bytes
          let s := q.2
          let x := hostOf s h
          emit (setHost s h { x with recent := ((id, s.fclk, q.1) :: x.recent).take 16 }) (.udp h (some (src, data.sport)) q.1)

end Sys2Proof.Machine
end

