-- ==== Sys2Proof/Machine/Dispatch.lean ====
section
/-! DEFINITION. What each command does: one arm per constructor. -/

namespace Sys2Proof.Machine

def exec (i : Instr) (s : State) : Host.Outcome State Fault Refusal :=
  match i with
  | .nop conn msg => Sys2Proof.Machine.execNop conn msg s
  | .queueCreate conn msg => Sys2Proof.Machine.execQueueCreate conn msg s
  | .queueDestroy conn msg => Sys2Proof.Machine.execQueueDestroy conn msg s
  | .queueAck conn msg => Sys2Proof.Machine.execQueueAck conn msg s
  | .queueModify conn msg => Sys2Proof.Machine.execQueueModify conn msg s
  | .leaseAcquire conn msg => Sys2Proof.Machine.execLeaseAcquire conn msg s
  | .leaseRenew conn msg => Sys2Proof.Machine.execLeaseRenew conn msg s
  | .leaseRelease conn msg => Sys2Proof.Machine.execLeaseRelease conn msg s
  | .openCtx conn msg => Sys2Proof.Machine.execOpen conn msg s
  | .extentAdd conn msg => Sys2Proof.Machine.execExtentAdd conn msg s
  | .extentFree conn msg => Sys2Proof.Machine.execExtentFree conn msg s
  | .extentGrantComplete ctx => Sys2Proof.Machine.execExtentGrantComplete ctx s
  | .load conn msg => Sys2Proof.Machine.execLoad conn msg s
  | .loadFetchComplete ctx file => Sys2Proof.Machine.execLoadFetchComplete ctx file s
  | .unload conn msg => Sys2Proof.Machine.execUnload conn msg s
  | .launch conn msg => Sys2Proof.Machine.execLaunch conn msg s
  | .recess conn msg => Sys2Proof.Machine.execRecess conn msg s
  | .resume conn msg => Sys2Proof.Machine.execResume conn msg s
  | .release conn msg => Sys2Proof.Machine.execRelease conn msg s
  | .close conn msg => Sys2Proof.Machine.execClose conn msg s
  | .mwOpen conn msg => Sys2Proof.Machine.execMwOpen conn msg s
  | .mwClose conn msg => Sys2Proof.Machine.execMwClose conn msg s
  | .mwCloseComplete win => Sys2Proof.Machine.execMwCloseComplete win s
  | .swOpen conn msg => Sys2Proof.Machine.execSwOpen conn msg s
  | .swClose conn msg => Sys2Proof.Machine.execSwClose conn msg s
  | .objCreate conn msg => Sys2Proof.Machine.execObjCreate conn msg s
  | .objDestroy conn msg => Sys2Proof.Machine.execObjDestroy conn msg s
  | .objGrant conn msg => Sys2Proof.Machine.execObjGrant conn msg s
  | .objSignal conn msg => Sys2Proof.Machine.execObjSignal conn msg s
  | .objWait conn msg => Sys2Proof.Machine.execObjWait conn msg s
  | .rcRead conn msg => Sys2Proof.Machine.execRcRead conn msg s
  | .rcReset conn msg => Sys2Proof.Machine.execRcReset conn msg s
  | .rollCall conn msg => Sys2Proof.Machine.execRollCall conn msg s
  | .ctxRead conn msg => Sys2Proof.Machine.execCtxRead conn msg s
  | .dbgRead conn msg => Sys2Proof.Machine.execDbgRead conn msg s
  | .rdmaWriteAcked pkt => Sys2Proof.Machine.execRdmaWriteAcked pkt s
  | .remoteAccessError pkt => Sys2Proof.Machine.execRemoteAccessError pkt s
  | .cmReq port gid priv => Sys2Proof.Machine.execCmReq port gid priv s
  | .cmDreq pkt => Sys2Proof.Machine.execCmDreq pkt s
  | .ackTimeout lost => Sys2Proof.Machine.execAckTimeout lost s
  | .livenessTimeout conn => Sys2Proof.Machine.execLivenessTimeout conn s
  | .hostGraceExpiry host => Sys2Proof.Machine.execHostGraceExpiry host s
  | .rdmaWriteRequest conn rkey off data => Sys2Proof.Machine.execRdmaWriteRequest conn rkey off data s
  | .rdmaReadRequest conn rkey off ask => Sys2Proof.Machine.execRdmaReadRequest conn rkey off ask s
  | .unsupportedRequest pkt => Sys2Proof.Machine.execUnsupportedRequest pkt s
  | .ecnMarkedPacket pkt => Sys2Proof.Machine.execEcnMarkedPacket pkt s
  | .cnpReceived pkt => Sys2Proof.Machine.execCnpReceived pkt s
  | .sendRateRaise conn => Sys2Proof.Machine.execSendRateRaise conn s
  | .leaseExpiry => Sys2Proof.Machine.execLeaseExpiry s
  | .ptpSync port time offset => Sys2Proof.Machine.execPtpSync port time offset s
  | .ptpSyncLoss port => Sys2Proof.Machine.execPtpSyncLoss port s
  | .sdoUdpDatagram port src data => Sys2Proof.Machine.execSdoUdpDatagram port src data s
  | .coeSdoUpload index sub complete => Sys2Proof.Machine.execCoeSdoUpload index sub complete s
  | .coeSdoDownload index sub data => Sys2Proof.Machine.execCoeSdoDownload index sub data s
  | .sdoInformation => Sys2Proof.Machine.execSdoInformation s
  | .alStateRequest target => Sys2Proof.Machine.execAlStateRequest target s
  | .ecatSupervisionTimeout => Sys2Proof.Machine.execEcatSupervisionTimeout s
  | .sync0Event => Sys2Proof.Machine.execSync0Event s
  | .inputRefresh => Sys2Proof.Machine.execInputRefresh s
  | .dictWrite req term index sub data => Sys2Proof.Machine.execDictWrite req term index sub data s
  | .powerCapWrite req term value => Sys2Proof.Machine.execPowerCapWrite req term value s
  | .aclkCeilingWrite req term value => Sys2Proof.Machine.execAclkCeilingWrite req term value s
  | .reportCardReset req term value => Sys2Proof.Machine.execReportCardReset req term value s
  | .watchdogPeriodWrite req term sub value => Sys2Proof.Machine.execWatchdogPeriodWrite req term sub value s
  | .rollCallTrigger req term => Sys2Proof.Machine.execRollCallTrigger req term s
  | .rollCallDone => Sys2Proof.Machine.execRollCallDone s
  | .rejoinThresholdWrite req term value => Sys2Proof.Machine.execRejoinThresholdWrite req term value s
  | .forceClose req term value => Sys2Proof.Machine.execForceClose req term value s
  | .debugPermittedWrite req term value => Sys2Proof.Machine.execDebugPermittedWrite req term value s
  | .timetableEntryWrite req term entry => Sys2Proof.Machine.execTimetableEntryWrite req term entry s
  | .timetableEnable req term tt => Sys2Proof.Machine.execTimetableEnable req term tt s
  | .timetableDisable req term tt => Sys2Proof.Machine.execTimetableDisable req term tt s
  | .timetableRangeWrite req term tt sub value => Sys2Proof.Machine.execTimetableRangeWrite req term tt sub value s
  | .timetableQuiesceTimeout tt => Sys2Proof.Machine.execTimetableQuiesceTimeout tt s
  | .trienPortEnable req term port => Sys2Proof.Machine.execTrienPortEnable req term port s
  | .trienPortDisable req term port => Sys2Proof.Machine.execTrienPortDisable req term port s
  | .hostPortEnableWrite req term port value => Sys2Proof.Machine.execHostPortEnableWrite req term port value s
  | .hostPortAddressWrite req term port sub value => Sys2Proof.Machine.execHostPortAddressWrite req term port sub value s
  | .hostGidWrite req term host value => Sys2Proof.Machine.execHostGidWrite req term host value s
  | .hostEnableWrite req term host value => Sys2Proof.Machine.execHostEnableWrite req term host value s
  | .leaseRevoke req term => Sys2Proof.Machine.execLeaseRevoke req term s
  | .serviceWrite req term value => Sys2Proof.Machine.execServiceWrite req term value s
  | .gateDisable req term gate => Sys2Proof.Machine.execGateDisable req term gate s
  | .gateEnable req term gate => Sys2Proof.Machine.execGateEnable req term gate s
  | .quiesceTimeout gate => Sys2Proof.Machine.execQuiesceTimeout gate s
  | .errorHistoryClear req term value => Sys2Proof.Machine.execErrorHistoryClear req term value s
  | .sm3SyncModeWrite req term value => Sys2Proof.Machine.execSm3SyncModeWrite req term value s
  | .twinModeWrite req term pair value => Sys2Proof.Machine.execTwinModeWrite req term pair value s
  | .wingFence req term wing => Sys2Proof.Machine.execWingFence req term wing s
  | .wingUnfence req term wing => Sys2Proof.Machine.execWingUnfence req term wing s
  | .fullResetRequest req term => Sys2Proof.Machine.execFullResetRequest req term s
  | .planeResetRequest req term => Sys2Proof.Machine.execPlaneResetRequest req term s
  | .commit req term => Sys2Proof.Machine.execCommit req term s
  | .commitComplete readBack => Sys2Proof.Machine.execCommitComplete readBack s
  | .syllabusPolicyWrite req term value => Sys2Proof.Machine.execSyllabusPolicyWrite req term value s
  | .syllabusKeyHashWrite req term slot value => Sys2Proof.Machine.execSyllabusKeyHashWrite req term slot value s
  | .attestationTrigger req term => Sys2Proof.Machine.execAttestationTrigger req term s
  | .attestationSigned => Sys2Proof.Machine.execAttestationSigned s
  | .debugDataRead req => Sys2Proof.Machine.execDebugDataRead req s
  | .powerWindowEnd mean => Sys2Proof.Machine.execPowerWindowEnd mean s
  | .thermalReading compute base stack optic => Sys2Proof.Machine.execThermalReading compute base stack optic s
  | .coolantFlowLow flow inlet outlet glycol => Sys2Proof.Machine.execCoolantFlowLow flow inlet outlet glycol s
  | .coolantFlowShutdown => Sys2Proof.Machine.execCoolantFlowShutdown s
  | .pwrEnRise => Sys2Proof.Machine.execPwrEnRise s
  | .pwrEnFall => Sys2Proof.Machine.execPwrEnFall s
  | .resetNAssert => Sys2Proof.Machine.execResetNAssert s
  | .resetNRelease => Sys2Proof.Machine.execResetNRelease s
  | .inputUndervoltage => Sys2Proof.Machine.execInputUndervoltage s
  | .inputOvervoltage => Sys2Proof.Machine.execInputOvervoltage s
  | .railFault => Sys2Proof.Machine.execRailFault s
  | .vcmpFault wing => Sys2Proof.Machine.execVcmpFault wing s
  | .voptFault wing => Sys2Proof.Machine.execVoptFault wing s
  | .railEnable => Sys2Proof.Machine.execRailEnable s
  | .romStart mc0Ok mc1Ok => Sys2Proof.Machine.execRomStart mc0Ok mc1Ok s
  | .dhcpOffer port offer => Sys2Proof.Machine.execDhcpOffer port offer s
  | .dhcpRetry port => Sys2Proof.Machine.execDhcpRetry port s
  | .tftpRetry port => Sys2Proof.Machine.execTftpRetry port s
  | .tftpBlock port data => Sys2Proof.Machine.execTftpBlock port data s
  | .foeWrite named file => Sys2Proof.Machine.execFoeWrite named file s
  | .firmwareImageReceived path => Sys2Proof.Machine.execFirmwareImageReceived path s
  | .mc1ImageCheck pathOk => Sys2Proof.Machine.execMc1ImageCheck pathOk s
  | .hbmTraining failing => Sys2Proof.Machine.execHbmTraining failing s
  | .siteSelfTest failing dead => Sys2Proof.Machine.execSiteSelfTest failing dead s
  | .linkTraining bridges => Sys2Proof.Machine.execLinkTraining bridges s
  | .dictionaryOnline => Sys2Proof.Machine.execDictionaryOnline s
  | .contextsMayOpen => Sys2Proof.Machine.execContextsMayOpen s
  | .bellEdge a b => Sys2Proof.Machine.execBellEdge a b s
  | .bellIndexEdge forward => Sys2Proof.Machine.execBellIndexEdge forward s
  | .intervalTimeout source => Sys2Proof.Machine.execIntervalTimeout source s
  | .sourceLossTimeout source => Sys2Proof.Machine.execSourceLossTimeout source s
  | .timetableRelease tt => Sys2Proof.Machine.execTimetableRelease tt s
  | .timetableSignal tt => Sys2Proof.Machine.execTimetableSignal tt s
  | .timetableCheck tt => Sys2Proof.Machine.execTimetableCheck tt s
  | .phaseDeadlinePass tt => Sys2Proof.Machine.execPhaseDeadlinePass tt s
  | .timeDeadlineExpiry tt => Sys2Proof.Machine.execTimeDeadlineExpiry tt s
  | .stagingStart ctx => Sys2Proof.Machine.execStagingStart ctx s
  | .stagingComplete ctx => Sys2Proof.Machine.execStagingComplete ctx s
  | .lendRecessRequest ctx => Sys2Proof.Machine.execLendRecessRequest ctx s
  | .beQuantumExpiry ctx => Sys2Proof.Machine.execBeQuantumExpiry ctx s
  | .schedulerStart => Sys2Proof.Machine.execSchedulerStart s
  | .recessPointReached ctx => Sys2Proof.Machine.execRecessPointReached ctx s
  | .saveComplete ctx => Sys2Proof.Machine.execSaveComplete ctx s
  | .restoreComplete ctx => Sys2Proof.Machine.execRestoreComplete ctx s
  | .preemptTimeout ctx => Sys2Proof.Machine.execPreemptTimeout ctx s
  | .recessPartnerSilence chan => Sys2Proof.Machine.execRecessPartnerSilence chan s
  | .teardownComplete ctx => Sys2Proof.Machine.execTeardownComplete ctx s
  | .closeTimeout ctx => Sys2Proof.Machine.execCloseTimeout ctx s
  | .closeComplete ctx => Sys2Proof.Machine.execCloseComplete ctx s
  | .turnComplete ctx => Sys2Proof.Machine.execTurnComplete ctx s
  | .zeroExtentComplete ctx => Sys2Proof.Machine.execZeroExtentComplete ctx s
  | .termCooled => Sys2Proof.Machine.execTermCooled s
  | .passDescriptor unit => Sys2Proof.Machine.execPassDescriptor unit s
  | .columnTableLoad unit => Sys2Proof.Machine.execColumnTableLoad unit s
  | .freeHandle unit => Sys2Proof.Machine.execFreeHandle unit s
  | .drainHandle unit => Sys2Proof.Machine.execDrainHandle unit s
  | .cuGateRelease unit => Sys2Proof.Machine.execCuGateRelease unit s
  | .passFire unit k => Sys2Proof.Machine.execPassFire unit k s
  | .weightTileComplete site => Sys2Proof.Machine.execWeightTileComplete site s
  | .slotReady site slot => Sys2Proof.Machine.execSlotReady site slot s
  | .steeringToken site word => Sys2Proof.Machine.execSteeringToken site word s
  | .drainStart site sram => Sys2Proof.Machine.execDrainStart site sram s
  | .slotRelease unit => Sys2Proof.Machine.execSlotRelease unit s
  | .drainComplete drain => Sys2Proof.Machine.execDrainComplete drain s
  | .tileIndexTake unit => Sys2Proof.Machine.execTileIndexTake unit s
  | .stepMerge ctx card => Sys2Proof.Machine.execStepMerge ctx card s
  | .heldStepRelease ctx card => Sys2Proof.Machine.execHeldStepRelease ctx card s
  | .issueEntry unit list => Sys2Proof.Machine.execIssueEntry unit list s
  | .tileDescriptor site gen sram => Sys2Proof.Machine.execTileDescriptor site gen sram s
  | .gatherScatterDescriptor unit gen => Sys2Proof.Machine.execGatherScatterDescriptor unit gen s
  | .layoutCopyDescriptor unit gen => Sys2Proof.Machine.execLayoutCopyDescriptor unit gen s
  | .externalAccessDescriptor unit queue => Sys2Proof.Machine.execExternalAccessDescriptor unit queue s
  | .accessUnblock unit list => Sys2Proof.Machine.execAccessUnblock unit list s
  | .narrowStarvation site => Sys2Proof.Machine.execNarrowStarvation site s
  | .descriptorComplete site gen => Sys2Proof.Machine.execDescriptorComplete site gen s
  | .eadComplete site done => Sys2Proof.Machine.execEadComplete site done s
  | .hbmEccRetry site queue addr clean => Sys2Proof.Machine.execHbmEccRetry site queue addr clean s
  | .scrubPatrol addr ecc => Sys2Proof.Machine.execScrubPatrol addr ecc s
  | .hbmRefresh stack pc => Sys2Proof.Machine.execHbmRefresh stack pc s
  | .pseudoChannelFailing stack pc cause => Sys2Proof.Machine.execPseudoChannelFailing stack pc cause s
  | .pseudoChannelSwitch stack pc => Sys2Proof.Machine.execPseudoChannelSwitch stack pc s
  | .tileRequest site group => Sys2Proof.Machine.execTileRequest site group s
  | .tileGrant site => Sys2Proof.Machine.execTileGrant site s
  | .signalPacket site route check => Sys2Proof.Machine.execSignalPacket site route check s
  | .watchdogExpiry site wait => Sys2Proof.Machine.execWatchdogExpiry site wait s
  | .fabricWord site port check => Sys2Proof.Machine.execFabricWord site port check s
  | .creditReturn site port => Sys2Proof.Machine.execCreditReturn site port s
  | .forkSend unit entry => Sys2Proof.Machine.execForkSend unit entry s
  | .reduceFire unit entry => Sys2Proof.Machine.execReduceFire unit entry s
  | .rejoinImbalance site entry => Sys2Proof.Machine.execRejoinImbalance site entry s
  | .linkErrorRate site port => Sys2Proof.Machine.execLinkErrorRate site port s
  | .unitFailed site => Sys2Proof.Machine.execUnitFailed site s
  | .sramRetest site store addr bad => Sys2Proof.Machine.execSramRetest site store addr bad s
  | .pairRetirement wing pair cause => Sys2Proof.Machine.execPairRetirement wing pair cause s
  | .pairRemap wing testOk => Sys2Proof.Machine.execPairRemap wing testOk s
  | .bridgeLoss bridge => Sys2Proof.Machine.execBridgeLoss bridge s
  | .splitFence => Sys2Proof.Machine.execSplitFence s
  | .twinFaultWindowClose ctx => Sys2Proof.Machine.execTwinFaultWindowClose ctx s
  | .twinEgressCompare chan sram => Sys2Proof.Machine.execTwinEgressCompare chan sram s
  | .twinEgressTimeout late => Sys2Proof.Machine.execTwinEgressTimeout late s
  | .promotionComplete pair => Sys2Proof.Machine.execPromotionComplete pair s
  | .lightDetected port lanes => Sys2Proof.Machine.execLightDetected port lanes s
  | .lightLost port => Sys2Proof.Machine.execLightLost port s
  | .trainLock port => Sys2Proof.Machine.execTrainLock port s
  | .trainTimeout port => Sys2Proof.Machine.execTrainTimeout port s
  | .negotiateTimeout port => Sys2Proof.Machine.execNegotiateTimeout port s
  | .hello port cw word => Sys2Proof.Machine.execHello port cw word s
  | .echo port cw word => Sys2Proof.Machine.execEcho port cw word s
  | .echoReply port cw word => Sys2Proof.Machine.execEchoReply port cw word s
  | .linkIdleTimeout port => Sys2Proof.Machine.execLinkIdleTimeout port s
  | .dataFrame port fec idx frame => Sys2Proof.Machine.execDataFrame port fec idx frame s
  | .idleFrame port idx frame => Sys2Proof.Machine.execIdleFrame port idx frame s
  | .replayBufferFullTimeout port => Sys2Proof.Machine.execReplayBufferFullTimeout port s
  | .credit port cw word => Sys2Proof.Machine.execCredit port cw word s
  | .creditCoalesce chan => Sys2Proof.Machine.execCreditCoalesce chan s
  | .revoke port cw word => Sys2Proof.Machine.execRevoke port cw word s
  | .rewind port cw word => Sys2Proof.Machine.execRewind port cw word s
  | .wclosed port cw word => Sys2Proof.Machine.execWclosed port cw word s
  | .stepToken port cw word => Sys2Proof.Machine.execStepToken port cw word s
  | .windowOpenWord port cw word => Sys2Proof.Machine.execWindowOpenWord port cw word s
  | .windowOpenTimeout chan => Sys2Proof.Machine.execWindowOpenTimeout chan s
  | .windowCloseWord port cw word => Sys2Proof.Machine.execWindowCloseWord port cw word s
  | .windowCloseTimeout chan => Sys2Proof.Machine.execWindowCloseTimeout chan s
  | .laneMap port cw word => Sys2Proof.Machine.execLaneMap port cw word s
  | .laneMapAck port cw word => Sys2Proof.Machine.execLaneMapAck port cw word s
  | .laneErrorWindow port errors => Sys2Proof.Machine.execLaneErrorWindow port errors s
  | .laneSwitch turn => Sys2Proof.Machine.execLaneSwitch turn s
  | .blockLand chan => Sys2Proof.Machine.execBlockLand chan s
  | .hbmBlockLand chan => Sys2Proof.Machine.execHbmBlockLand chan s
  | .egressBlockSend block => Sys2Proof.Machine.execEgressBlockSend block s
  | .streamHoldExpiry port => Sys2Proof.Machine.execStreamHoldExpiry port s
  | .trainRetryTimer port => Sys2Proof.Machine.execTrainRetryTimer port s
  | .laneMarkersLost port lane => Sys2Proof.Machine.execLaneMarkersLost port lane s
  | .inputStartThreshold => Sys2Proof.Machine.execInputStartThreshold s
  | .powerUpHoldoffExpiry => Sys2Proof.Machine.execPowerUpHoldoffExpiry s
  | .voltageToleranceChange rail inside => Sys2Proof.Machine.execVoltageToleranceChange rail inside s
  | .hostLinkChange port up => Sys2Proof.Machine.execHostLinkChange port up s
  | .ecatLinkChange port up => Sys2Proof.Machine.execEcatLinkChange port up s

end Sys2Proof.Machine
end

