-- ==== Sys2Proof/Safety.lean ====
section
/-! DEFINITION. What counts as a safe run: no fault and no refusal. -/

namespace Sys2Proof

open Machine

/-- A step from this state completes. -/
def Completes (s : State) : Prop := ∃ t, step s = .next t

end Sys2Proof
end

