-- ==== Sys2Proof/Certificates/Slice0/Obligations.lean ====
section
/-! DEFINITION. The statements: what each family of commands does, what it leaves, and what holds of every step. -/

namespace Sys2Proof.Machine

/-! ## Words the statements use -/

/-- A SEND has been taken on a connection: the device has heard from it, and one of its receive buffers is held (R372, R373). -/
def heard (s : State) (conn : Nat) : State := takeBuf (touch s conn) conn

/-- A message that the checks of R368, R374 and R379 accept: a right ICRC, a receive buffer, a live connection, the row's opcode, a queue
of the sender's host, and no reserved bit. -/
def Framed (op units : Nat) (allow : List Nat) (conn : Nat) (msg : Send) (s : State) : Prop :=
  conn < 256 ∧ msg.icrc = true ∧ msg.rnr = false ∧ fld (msgW msg.words 0) 0 8 = op ∧ (connOf s conn).live = true ∧
  ownQueue s (cmdQueueNo (hcmdOf s conn msg.words)) (connOf s conn).host = true ∧ msgReservedOk units allow msg.words = true

/-- The header names a context that exists and belongs to the sender's host (R283, R375). -/
def OwnCtx (conn : Nat) (msg : Send) (s : State) : Prop :=
  let c := hcmdOf s conn msg.words
  c.ctx < 64 ∧ (ctxOf s c.ctx).st ≠ .free ∧ (ctxOf s c.ctx).host = c.host

/-- A framed context command of its own host. -/
def CtxFramed (op units : Nat) (allow : List Nat) (conn : Nat) (msg : Send) (s : State) : Prop :=
  Framed op units allow conn msg s ∧ OwnCtx conn msg s

/-- A command that nothing but its completion follows: queues and what leaves the block change, and a SEND has been taken. -/
def OnlyAnswers (s t : State) (conn : Nat) : Prop := ∃ q o, t = closeStep s { heard s conn with queues := q, out := o }

/-! ## The machine as a whole -/

end Sys2Proof.Machine

open Sys2Proof Sys2Proof.Machine

/-- A step runs the command at the front of the queue on the state with the rest of the queue. -/
def Obligations.StepRunsFrontCommand : Prop :=
  ∀ (c : Instr) (s : State), step { s with pending := c :: s.pending } = exec c s

/-- With no command waiting one FCLK passes, and nothing but phase sources, timetables, due entries, queues, waiting emergency
messages and what leaves the block changes (log entry 1). -/
def Clause.EmptyQueuePassesOneFclk : Prop :=
  ∀ s : State, s.pending = [] →
    ∃ x t d q h o, step s = .next { s with fclk := s.fclk + 1, srcs := x, tts := t, due := d, queues := q, health := h, out := o } ∧
      h.split = s.health.split ∧ h.bridges = s.health.bridges ∧ h.history = s.health.history ∧ h.errReg = s.health.errReg

/-- No command changes the queue of waiting commands or the clock. -/
def Clause.CommandsKeepQueueAndClock : Prop :=
  ∀ (c : Instr) (s t : State), exec c s = .next t → t.pending = s.pending ∧ t.fclk = s.fclk

/-- No command moves the clock or the queue; an empty queue passes one FCLK (the model's choice, log entry 1):
`EmptyQueuePassesOneFclk` and `CommandsKeepQueueAndClock` together. -/
def Obligations.OnlyTheTickMovesTheClock : Prop :=
  Clause.EmptyQueuePassesOneFclk ∧ Clause.CommandsKeepQueueAndClock

/-- What fuses can become: identity, secret, key hashes, pair records and MAC addresses never change, and a blown bit of the
rollback counter or of the revocations never clears (R446, R447). -/
def FusesOneTime (a b : Fuses) : Prop :=
  b.product = a.product ∧ b.serial = a.serial ∧ b.revision = a.revision ∧ b.uds = a.uds ∧ b.keyHash = a.keyHash ∧
  b.pairs = a.pairs ∧ b.mac = a.mac ∧
  (∀ i, a.counter.getLsbD i = true → b.counter.getLsbD i = true) ∧ (∀ i, a.revoked.getLsbD i = true → b.revoked.getLsbD i = true)

/-- Every step leaves the fuses as one-time memory must. -/
def Clause.FusesAreOneTime : Prop :=
  ∀ s t : State, step s = .next t → FusesOneTime s.fuse t.fuse

/-- Only a commit that ends, and the events that cut one off (a power loss, a reset, a reset request), change a fuse (R447). -/
def mayBlow : Instr → Bool
  | .commitComplete _ | .pwrEnFall | .inputUndervoltage | .inputOvervoltage | .railFault | .resetNAssert | .coolantFlowShutdown
  | .thermalReading _ _ _ _ | .fullResetRequest _ _ | .planeResetRequest _ _ | .dictWrite _ _ _ _ _ | .coeSdoDownload _ _ _ => true
  | _ => false

/-- Every other command leaves every fuse. -/
def Clause.OtherCommandsKeepFuses : Prop :=
  ∀ (c : Instr) (s t : State), mayBlow c = false → exec c s = .next t → t.fuse = s.fuse

/-- Every step leaves the fuses as one-time memory must, and only a commit or what cuts one off changes them: `FusesAreOneTime`
and `OtherCommandsKeepFuses` together. -/
def Obligations.FusesChangeOnlyAsOneTimeMemory : Prop :=
  Clause.FusesAreOneTime ∧ Clause.OtherCommandsKeepFuses

/-- What a settled state says of itself: once the dictionary is online the error register that was last reported is the present
one (R399, R410), and no gate reads QUIESCING with nothing of its function in flight (R413). -/
def Settled (s : State) : Prop :=
  (7 ≤ s.boot.step → s.health.errReg.toNat = errorRegister s) ∧
  (∀ g, g < 6 → gateIdle s g = true → (sget (0, 0) s.gates g).1 ≠ 1)

/-- Every step from a settled state leaves a settled one: every change of the error register has been reported, and every gate
that can has read QUIESCED. -/
def Obligations.StepsStaySettled : Prop :=
  ∀ s t : State, Settled s → step s = .next t → Settled t

/-- The state right after reset is settled. -/
def Obligations.ResetIsSettled : Prop := Settled State.reset

/-- When ONLINE is first set every subsystem holds the state of R457. -/
def Obligations.ResetIsStartingState : Prop :=
  State.reset.boot.online = true ∧ State.reset.pending = [] ∧
  (∀ w, w < 4 → (wingOf State.reset w).st = .active) ∧ dget State.reset 0x281001 = 0 ∧ dget State.reset 0x281002 = 0 ∧
  (∀ c, (ctxOf State.reset c).st = .free ∧ (ctxOf State.reset c).stripUs = 0 ∧ (ctxOf State.reset c).vtime = 0) ∧
  (∀ h, (hostOf State.reset h).state = 0) ∧ (∀ q, (queueOf State.reset q).live = false) ∧
  (∀ w, (mwinOf State.reset w).st = 0) ∧ (∀ o, (objOf State.reset o).valid = false) ∧
  State.reset.lease.holder = none ∧ State.reset.lease.term = 0 ∧
  (∀ p, (tportOf State.reset p).link = .down) ∧ (∀ p, p < 64 → dget State.reset (0x264001 + 0x100 * p) = 1) ∧
  (∀ c, (chanOf State.reset c).st = .closed) ∧
  (∀ i, (srcOf State.reset i).phase = 0 ∧ (srcOf State.reset i).high = 0 ∧ (srcOf State.reset i).st = .off) ∧
  (∀ t, (ttOf State.reset t).state = 0) ∧ (∀ g, gateRead State.reset g = 1) ∧ State.reset.clk.aclk = 3600 ∧
  State.reset.terms = [] ∧ (∀ k i, ceValid (circuit (swOf State.reset k) i) = false) ∧
  (∀ k a n, mnat (muOf State.reset k).spad a n = 0 ∧ mnat (unitStores State.reset k) a n = 0) ∧
  (∀ k j i, sget 0 (sget Slot.free (cuOf State.reset k).slots j).elems i = 0) ∧
  dget State.reset 0x292001 = 1 ∧ (∀ i, i < 8 → dget State.reset (0x292002 + i) = 0)

/-- A number is refused only when all are taken, and the one given is the lowest free, as R380 and R376 say of queues and contexts; of
objects, windows and connections it is the model's choice (log entry 85). -/
def Clause.LowestFreeNumberIsGiven : Prop :=
  ∀ (m : Sparse Nat) (limit : Nat) (taken : Nat → Bool), (∀ i, taken i = true → ∃ e ∈ m, e.1 = i) →
    match lowestFree m limit taken with
    | some n => n < limit ∧ taken n = false ∧ ∀ i, i < n → taken i = true
    | none => ∀ i, i < limit → taken i = true

/-! ## Host commands: framing, queues, lease -/

/-- The checks of R379 in their order: a SEND from a live connection whose QUEUE is not one of its host completes with QUEUE on the
service queue, one with an unknown opcode with OPCODE, and one with a reserved bit with RESERVED_BITS. -/
def Clause.FirstFailingCheckIsReported : Prop :=
  ∀ (s : State) (conn : Nat) (msg : Send), conn < 256 → msg.icrc = true → msg.rnr = false → (connOf s conn).live = true →
    let c := hcmdOf s conn msg.words
    let op := fld (msgW msg.words 0) 0 8
    (op = 0 ∨ op ∉ knownOps) →
    (ownQueue s (cmdQueueNo c) c.host = false →
      exec (.nop conn msg) s = .next (closeStep s (complete (heard s conn) { c.ref with queue := serviceQueue conn } c.ctx 0x03 0))) ∧
    (ownQueue s (cmdQueueNo c) c.host = true → op ∉ knownOps →
      exec (.nop conn msg) s = .next (closeStep s (complete (heard s conn) c.ref c.ctx 0x01 0))) ∧
    (ownQueue s (cmdQueueNo c) c.host = true → op = 0 → msgReservedOk 1 [] msg.words = false →
      exec (.nop conn msg) s = .next (closeStep s (complete (heard s conn) c.ref c.ctx 0x02 0)))

/-- A SEND whose ICRC fails is dropped and counted; one that comes while the 64 receive buffers of its connection may be held, and finds
none, is answered with an RNR NAK; neither has an effect of its command. -/
def Clause.SendsAreDroppedOrTurnedAway : Prop :=
  ∀ (s : State) (conn : Nat) (msg : Send), conn < 256 → fld (msgW msg.words 0) 0 8 = 0 →
    (msg.icrc = false → exec (.nop conn msg) s = .next (closeStep s (bump s (hportObj (conn / 64) 0x0C) 1))) ∧
    (msg.icrc = true → msg.rnr = true → (connOf s conn).live = true → 64 ≤ (heldBufs s conn).length →
      exec (.nop conn msg) s = .next (closeStep s (emit (touch s conn) (.rnrNak conn))))

/-- A command of a context that is FREE or another host's completes with NOT_OWNER and does nothing else. -/
def Clause.ForeignContextIsRefused : Prop :=
  ∀ (s : State) (conn : Nat) (msg : Send), Framed 0x14 1 [] conn msg s →
    let c := hcmdOf s conn msg.words
    c.ctx < 64 → ((ctxOf s c.ctx).st = .free ∨ (ctxOf s c.ctx).host ≠ c.host) →
    exec (.unload conn msg) s = .next (closeStep s (complete (heard s conn) c.ref c.ctx 0x04 0))

/-- A SEND is checked in order: ICRC, receive buffer, queue, opcode, reserved bits, owner: `SendsAreDroppedOrTurnedAway` and
`FirstFailingCheckIsReported` and `ForeignContextIsRefused` together. -/
def Obligations.MessagesAreCheckedInOrder : Prop :=
  Clause.SendsAreDroppedOrTurnedAway ∧ Clause.FirstFailingCheckIsReported ∧ Clause.ForeignContextIsRefused

/-- Event SEQ is written to EVT_ADDR + 32 × (SEQ mod 2^LOG2) with the immediate QUEUE × 65,536 + SEQ, and SEQ rises by 1. -/
def Clause.EventIsWrittenInItsSlot : Prop :=
  ∀ (s : State) (n : Nat) (e : EvRec), (queueOf s n).live = true → (queueOf s n).held = [] → (queueOf s n).lost = 0 →
    qRoom s (queueOf s n) = true →
    let q := queueOf s n
    queueOf (post s n e) n = { q with seq := q.seq + 1 } ∧
    (post s n e).out = .event n q.conn (q.addr + 32 * (q.seq.toNat % 2 ^ q.log2)) (BitVec.ofNat 32 (n * 65536 + q.seq.toNat))
      (eventRecord n q.seq e) :: s.out

/-- A queue whose ring is full or whose connection is lost holds an event, up to 1,024 of them, and counts the ones after. -/
def Clause.FullRingHoldsEvents : Prop :=
  ∀ (s : State) (n : Nat) (e : EvRec), (queueOf s n).live = true → qRoom s (queueOf s n) = false →
    let q := queueOf s n
    (post s n e).out = s.out ∧
    (q.held.length < 1024 → queueOf (post s n e) n = { q with held := q.held ++ [e] }) ∧
    (1024 ≤ q.held.length → queueOf (post s n e) n = { q with lost := satAdd 32 q.lost 1 })

/-- Events are written in their slots, held while the ring is full, and counted beyond 1,024: `EventIsWrittenInItsSlot` and
`FullRingHoldsEvents` together. -/
def Obligations.EventsFillTheirRing : Prop :=
  Clause.EventIsWrittenInItsSlot ∧ Clause.FullRingHoldsEvents

/-- A host-level command completes on the service queue of its connection, QUEUE_DESTROY on its own queue (log entry 88). NOP completes and
does nothing else; QUEUE_CREATE makes the lowest free queue, empty and at SEQ 0, for its host;
QUEUE_DESTROY removes a queue of its host that nothing uses; QUEUE_ACK moves ACK_SEQ to a value from the earlier one to SEQ, and
ignores and counts any other; QUEUE_MODIFY replaces the event target and leaves ACK_SEQ. -/
def Clause.QueueCommandsTakeEffect : Prop :=
  ∀ (s : State) (conn : Nat) (msg : Send),
    let c := hcmdOf s conn msg.words
    (Framed 0x00 1 [] conn msg s → c.ref.queue = serviceQueue conn ∧
      exec (.nop conn msg) s = .next (closeStep s (complete (heard s conn) c.ref c.ctx 0 0))) ∧
    (∀ q, Framed 0x01 1 [all32, all32, all32, 0xFF1F] conn msg s → targetOk s c = true →
      lowestFree s.queues 0xFF00 (fun i => (queueOf s i).live) = some q →
      ∃ t, exec (.queueCreate conn msg) s = .next t ∧ OnlyAnswers s t conn ∧ c.ref.queue = serviceQueue conn ∧
        queueOf t q = { Queue.none with live := true, host := c.host, conn := fld (cmdW c 7) 8 8, addr := cmdW2 c 4,
                                        rkey := BitVec.ofNat 32 (cmdW c 6), log2 := fld (cmdW c 7) 0 5 }) ∧
    (Framed 0x02 1 [0xFFFF] conn msg s → cmdW c 4 < 0xFF00 → ownQueue s (cmdW c 4) c.host = true → queueInUse s (cmdW c 4) = false →
      ∃ t, exec (.queueDestroy conn msg) s = .next t ∧ OnlyAnswers s t conn ∧ c.ref.queue = cmdQueueNo c ∧ (queueOf t (cmdW c 4)).live = false) ∧
    (∀ n a, Framed 0x03 1 [all32] conn msg s → n = fld (cmdW c 4) 0 16 → a = BitVec.ofNat 16 (cmdW c 4 / 65536) →
      ownQueue s n c.host = true →
      ∃ t, exec (.queueAck conn msg) s = .next t ∧
        ((a - (queueOf s n).ack).toNat ≤ ((queueOf s n).seq - (queueOf s n).ack).toNat → OnlyAnswers s t conn ∧ (queueOf t n).ack = a) ∧
        (¬ (a - (queueOf s n).ack).toNat ≤ ((queueOf s n).seq - (queueOf s n).ack).toNat →
          t = closeStep s (bump (heard s conn) 0x270007 1))) ∧
    (∀ n, Framed 0x04 1 [all32, all32, all32, 0xFF1F, 0xFFFF] conn msg s → n = cmdW c 8 → ownQueue s n c.host = true →
      targetOk s c = true →
      ∃ t, exec (.queueModify conn msg) s = .next t ∧ OnlyAnswers s t conn ∧ (queueOf t n).conn = fld (cmdW c 7) 8 8 ∧
        (queueOf t n).addr = cmdW2 c 4 ∧ (queueOf t n).rkey = BitVec.ofNat 32 (cmdW c 6) ∧ (queueOf t n).log2 = fld (cmdW c 7) 0 5 ∧
        (queueOf t n).ack = (queueOf s n).ack)

/-- Queue commands take effect, and a number given is the lowest free: `LowestFreeNumberIsGiven` and `QueueCommandsTakeEffect`
together. -/
def Obligations.QueuesAreMadeAndMoved : Prop :=
  Clause.LowestFreeNumberIsGiven ∧ Clause.QueueCommandsTakeEffect

/-- LEASE_ACQUIRE of a free lease grants it with the next Term (255 wraps to 1) for the lease duration; by its holder it extends the
expiry and keeps the Term, and the events of the lease go to the QUEUE of the command; LEASE_RENEW by the holder with the current Term
extends it; LEASE_RELEASE ends it, as does expiry. Only the holder with the current Term renews or releases. -/
def Obligations.LeaseIsGrantedExtendedAndEnded : Prop :=
  (∀ (s : State) (conn : Nat) (msg : Send),
    let c := hcmdOf s conn msg.words
    (Framed 0x08 1 [] conn msg s → (leased s = false ∨ s.lease.holder = some c.host) →
      ∃ t, exec (.leaseAcquire conn msg) s = .next t ∧ t.lease.holder = some c.host ∧
        t.lease.term = (if leased s then s.lease.term else s.lease.term % 255 + 1) ∧
        t.lease.expiry = s.fclk + ms (dget s 0x272003) ∧ t.lease.cmd = some { c.ref with queue := cmdQueueNo c }) ∧
    (∀ h, Framed 0x08 1 [] conn msg s → leased s = true → s.lease.holder = some h → h ≠ c.host →
      exec (.leaseAcquire conn msg) s = .next (closeStep s (complete (heard s conn) c.ref c.ctx 0x0C h))) ∧
    (Framed 0x09 1 [0xFF] conn msg s → holdsLease s c.host (cmdW c 4) = true →
      ∃ t, exec (.leaseRenew conn msg) s = .next t ∧ t.lease = { s.lease with expiry := s.fclk + ms (dget s 0x272003) }) ∧
    (Framed 0x0A 1 [0xFF] conn msg s → holdsLease s c.host (cmdW c 4) = true →
      ∃ t, exec (.leaseRelease conn msg) s = .next t ∧ t.lease.holder = none ∧ t.lease.term = s.lease.term) ∧
    (Framed 0x09 1 [0xFF] conn msg s → holdsLease s c.host (cmdW c 4) = false →
      exec (.leaseRenew conn msg) s = .next (closeStep s (complete (heard s conn) c.ref c.ctx 0x0F 0))) ∧
    (Framed 0x0A 1 [0xFF] conn msg s → holdsLease s c.host (cmdW c 4) = false →
      exec (.leaseRelease conn msg) s = .next (closeStep s (complete (heard s conn) c.ref c.ctx 0x0F 0)))) ∧
  (∀ s : State, ∃ t, exec .leaseExpiry s = .next t ∧ t.lease.holder = none ∧ t.lease.term = s.lease.term ∧
    ∃ q o, t = closeStep s { s with lease := { s.lease with holder := none, cmd := none }, queues := q, out := o })


/-! ## Contexts -/

/-- The operands of OPEN are in range (R281, R286, R294, R376), and the host's window holds the version (R389). -/
def OpenInRange (s : State) (c : HCmd) (ver : Nat) : Prop :=
  (if bitOf (cmdW c 4) 0 then fld (cmdW c 4) 16 10 = 0 else 1 ≤ fld (cmdW c 4) 16 10 ∧ fld (cmdW c 4) 16 10 ≤ 1000) ∧
  (cmdW c 7 = 0 ∨ (20 ≤ cmdW c 7 ∧ cmdW c 7 ≤ 100000)) ∧
  (if fld (cmdW c 6) 0 7 = 0 then 0 < cmdW2 c 8 ∧ cmdW2 c 8 < 2 ^ numStrips s else fld (cmdW c 6) 0 7 ≤ numStrips s) ∧
  fld (cmdW c 6) 16 16 < 0xFF00 ∧ ownQueue s (fld (cmdW c 6) 16 16) c.host = true ∧ (c.ctx < 64 ∨ c.ctx = 0xFF) ∧
  hostVersion (cmdW c 5) = some ver

/-- OPEN gives the context named, or the lowest FREE one for 0xFF, to the host with the strips asked for (a mask, or the lowest
ones that the class rules allow), its class, weight, preemption bound, version and event queue; the virtual time stays. -/
def Clause.OpenGivesStripsAndNumber : Prop :=
  ∀ (s : State) (conn : Nat) (msg : Send) (n m ver : Nat),
    let c := hcmdOf s conn msg.words
    let lc := bitOf (cmdW c 4) 0
    let lend := lc && bitOf (cmdW c 4) 1
    let tt := if lc then fld (cmdW c 4) 2 3 else 0
    Framed 0x10 1 openBits conn msg s → OpenInRange s c ver → gateRead s 1 = 1 →
    (if c.ctx = 0xFF then n < 64 ∧ (ctxOf s n).st = .free ∧ ∀ i, i < n → (ctxOf s i).st ≠ .free
      else n = c.ctx ∧ (ctxOf s n).st = .free) →
    (if fld (cmdW c 6) 0 7 = 0 then m = cmdW2 c 8 else chooseStrips s lc lend (fld (cmdW c 6) 0 7) = some m) →
    maskAllowed s lc lend m = true → twinAllowed s m = true → cutOff s m = false →
    (lc = true → (s.ctxs.filter fun e => e.2.st != .free && e.2.lc).length < 8 ∧ dget s (ttObj tt 7) = n) →
    exec (.openCtx conn msg) s = .next (closeStep s (complete
      (setCtx (heard s conn) n { Ctx.free with
        st := .opened, host := c.host, lc := lc, lend := lend, weight := fld (cmdW c 4) 16 10, tt := tt, strips := m,
        pbound := if cmdW c 7 = 0 then dget s 0x234006 else cmdW c 7, version := ver, evq := fld (cmdW c 6) 16 16,
        vtime := (ctxOf s n).vtime, loadStatus := (ctxOf s n).loadStatus })
      c.ref n 0 (n + ver * 2 ^ 16)))

/-- A strip count takes the lowest strips that the class rules allow, exactly so many. -/
def Clause.StripCountTakesLowestAllowed : Prop :=
  ∀ (s : State) (lc lend : Bool) (n m : Nat), chooseStrips s lc lend n = some m →
    popBits m 64 = n ∧
    (∀ t, m.testBit t = true → t < numStrips s ∧ maskAllowed s lc lend (2 ^ t) = true) ∧
    (∀ t u, t < u → m.testBit u = true → maskAllowed s lc lend (2 ^ t) = true → m.testBit t = true)

/-- The version of a context is the highest of the host's window and of 1.0 to 1.1, within one major version. -/
def Clause.VersionIsHighestCommon : Prop :=
  ∀ w v : Nat, hostVersion w = some v ↔
    (fld w 16 16 ≤ v ∧ v ≤ fld w 0 16 ∧ 0x100 ≤ v ∧ v ≤ 0x101) ∧
    ∀ u, fld w 16 16 ≤ u → u ≤ fld w 0 16 → 0x100 ≤ u → u ≤ 0x101 → u ≤ v

/-- OPEN gives the number, the strips and the version: `OpenGivesStripsAndNumber` and `StripCountTakesLowestAllowed` and
`VersionIsHighestCommon` together. -/
def Obligations.OpenGivesStripsNumberAndVersion : Prop :=
  Clause.OpenGivesStripsAndNumber ∧ Clause.StripCountTakesLowestAllowed ∧ Clause.VersionIsHighestCommon

/-- An extent without a base is placed at the lowest address, aligned to 64 KiB, at which its bytes belong to no context and lie
below the grade's highest address; it is refused only when there is none. -/
def Clause.ExtentIsPlacedLowest : Prop :=
  ∀ (s : State) (taken : List (Nat × Nat)) (len : Nat), 0 < len → (∀ r ∈ taken, 0 < r.2) →
    match placeExtent s taken len with
    | some a => a % 65536 = 0 ∧ rangeFree s taken a len = true ∧ ∀ b, b < a → b % 65536 = 0 → rangeFree s taken b len = false
    | none => ∀ b, b % 65536 = 0 → rangeFree s taken b len = false

/-- EXTENT_ADD starts the zeroing of an extent that overlaps none; when it has ended, every byte of the extent and of its twin's
copy reads zero, no other byte has changed, and the extent is granted; EXTENT_FREE takes an unused extent back. -/
def Clause.ExtentsAreZeroedAndGranted : Prop :=
  (∀ (s : State) (conn : Nat) (msg : Send),
    let c := hcmdOf s conn msg.words
    let x := ctxOf s c.ctx
    (∀ b h, Framed 0x11 1 [all32, all32, all32, all32] conn msg s → OwnCtx conn msg s → x.st ≠ .closing →
      cmdW2 c 4 % 4096 = 0 → cmdW2 c 6 % 4096 = 0 → 0 < cmdW2 c 6 → cmdW2 c 4 + cmdW2 c 6 ≤ hbmTop s →
      x.extents.length + x.granting.length < 64 →
      (if cmdW2 c 4 = 0 then placeExtent s (takenRanges s) (cmdW2 c 6) = some b
        else b = cmdW2 c 4 ∧ rangeFree s (takenRanges s) b (cmdW2 c 6) = true) →
      (if twinned s x then placeExtent s ((b, cmdW2 c 6) :: takenRanges s) (cmdW2 c 6) = some h else h = b) →
      exec (.extentAdd conn msg) s = .next (closeStep s (setCtx (heard s conn) c.ctx
        { x with granting := x.granting ++ [{ base := b, len := cmdW2 c 6, shadow := h, cmd := c.ref }] }))) ∧
    (∀ i len, Framed 0x12 1 [all32, all32] conn msg s → OwnCtx conn msg s → x.st ≠ .closing →
      x.extents[i]? = some (cmdW2 c 4, len) → (∀ j, j < i → ∀ e, x.extents[j]? = some e → e.1 ≠ cmdW2 c 4) →
      extentUsed s c.ctx (cmdW2 c 4) len = false →
      exec (.extentFree conn msg) s = .next (closeStep s (complete (setCtx (heard s conn) c.ctx
        { x with extents := x.extents.eraseIdx i, shadow := x.shadow.eraseIdx i }) c.ref c.ctx 0 0)))) ∧
  (∀ (s : State) (n : Nat) (g : Granting) (r : List Granting), n < 64 → (ctxOf s n).granting = g :: r →
    let x := ctxOf s n
    ∃ t, exec (.extentGrantComplete n) s = .next t ∧
      (∀ a, sget 0#8 t.hbm a = if (g.base ≤ a ∧ a < g.base + g.len) ∨ (g.shadow ≤ a ∧ a < g.shadow + g.len) then 0#8
                               else sget 0#8 s.hbm a) ∧
      ∃ b, t = closeStep s (complete (setCtx { s with hbm := t.hbm, hbmBad := b } n
        { x with granting := r, extents := x.extents ++ [(g.base, g.len)], shadow := x.shadow ++ [(g.shadow, g.len)] })
        g.cmd n 0 g.base))

/-- Extents are placed lowest, zeroed and granted: `ExtentIsPlacedLowest` and `ExtentsAreZeroedAndGranted` together. -/
def Obligations.ExtentsArePlacedZeroedAndGranted : Prop :=
  Clause.ExtentIsPlacedLowest ∧ Clause.ExtentsAreZeroedAndGranted

/-- LOAD starts to fetch the file with the bases, the policy and the key hashes of its moment, and its RDMA READ leaves while fewer than
16 of the connection are outstanding; a packet of it whose ICRC fails is dropped and counted; when the whole file has come it is accepted,
and the context is LOADED with fresh Report Cards and tensors, or refused with its load status, and the context stays OPEN; UNLOAD of a
LOADED context leaves it OPEN, without syllabus and without a queued launch. -/
def Clause.SyllabusIsLoadedAndUnloaded : Prop :=
  (∀ (s : State) (conn : Nat) (msg : Send),
    let c := hcmdOf s conn msg.words
    let x := ctxOf s c.ctx
    (CtxFramed 0x13 3 ([all32, all32, all32, all32, 0x3, 0xFFFF] ++ List.replicate 32 all32) conn msg s → x.st = .opened →
      x.loading = none → cutOff s x.strips = false → gateRead s 2 = 1 →
      (∀ r ∈ s.rdmas, r.isLoad = true → r.sent = true) →
      let n := (s.rdmas.filter fun r => r.conn = conn && r.isLoad && r.sent).length
      let l : Loading := { cmd := c.ref, addr := cmdW2 c 4, rkey := cmdW c 6, length := cmdW c 7, level := fld (cmdW c 8) 0 2, echo := fld (cmdW c 9) 0 16,
                           bases := (List.range 16).map fun r => cmdW2 c (10 + 2 * r), policy := dget s 0x292001,
                           keys := (List.range 8).map fun i => dget s (0x292002 + i) }
      exec (.load conn msg) s = .next (closeStep s { setCtx (heard s conn) c.ctx { x with loading := some l } with
        rdmas := s.rdmas ++ [{ conn := conn, cmd := c.ref, ctx := c.ctx, status := 0, detail := 0, isLoad := true,
                               sent := decide (n < 16) }],
        out := if n < 16 then .rdmaRead conn (cmdW2 c 4) (cmdW c 6) (cmdW c 7) :: s.out else s.out })) ∧
    (CtxFramed 0x14 1 [] conn msg s → x.st = .loaded → x.lc = false → x.run = none →
      ∃ t, exec (.unload conn msg) s = .next t ∧ (ctxOf t c.ctx).st = .opened ∧ (ctxOf t c.ctx).syl = none ∧
        (ctxOf t c.ctx).launches = [] ∧ (ctxOf t c.ctx).cards = [] ∧ (ctxOf t c.ctx).extents = x.extents ∧
        (ctxOf t c.ctx).strips = x.strips ∧ (∀ d, d ≠ c.ctx → ctxOf t d = ctxOf s d) ∧ t.hbm = s.hbm ∧ t.cus = s.cus ∧
        t.mus = s.mus ∧ t.sws = s.sws ∧ t.objs = s.objs ∧ t.mwins = s.mwins)) ∧
  (∀ (s : State) (n : Nat) (l : Loading) (file : List Byte), n < 64 → (ctxOf s n).loading = some l → file.length = l.length →
    loadSent s n = true → (∀ r ∈ s.rdmas, r.isLoad = true → r.sent = true) →
    let x := ctxOf s n
    let u := { s with rdmas := s.rdmas.filter fun r => !(r.isLoad && r.ctx = n) }
    (∀ y, loadFile file (ldInOf s x l) = .ok y →
      exec (.loadFetchComplete n ⟨true, file⟩) s = .next (closeStep s (complete (setCtx u n
        { x with loading := none, st := .loaded, syl := some y, level := y.level, loadStatus := ldOk, launchNo := 0, last := none,
                 bind := ([], []), cards := [], tensors := [], resets := [] }) l.cmd n 0 ldOk))) ∧
    (∀ e, loadFile file (ldInOf s x l) = .error e →
      exec (.loadFetchComplete n ⟨true, file⟩) s = .next (closeStep s (complete (setCtx u n
        { x with loading := none, loadStatus := e }) l.cmd n 0x09 e))) ∧
    exec (.loadFetchComplete n ⟨false, file⟩) s = .next (closeStep s (bump s (hportObj (l.cmd.conn / 64) 0x0C) 1)))

/-- LAUNCH of a loaded context with fewer than 16 launches queued, whose shape and bindings the syllabus allows, queues the launch
with the next number and completes; a BE context then has work pending. One above a maximum or unbound is refused with its load
status, and nothing else of the context changes. -/
def Clause.LaunchIsCheckedAndQueued : Prop :=
  ∀ (s : State) (conn : Nat) (msg : Send) (y : Syllabus),
    let c := hcmdOf s conn msg.words
    let x := ctxOf s c.ctx
    let shape := (List.range 16).map fun i => cmdW c (8 + i)
    let b := if bitOf (cmdW c 4) 0 then x.bind else (bindWords c 24, bindWords c 32)
    let st := launchStatus s c.ctx y shape b.1 b.2
    CtxFramed 0x15 4 (launchBits (bitOf (msgW msg.words 4) 0)) conn msg s → x.syl = some y →
    (x.st = .loaded ∨ x.st = .running ∨ x.st = .recess) → wingsOut s x = false → gateRead s 3 = 1 → x.launches.length < 16 →
    (st = ldOk → ∃ t, exec (.launch conn msg) s = .next t ∧
      (∃ q o cs, t = closeStep s { heard s conn with ctxs := cs, queues := q, out := o }) ∧
      (ctxOf t c.ctx).launches = x.launches ++ [{ num := x.launchNo + 1, shape := shape, exports := b.1, imports := b.2,
                                                  cmd := c.ref, auto := false }] ∧
      (ctxOf t c.ctx).launchNo = x.launchNo + 1 ∧ (ctxOf t c.ctx).bind = b ∧ (ctxOf t c.ctx).st = x.st ∧
      (ctxOf t c.ctx).run = x.run ∧ (x.lc = false → x.run = none → (ctxOf t c.ctx).pend = true) ∧
      (x.lc = true → (ctxOf t c.ctx).pend = x.pend) ∧ (∀ d, d ≠ c.ctx → ctxOf t d = ctxOf s d)) ∧
    (st ≠ ldOk → exec (.launch conn msg) s = .next (closeStep s (complete
      (setCtx (heard s conn) c.ctx { x with loadStatus := st }) c.ref c.ctx 0x09 st)))

/-- A syllabus is loaded, launched and unloaded: `SyllabusIsLoadedAndUnloaded` and `LaunchIsCheckedAndQueued` together. -/
def Obligations.SyllabusIsLoadedAndLaunched : Prop :=
  Clause.SyllabusIsLoadedAndUnloaded ∧ Clause.LaunchIsCheckedAndQueued

/-- RECESS of a RUNNING context starts a Recess request, or joins the one under way, and completes when the context is saved; of
a LOADED one it takes the context off the scheduler. RESUME ends a host's hold, and completes when the run continues. RELEASE
takes a detained context, its held state and its run away from DETENTION: with KEEP it is LOADED, or OPEN where it holds no syllabus
(log entry 86), without it is OPEN. -/
def Clause.RecessResumeAndRelease : Prop :=
  ∀ (s : State) (conn : Nat) (msg : Send),
    let c := hcmdOf s conn msg.words
    let x := ctxOf s c.ctx
    (CtxFramed 0x16 1 [] conn msg s → x.st = .running → x.recess = none →
      exec (.recess conn msg) s = .next (closeStep s (setCtx (heard s conn) c.ctx
        { x with recess := some { since := s.fclk, byHost := true, cmds := [c.ref], saving := false } }))) ∧
    (∀ q, CtxFramed 0x16 1 [] conn msg s → x.st = .running → x.recess = some q →
      exec (.recess conn msg) s = .next (closeStep s (setCtx (heard s conn) c.ctx
        { x with recess := some { q with byHost := true, cmds := q.cmds ++ [c.ref] } }))) ∧
    (CtxFramed 0x16 1 [] conn msg s → x.st = .loaded →
      exec (.recess conn msg) s = .next (closeStep s (complete (setCtx (heard s conn) c.ctx { x with pend := false })
        c.ref c.ctx 0 0))) ∧
    (CtxFramed 0x17 1 [] conn msg s → x.st = .recess → x.lc = false →
      exec (.resume conn msg) s = .next (closeStep s (setCtx (heard s conn) c.ctx
        { x with hostHold := false, resume := x.resume ++ [c.ref] }))) ∧
    (CtxFramed 0x18 1 [1] conn msg s → x.st = .detention → x.teardown = none → x.lc = false →
      ∃ t, exec (.release conn msg) s = .next t ∧ (ctxOf t c.ctx).run = none ∧ (ctxOf t c.ctx).heldState = false ∧
        (ctxOf t c.ctx).extents = x.extents ∧ (ctxOf t c.ctx).strips = x.strips ∧
        (bitOf (cmdW c 4) 0 = true → (ctxOf t c.ctx).st = (if x.syl.isSome then .loaded else .opened) ∧ (ctxOf t c.ctx).syl = x.syl ∧ (ctxOf t c.ctx).cards = x.cards) ∧
        (bitOf (cmdW c 4) 0 = false → (ctxOf t c.ctx).st = .opened ∧ (ctxOf t c.ctx).syl = none) ∧
        (∀ d, d ≠ c.ctx → ctxOf t d = ctxOf s d) ∧ t.hbm = s.hbm)

/-- CLOSE of an idle context, which holds no strips and has no saved import, makes it CLOSING at once and closes its memory windows;
CLOSE_TIMEOUT stops the run of one whose run has not ended and marks the close forced; CLOSE_COMPLETE, once nothing of the context is
left, makes it FREE, with its virtual time kept, orphans its objects, and completes the close. -/
def Clause.CloseFreesTheContext : Prop :=
  (∀ (s : State) (conn : Nat) (msg : Send),
    let c := hcmdOf s conn msg.words
    let x := ctxOf s c.ctx
    CtxFramed 0x19 1 [] conn msg s → (x.st = .opened ∨ x.st = .loaded) → x.loading = none → x.run = none → x.launches = [] →
      x.lc = false → x.recess = none → x.resume = [] → x.resets = [] → x.holdSince = none →
      (∀ o ∈ s.objs, ∀ i ∈ o.2.away, i.1 ≠ c.ctx) →
      ∃ t, exec (.close conn msg) s = .next t ∧ (ctxOf t c.ctx).st = .closing ∧
        (ctxOf t c.ctx).closing = some { cmd := some c.ref, since := s.fclk, forced := false } ∧
        (∀ i, (mwinOf s i).st = 1 → (mwinOf s i).ctx = c.ctx → (mwinOf t i).st = 2) ∧
        (∀ d, d ≠ c.ctx → ctxOf t d = ctxOf s d) ∧ t.objs = s.objs ∧ t.hbm = s.hbm) ∧
  (∀ (s : State) (n : Nat), n < 64 → (ctxOf s n).st = .closing → (ctxOf s n).run.isSome = true →
    ∃ t, exec (.closeTimeout n) s = .next t ∧ (ctxOf t n).run = none ∧ (ctxOf t n).st = .closing ∧
      (ctxOf t n).holdSince = none ∧ (ctxOf t n).closing = (ctxOf s n).closing.map fun q => { q with forced := true }) ∧
  (∀ (s : State) (n : Nat) (q : Closing), n < 64 → (ctxOf s n).st = .closing → (ctxOf s n).closing = some q → closed s n = true →
    ∃ t, exec (.closeComplete n) s = .next t ∧
      ctxOf t n = { Ctx.free with vtime := (ctxOf s n).vtime, loadStatus := (ctxOf s n).loadStatus } ∧
      (∀ o, (objOf s o).valid = true → (objOf s o).owner = some n →
        (objOf t o).valid = false ∨ ((objOf t o).orphan = true ∧ (objOf t o).owner = none)))

/-- RECESS, RESUME, RELEASE and CLOSE move a context as R280 says: `RecessResumeAndRelease` and `CloseFreesTheContext` together.
-/
def Obligations.ContextsRecessResumeAndClose : Prop :=
  Clause.RecessResumeAndRelease ∧ Clause.CloseFreesTheContext

/-! ## Memory windows, objects and RDMA -/

/-- MW_OPEN of a range within one extent opens the lowest free window (the model's choice: log entry 85) under a new generation, and its
key is the completion's detail; MW_CLOSE lets the window of a key drain; MW_CLOSE_COMPLETE closes it, posts WINDOW on the event queue of
its context (log entry 53) and completes the command. -/
def Clause.MemoryWindowsOpenAndClose : Prop :=
  (∀ (s : State) (conn : Nat) (msg : Send) (i : Nat),
    let c := hcmdOf s conn msg.words
    let x := ctxOf s c.ctx
    let hosts := fld (cmdW c 8) 16 16
    (CtxFramed 0x20 1 [all32, all32, all32, all32, 0xFFFF0003] conn msg s → x.st ≠ .closing → cmdW2 c 4 % 4096 = 0 →
      cmdW2 c 6 % 4096 = 0 → 0 < cmdW2 c 6 → hosts.testBit c.host = true → fld (cmdW c 8) 0 2 ≠ 0 →
      inOneExtent x.extents (cmdW2 c 4) (cmdW2 c 6) = true → gateRead s 5 = 1 →
      lowestFree s.mwins 4096 (fun i => (mwinOf s i).st != 0) = some i →
      let g := (mwinOf s i).gen + 1
      exec (.mwOpen conn msg) s = .next (closeStep s (complete
        (setMwin (heard s conn) i { st := 1, ctx := c.ctx, base := cmdW2 c 4, len := cmdW2 c 6, hosts := BitVec.ofNat 16 hosts,
                                    rd := bitOf (cmdW c 8) 0, wr := bitOf (cmdW c 8) 1, gen := g, cmd := none })
        c.ref c.ctx 0 (i * 2 ^ 20 + g % 2 ^ 20)))) ∧
    (CtxFramed 0x21 1 [all32] conn msg s → mwNamed s (cmdW c 4) = some i → (mwinOf s i).ctx = c.ctx →
      exec (.mwClose conn msg) s = .next (closeStep s
        (setMwin (heard s conn) i { mwinOf s i with st := 2, cmd := some c.ref }))) ∧
    (CtxFramed 0x21 1 [all32] conn msg s → mwNamed s (cmdW c 4) = none →
      exec (.mwClose conn msg) s = .next (closeStep s (complete (heard s conn) c.ref c.ctx 0x07 0)))) ∧
  (∀ (s : State) (i : Nat) (d : CmdRef), i < 4096 → (mwinOf s i).st = 2 → (mwinOf s i).cmd = some d →
    let w := mwinOf s i
    exec (.mwCloseComplete i) s = .next (closeStep s (complete
      (postOwn (setMwin s i { MWin.closed with gen := w.gen }) (ctxOf s w.ctx).evq (ctxOf s w.ctx).host
        { kind := 7, status := 0, fault := 0x7001, cookie := 0, ctx := w.ctx, flags := 0,
          detail := 0xFFFF + (i * 2 ^ 20 + w.gen % 2 ^ 20) * 2 ^ 32 }) d w.ctx 0 0)))

/-- A host write within an open window lands at the window's base plus the offset, in both copies of a twinned context, changes no other
byte and is acknowledged, and what the controllers correct in the words that it covers in part is counted; a read answers the bytes there
once the controllers have corrected what they can; a request that no open window of the host admits is answered with a NAK and changes
nothing, and one that fails its ICRC is dropped and counted. -/
def Clause.HostRdmaReachesOnlyItsWindow : Prop :=
  ∀ (s : State) (conn rkey off : Nat), conn < 256 → (connOf s conn).live = true →
    (∀ (data : List Byte) (reads : HbmReads) w a, windowFor s conn rkey off data.length true = some (w, a) → s.hbmBad = [] →
      reads.bad = [] →
      let x := ctxOf s w.ctx
      let b := shadowAddr x (w.base + off)
      let n := data.length
      ∃ t m d p, exec (.rdmaWriteRequest conn rkey off ⟨true, data, reads⟩) s = .next t ∧
        t = closeStep s { touch s conn with hbm := m, dict := d, pchans := p, out := .writeAck conn :: s.out } ∧
        (reads.fixed = [] → d = s.dict ∧ p = s.pchans) ∧
        (twinned s x = false → reads.fixed = [a] → a % 32 = 0 → 0 < n → n < 32 → d = sset 0 s.dict 0x220001 (satAdd 32 (dget s 0x220001) 1)) ∧
        (twinned s x = false → mread m a n = data ∧ ∀ i, ¬ (a ≤ i ∧ i < a + n) → sget 0#8 m i = sget 0#8 s.hbm i) ∧
        (twinned s x = true → mread m b n = data ∧ (a + n ≤ b ∨ b + n ≤ a → mread m a n = data) ∧
          ∀ i, ¬ (a ≤ i ∧ i < a + n) → ¬ (b ≤ i ∧ i < b + n) → sget 0#8 m i = sget 0#8 s.hbm i)) ∧
    (∀ len reads w a, windowFor s conn rkey off len false = some (w, a) →
      let u := readThrough (touch s conn) a len reads
      badIn u a len = [] →
      exec (.rdmaReadRequest conn rkey off ⟨len, true, reads⟩) s = .next (closeStep s
        (emit u (.readResponse conn (mread s.hbm a len))))) ∧
    (∀ (data : List Byte) (reads : HbmReads), windowFor s conn rkey off data.length true = none →
      exec (.rdmaWriteRequest conn rkey off ⟨true, data, reads⟩) s = .next (closeStep s (emit (touch s conn) (.nak conn 0x62)))) ∧
    (∀ len reads, windowFor s conn rkey off len false = none →
      exec (.rdmaReadRequest conn rkey off ⟨len, true, reads⟩) s = .next (closeStep s (emit (touch s conn) (.nak conn 0x62)))) ∧
    (∀ (data : List Byte) len reads,
      exec (.rdmaWriteRequest conn rkey off ⟨false, data, reads⟩) s = .next (closeStep s (bump s (hportObj (conn / 64) 0x0C) 1)) ∧
      exec (.rdmaReadRequest conn rkey off ⟨len, false, reads⟩) s = .next (closeStep s (bump s (hportObj (conn / 64) 0x0C) 1)))

/-- A window admits a request only when its key and generation are those of an open window, the host and the direction are
allowed, and every byte lies in the window. -/
def Clause.WindowAdmitsOnlyItsRequests : Prop :=
  ∀ (s : State) (conn rkey off len : Nat) (write : Bool) (w : MWin) (a : Nat),
    windowFor s conn rkey off len write = some (w, a) →
    ∃ i, i < 4096 ∧ mwinOf s i = w ∧ w.st = 1 ∧ rkey = i * 2 ^ 20 + w.gen % 2 ^ 20 ∧ w.hosts.getLsbD (connOf s conn).host = true ∧
      (if write then w.wr else w.rd) = true ∧ off + len ≤ w.len ∧ ((ctxOf s w.ctx).promoted = false → a = w.base + off)

/-- Memory windows open and close, and host RDMA reaches only what its window admits: `MemoryWindowsOpenAndClose` and
`HostRdmaReachesOnlyItsWindow` and `WindowAdmitsOnlyItsRequests` together. -/
def Obligations.WindowsAdmitHostRdma : Prop :=
  Clause.MemoryWindowsOpenAndClose ∧ Clause.HostRdmaReachesOnlyItsWindow ∧ Clause.WindowAdmitsOnlyItsRequests

/-- OBJ_CREATE makes the lowest free object (the lowest: the model's choice, log entry 85) with the initial value, owned by the context;
OBJ_GRANT sets the hosts that may signal and wait; OBJ_DESTROY frees an object of the context that no section imports, running or saved,
and ends its waits. -/
def Clause.ObjectsAreCreatedGrantedDestroyed : Prop :=
  ∀ (s : State) (conn : Nat) (msg : Send) (o : Nat),
    let c := hcmdOf s conn msg.words
    let x := objOf s o
    (CtxFramed 0x28 1 [all32] conn msg s → (ctxOf s c.ctx).st ≠ .closing → cmdW c 4 ≤ 0x7FFFFFFF →
      lowestFree s.objs 4096 (fun o => (objOf s o).valid) = some o →
      exec (.objCreate conn msg) s = .next (closeStep s (complete
        (setObj (heard s conn) o { Obj.none with valid := true, value := cmdW c 4, owner := some c.ctx }) c.ref c.ctx 0 o))) ∧
    (CtxFramed 0x2A 1 [0xFFFF0FFF] conn msg s → o = fld (cmdW c 4) 0 12 → x.valid = true → x.owner = some c.ctx → x.orphan = false →
      exec (.objGrant conn msg) s = .next (closeStep s (complete
        (setObj (heard s conn) o { x with sig := BitVec.ofNat 16 (cmdW c 4 / 65536) }) c.ref c.ctx 0 0))) ∧
    (CtxFramed 0x29 1 [0xFFF] conn msg s → o = fld (cmdW c 4) 0 12 → x.valid = true → x.owner = some c.ctx → x.orphan = false →
      x.importers = [] → x.away = [] →
      ∃ t q out m, exec (.objDestroy conn msg) s = .next t ∧ objOf t o = Obj.none ∧ (∀ p, p ≠ o → objOf t p = objOf s p) ∧
        t = closeStep s { heard s conn with objs := m, queues := q, out := out }) ∧
    (CtxFramed 0x29 1 [0xFFF] conn msg s → o = fld (cmdW c 4) 0 12 → x.valid = true → x.owner ≠ some c.ctx →
      exec (.objDestroy conn msg) s = .next (closeStep s (complete (heard s conn) c.ref c.ctx 0x04 0)))

/-- OBJ_SIGNAL by an allowed host adds its increment, and every wait that the new value meets ends; an increment past 0x7FFFFFFF
is OVERRUN and leaves the object, and one at an orphan is ORPHAN. OBJ_WAIT ends at once when its target is met, and else stays. -/
def Clause.HostsSignalAndAwaitObjects : Prop :=
  ∀ (s : State) (conn : Nat) (msg : Send) (o : Nat),
    let c := hcmdOf s conn msg.words
    let x := objOf s o
    let w : HostWait := { cmd := c.ref, host := c.host, ctx := c.ctx, target := cmdW c 5 }
    o = fld (cmdW c 4) 0 12 → x.valid = true → x.sig.getLsbD c.host = true → objApart s o 0 = false →
    (Framed 0x2B 1 [0xFFF, all32] conn msg s → 1 ≤ cmdW c 5 → cmdW c 5 ≤ 0x7FFFFFFF → x.orphan = false →
      (x.value + cmdW c 5 ≤ 0x7FFFFFFF →
        ∃ t, exec (.objSignal conn msg) s = .next t ∧ (objOf t o).value = x.value + cmdW c 5 ∧
          (x.importers = [] → objOf t o = { x with value := x.value + cmdW c 5,
                                                   waits := x.waits.filter fun w => decide (x.value + cmdW c 5 < w.target) } ∧
            ∃ q out m, t = closeStep s { heard s conn with objs := m, queues := q, out := out })) ∧
      (0x7FFFFFFF < x.value + cmdW c 5 →
        exec (.objSignal conn msg) s = .next (closeStep s (complete (heard s conn) c.ref c.ctx 0x0E 0)))) ∧
    (Framed 0x2B 1 [0xFFF, all32] conn msg s → 1 ≤ cmdW c 5 → cmdW c 5 ≤ 0x7FFFFFFF → x.orphan = true →
      exec (.objSignal conn msg) s = .next (closeStep s (complete (bump (heard s conn) 0x231007 1) c.ref c.ctx 0x0D 0))) ∧
    (Framed 0x2C 1 [0xFFF, all32] conn msg s → x.orphan = false →
      (x.value < cmdW c 5 → exec (.objWait conn msg) s = .next (closeStep s
        (setObj (heard s conn) o { x with waits := x.waits ++ [w] }))) ∧
      (cmdW c 5 ≤ x.value → exec (.objWait conn msg) s = .next (closeStep s (endWait (heard s conn) o w false))))

/-- Shared objects are created, granted, signalled, awaited and destroyed: `ObjectsAreCreatedGrantedDestroyed` and
`HostsSignalAndAwaitObjects` together. -/
def Obligations.SharedObjectsServeHosts : Prop :=
  Clause.ObjectsAreCreatedGrantedDestroyed ∧ Clause.HostsSignalAndAwaitObjects

/-- RC_READ, ROLL_CALL, CTX_READ and DBG_READ write their result to the host and complete with the host's acknowledgement of it;
RC_RESET clears statistics or history of a card whose step is not open, and nothing else. -/
def Clause.ReadoutsWriteTheirResult : Prop :=
  (∀ (s : State) (conn : Nat) (msg : Send),
    let c := hcmdOf s conn msg.words
    let x := ctxOf s c.ctx
    let first := fld (cmdW c 7) 0 8
    let n := fld (cmdW c 7) 8 8 + 1
    let writes (data : List Byte) (st detail : Nat) : State := closeStep s { heard s conn with
      rdmas := s.rdmas ++ [{ conn := conn, cmd := c.ref, ctx := c.ctx, status := st, detail := detail, isLoad := false, sent := true }],
      out := .rdmaWrite conn (cmdW2 c 4) (cmdW c 6) data :: s.out }
    (CtxFramed 0x30 1 [all32, all32, all32, 0xFFFF] conn msg s → x.syl.isSome = true → first + n ≤ 256 →
      exec (.rcRead conn msg) s = .next (writes ((List.range n).flatMap fun i => cardRecord (cardOf x (first + i))) 0 0)) ∧
    (CtxFramed 0x33 1 [all32, all32, all32] conn msg s →
      exec (.ctxRead conn msg) s = .next (writes (ctxRecord x) 0 0)) ∧
    (CtxFramed 0x32 1 [all32, all32, all32, all32] conn msg s → (rollBytes (heard s conn) c.ctx).flatten.length ≤ cmdW c 7 →
      exec (.rollCall conn msg) s = .next (writes (rollBytes (heard s conn) c.ctx).flatten 0 (rollBytes (heard s conn) c.ctx).flatten.length)) ∧
    (∀ data, CtxFramed 0x34 1 [all32, all32, all32, all32, all32, 0x3FFFFF00] conn msg s →
      (ctxMask s x).testBit (siteStrip (daSite (cmdW2 c 8))) = true → cmdW c 7 % 4 = 0 → 0 < cmdW c 7 → cmdW c 7 ≤ 65536 →
      (dbgRead (heard s conn) (some c.ctx) (cmdW2 c 8) (cmdW c 7)).1 = .bytes data →
      ∃ t, exec (.dbgRead conn msg) s = .next t ∧ .rdmaWrite conn (cmdW2 c 4) (cmdW c 6) data ∈ t.out ∧ t.hbm = s.hbm ∧
        t.objs = s.objs ∧ (ctxOf t c.ctx).st = x.st ∧ (ctxOf t c.ctx).run = x.run) ∧
    (CtxFramed 0x31 1 [0x3FF] conn msg s → x.syl.isSome = true → fld (cmdW c 4) 8 2 ≠ 0 → inRun x = false →
      exec (.rcReset conn msg) s = .next (closeStep s (complete
        (resetCard (heard s conn) c.ctx (fld (cmdW c 4) 0 8) (fld (cmdW c 4) 8 2)) c.ref c.ctx 0 0)))) ∧
  (∀ (s : State) (conn : Nat) (a b : List Rdma) (r : Rdma), conn < 256 → (connOf s conn).live = true → s.rdmas = a ++ r :: b →
    (∀ e ∈ a, ¬ (e.conn = conn ∧ e.isLoad = false)) → r.conn = conn → r.isLoad = false →
    exec (.rdmaWriteAcked ⟨conn, true⟩) s = .next (closeStep s (complete
      { setConn s conn { connOf s conn with lastPacket := s.fclk, retries := 0, rnrs := 0 } with rdmas := a ++ b }
      r.cmd r.ctx r.status r.detail)))

/-- What a reset of a card leaves: bit 0 clears its statistics and keeps scale and history flags, bit 1 clears the history of the
card's tensor and of its held copy; no other card, no other tensor and no other context changes. -/
def Clause.CardResetClearsOnlyItsCard : Prop :=
  ∀ (s : State) (n card bits : Nat), card < 256 →
    let x := ctxOf s n
    let y := ctxOf (resetCard s n card bits) n
    (∀ i, i ≠ card → cardOf y i = cardOf x i) ∧ (cardOf y card).scale = (cardOf x card).scale ∧
    (bitOf bits 0 = true → (cardOf y card).sqe = 0 ∧ (cardOf y card).count = 0 ∧ (cardOf y card).maxAbs = 0 ∧
      (cardOf y card).sat = 0 ∧ (cardOf y card).nan = 0 ∧ (cardOf y card).clamp = 0 ∧ (cardOf y card).acc = 0 ∧
      (cardOf y card).steps = 0) ∧
    (bitOf bits 1 = true → (sget Tensor.fresh y.tensors card).hist = [] ∧ (sget Tensor.fresh y.tensors card).prev = none ∧
      (sget Tensor.fresh y.tensors card).next = []) ∧
    (bitOf bits 1 = false → y.tensors = x.tensors) ∧
    (∀ i, i ≠ card → i ≠ 256 + card → sget Tensor.fresh y.tensors i = sget Tensor.fresh x.tensors i) ∧
    y.st = x.st ∧ y.run = x.run ∧ (∀ d, d ≠ n → ctxOf (resetCard s n card bits) d = ctxOf s d)

/-- Readouts write their result, and a card reset clears only its card: `ReadoutsWriteTheirResult` and
`CardResetClearsOnlyItsCard` together. -/
def Obligations.ReadoutsAndCardResets : Prop :=
  Clause.ReadoutsWriteTheirResult ∧ Clause.CardResetClearsOnlyItsCard

/-! ## Connections -/

/-- CM_REQ on a port that carries frames, with a known GID, a free connection of the port and valid private data, gives the
lowest free connection (log entry 85) at line rate, makes its service queue and marks the host connected; an unknown GID, a port without
a free connection and bad private data are rejected, a request that fails its ICRC is dropped and counted, and before ONLINE every request is
rejected, from step 2 on and whatever the state of the link (R439). -/
def Clause.ConnectionRequestIsAnswered : Prop :=
  ∀ (s : State) (port gid : Nat) (priv : List Byte), port < 4 → 2 ≤ s.boot.step → s.boot.stopped = false →
    (∀ h i, s.boot.online = true → hportUp s port = true → hostByGid s gid = some h → i < 64 → (connOf s (64 * port + i)).live = false →
      (∀ j, j < i → (connOf s (64 * port + j)).live = true) → privOk priv = true →
      let n := 64 * port + i
      ∃ t, exec (.cmReq port gid ⟨true, priv⟩) s = .next t ∧
        connOf t n = { live := true, host := h, lastPacket := s.fclk, rate := lineRate, lastCnp := 0, retries := 0, rnrs := 0, bufs := [] } ∧
        queueOf t (serviceQueue n) = { Queue.none with live := true, host := h, conn := n, addr := leAt priv 0 8,
                                                       rkey := BitVec.ofNat 32 (leAt priv 8 4), log2 := leAt priv 12 4 } ∧
        (hostOf t h).state = 1 ∧ (∀ m, m ≠ n → connOf t m = connOf s m) ∧ .rep n ∈ t.out ∧ t.ctxs = s.ctxs ∧ t.objs = s.objs) ∧
    (s.boot.online = false → exec (.cmReq port gid ⟨true, priv⟩) s = .next (closeStep s (emit s (.rej port 1)))) ∧
    (s.boot.online = true → hportUp s port = true →
      exec (.cmReq port gid ⟨false, priv⟩) s = .next (closeStep s (bump s (hportObj port 0x0C) 1)) ∧
      (hostByGid s gid = none →
        exec (.cmReq port gid ⟨true, priv⟩) s = .next (closeStep s (emit (bump s 0x270007 1) (.rej port 0)))) ∧
      (∀ h, hostByGid s gid = some h → (∀ i, i < 64 → (connOf s (64 * port + i)).live = true) →
        exec (.cmReq port gid ⟨true, priv⟩) s = .next (closeStep s (emit s (.rej port 1)))) ∧
      (∀ h i, hostByGid s gid = some h → i < 64 → (connOf s (64 * port + i)).live = false → privOk priv = false →
        exec (.cmReq port gid ⟨true, priv⟩) s = .next (closeStep s (emit s (.rej port 0)))))

/-- A connection that ends, by the host, by silence, by a remote access error or after seven retries, of acknowledgements or of receive
requests, is gone with its service queue and with the operations that waited on it (which end so also with a DREQ or a silent connection:
log entries 28 and 33); the eighth retry is the loss, and an earlier one is only sent again. -/
def Clause.LostConnectionIsGone : Prop :=
  ∀ (s : State) (n : Nat) (i : Instr), n < 256 → (connOf s n).live = true →
    (i = .cmDreq ⟨n, true⟩ ∨ i = .livenessTimeout n ∨ i = .remoteAccessError ⟨n, true⟩ ∨
        (i = .ackTimeout ⟨n, false⟩ ∧ 7 ≤ (connOf s n).retries) ∨ (i = .ackTimeout ⟨n, true⟩ ∧ 7 ≤ (connOf s n).rnrs) →
      ∃ t, exec i s = .next t ∧ connOf t n = Conn.none ∧ (queueOf t (serviceQueue n)).live = false ∧
        (∀ r ∈ t.rdmas, r.conn ≠ n) ∧ (∀ m, m ≠ n → connOf t m = connOf s m) ∧ t.objs = s.objs ∧ t.hbm = s.hbm ∧
        (i = .cmDreq ⟨n, true⟩ → .drep n ∈ t.out) ∧
        (hostConns (setConn s n Conn.none) (connOf s n).host = 0 → (hostOf t (connOf s n).host).state = 0 ∧
          (hostOf t (connOf s n).host).lostAt = s.fclk + 1)) ∧
    ((connOf s n).retries < 7 → exec (.ackTimeout ⟨n, false⟩) s = .next (closeStep s (emit
      (setConn s n { connOf s n with retries := (connOf s n).retries + 1 }) (.retransmit n)))) ∧
    ((connOf s n).rnrs < 7 → exec (.ackTimeout ⟨n, true⟩) s = .next (closeStep s (emit
      (setConn s n { connOf s n with rnrs := (connOf s n).rnrs + 1, lastPacket := s.fclk }) (.retransmit n))))

/-- When a host's grace time has passed without a connection, every context of it is CLOSING, its lease has ended, its queues are
gone, and it signals no object and awaits none. -/
def Clause.LostHostLosesEverything : Prop :=
  ∀ (s : State) (h : Nat), h < 16 → hostConns s h = 0 → (hostOf s h).lostAt ≠ 0 →
    ∃ t, exec (.hostGraceExpiry h) s = .next t ∧ (hostOf t h).state = 2 ∧
      (∀ c, c < 64 → (ctxOf s c).st ≠ .free → (ctxOf s c).host = h → (ctxOf t c).st = .closing) ∧
      t.lease.holder ≠ some h ∧
      (∀ q, (queueOf t q).live = true → (queueOf t q).host ≠ h) ∧
      (∀ o, (objOf t o).sig.getLsbD h = false ∧ ∀ w ∈ (objOf t o).waits, w.host ≠ h) ∧ t.conns = s.conns

/-- Connections are granted, lost, and a lost host loses everything: `ConnectionRequestIsAnswered` and `LostConnectionIsGone` and
`LostHostLosesEverything` together. -/
def Obligations.ConnectionsComeAndGo : Prop :=
  Clause.ConnectionRequestIsAnswered ∧ Clause.LostConnectionIsGone ∧ Clause.LostHostLosesEverything

/-- An invalid request is answered with a NAK and leaves the connection as it was (log entry 28), a marked packet is answered with a CNP, a
CNP halves the send rate, a remainder dropped (log entry 32), and is counted, and time without a CNP raises the rate by 1/16 of line rate,
at most to it; a packet that fails its ICRC is dropped and counted. -/
def Obligations.SendRatesFollowCongestion : Prop :=
  ∀ (s : State) (n : Nat), n < 256 → (connOf s n).live = true →
    let k := connOf s n
    exec (.unsupportedRequest ⟨n, true⟩) s = .next (closeStep s (emit (touch s n) (.nak n 0x61))) ∧
    exec (.ecnMarkedPacket ⟨n, true⟩) s = .next (closeStep s (emit (touch s n) (.cnp n))) ∧
    exec (.cnpReceived ⟨n, true⟩) s = .next (closeStep s (bump
      (setConn s n { k with rate := k.rate / 2, lastCnp := s.fclk, lastPacket := s.fclk }) (hportObj (n / 64) 0x0B) 1)) ∧
    exec (.sendRateRaise n) s = .next (closeStep s (setConn s n { k with rate := min lineRate (k.rate + lineRate / 16) })) ∧
    ∀ i ∈ [Instr.unsupportedRequest ⟨n, false⟩, .ecnMarkedPacket ⟨n, false⟩, .cnpReceived ⟨n, false⟩, .cmDreq ⟨n, false⟩,
           .remoteAccessError ⟨n, false⟩, .rdmaWriteAcked ⟨n, false⟩],
      exec i s = .next (closeStep s (bump s (hportObj (n / 64) 0x0C) 1))

/-! ## Trien links -/

/-- Only the ports' own records and what leaves the block change, and of the ports only `p`, which becomes `x`. -/
def PortOnly (s t : State) (p : Nat) (x : TPort) : Prop :=
  ∃ m o, t = closeStep s { s with tports := m, out := o } ∧ sget TPort.down m p = x ∧ ∀ q, q ≠ p → sget TPort.down m q = tportOf s q

/-- A port that leaves UP to retrain forgets its negotiation and keeps its replay buffer and sequence numbers (R337, R339). -/
def retrained (s : State) (t : TPort) : TPort :=
  { t with link := .retrain, since := s.fclk, retrains := satAdd 32 t.retrains 1, protoAt := t.protoAt.take 8, naks := 0,
           nakAt := none, ctlRest := [], offered := none, confirmed := none, echoes := [],
           notUpSince := some (t.notUpSince.getD s.fclk), replayFull := none, laneAsk := none, pendMap := none, txPend := none,
           locked := false }

/-- The CONTROL frame of one word as a port sends it next: with its SEQ, its ACK and the CRC (R335 to R338). -/
def sentWord (x : TPort) (w : Nat) : List Byte :=
  frameBytes (setFld (setFld (wordFrame w).hdr 4 12 x.nextSeq.toNat) 16 12 x.expect.toNat) (wordFrame w).body

/-- A port that stood as `x` has sent the word in its next codeword. -/
def Sends (t : State) (p : Nat) (x : TPort) (w : Nat) : Prop :=
  ∃ lanes, .frame p x.txIdx.toNat (sentWord x w) lanes ∈ t.out

/-- A codeword that decodes, follows the one before it and holds a good frame. -/
def Sound (x : TPort) (c : Codeword) : Prop := c.fec = true ∧ cwFollows x c = true ∧ crcGood c.frame = true

/-- A port that stood as `x` answers with NAK and the SEQ it expects. -/
def Naks (t : State) (p : Nat) (x : TPort) : Prop :=
  ∃ lanes, .frame p x.txIdx.toNat (frameBytes (x.expect.toNat * 2 ^ 16 + 2 ^ 28) []) lanes ∈ t.out

/-- The link state machine: light on four lanes takes a DOWN port to TRAIN, a lock to NEGOTIATE, where HELLO and 16 ECHO words go out from
SEQ 0 in frames of one word each, and CWIDX restarts at 0 (the model's choice: log entry 78), as they do after the lock of a retrain; a
training that takes too long goes DOWN and is counted, and starts again; loss of light ends INCOMPATIBLE; an idle UP link, or one whose
replay buffer stays full, retrains. -/
def Obligations.LinkStatesFollowEvents : Prop :=
  ∀ (s : State) (p lanes : Nat), p < numPorts s →
    let x := tportOf s p
    let moved (y : TPort) (l : Link) : TPort := { y with link := l, since := s.fclk, notUpSince := some (x.notUpSince.getD s.fclk) }
    (6 ≤ s.boot.step → s.power.opticsOff.getLsbD (p / 16) = false → x.link = .down → 4 ≤ popBits lanes 5 →
      ∃ t, exec (.lightDetected p lanes) s = .next t ∧
        PortOnly s t p (moved { x with light := true, lit := BitVec.ofNat 5 lanes, lanesOk := BitVec.ofNat 5 lanes } .train)) ∧
    (x.link = .train ∨ x.link = .retrain → 4 ≤ popBits x.lanesOk.toNat 5 →
      ∃ t y, exec (.trainLock p) s = .next t ∧ PortOnly s t p y ∧ y.link = (if x.link = .train then .negotiate else .retrain) ∧
        y.locked = true ∧ y.expect = 0 ∧ y.nextSeq = 17 ∧
        y.echoes = (List.range 16).map (fun i => (i, s.fclk)) ∧ y.offered = none ∧ y.confirmed = none ∧
        ∃ lanes, .frame p 0 (frameBytes (2 + 2 ^ 38) (leBytes 16 (helloWord s false 0x0100 0x0101))) lanes ∈ t.out) ∧
    (x.link = .train ∨ x.link = .retrain →
      ∃ t, exec (.trainTimeout p) s = .next t ∧
        PortOnly s t p (moved { x with trainFails := satAdd 16 x.trainFails 1 } .down)) ∧
    (x.link = .negotiate → x.offered = none →
      ∃ t, exec (.negotiateTimeout p) s = .next t ∧
        PortOnly s t p (moved { x with trainFails := satAdd 16 x.trainFails 1 } .down)) ∧
    (x.link = .down → 4 ≤ popBits x.lanesOk.toNat 5 →
      ∃ t, exec (.trainRetryTimer p) s = .next t ∧ PortOnly s t p (moved x .train)) ∧
    (∃ t, exec (.lightLost p) s = .next t ∧
      (x.link = .incompatible → PortOnly s t p (moved { x with light := false, lit := 0, lanesOk := 0, cause := 0 } .down)) ∧
      (x.link ≠ .incompatible → PortOnly s t p { x with light := false, lit := 0, lanesOk := 0 })) ∧
    (x.link = .up →
      (∃ t, exec (.linkIdleTimeout p) s = .next t ∧ PortOnly s t p (retrained s x)) ∧
      (1024 ≤ x.replay.length → ∃ t, exec (.replayBufferFullTimeout p) s = .next t ∧ PortOnly s t p (retrained s x)))

/-- Frames are taken in sequence: a good one with the expected SEQ is accepted and the expectation rises by 1 modulo 4,096; any
other SEQ, a bad CRC, an uncorrectable codeword or a gap in CWIDX leaves the expectation, and errors are counted and answered with a NAK;
that a gap in CWIDX counts in FEC_UNCORR and that a NAK goes in an IDLE frame are the model's choices (log entry 78). -/
def Clause.FramesAreTakenInSequence : Prop :=
  ∀ (s : State) (p : Nat) (c : Codeword),
    let x := tportOf s p
    let h := frameHdr c.frame
    let r := takeFrame s p c
    let y := tportOf r.2 p
    (Sound x c → fhType h ≠ 0 → fhSeq h = x.expect.toNat → fhOk h = true → r.1 = true ∧ y.expect = x.expect + 1) ∧
    (Sound x c → fhType h ≠ 0 → fhSeq h ≠ x.expect.toNat → r.1 = false ∧ y.expect = x.expect) ∧
    (c.fec = true → cwFollows x c = true → crcGood c.frame = false →
      r.1 = false ∧ y.expect = x.expect ∧ y.crcErr = satAdd 32 x.crcErr 1 ∧ y.uncorr = x.uncorr ∧ Naks r.2 p x) ∧
    (c.fec = false ∨ cwFollows x c = false →
      r.1 = false ∧ y.expect = x.expect ∧ y.uncorr = satAdd 32 x.uncorr 1 ∧ y.crcErr = x.crcErr ∧ Naks r.2 p x) ∧
    (Sound x c → fhType h = 0 → r.1 = false ∧ y.expect = x.expect)

/-- What an acknowledgement does: the frames it covers leave the replay buffer, and no other does; a NAK sends the rest again, each
with the port's present ACK. -/
def Clause.AcknowledgedFramesLeaveReplay : Prop :=
  ∀ (s : State) (p h : Nat), (tportOf s p).sendq = [] →
    let x := tportOf s p
    let rest := x.replay.filter fun e => seqDiff 12 (fhAck h) e.1 = 0 || decide (2048 < seqDiff 12 (fhAck h) e.1)
    (tportOf (takeAck s p h) p).replay = rest ∧ (∀ q, q ≠ p → tportOf (takeAck s p h) q = tportOf s q) ∧
    (fhNak h = false → (takeAck s p h).out = s.out) ∧
    (fhNak h = true → ∀ e ∈ rest, ∃ idx lanes,
      .frame p idx (frameBytes (setFld e.2.hdr 16 12 (tportOf s p).expect.toNat) e.2.body) lanes ∈ (takeAck s p h).out)

/-- Frames are taken in sequence and leave the replay buffer when acknowledged: `FramesAreTakenInSequence` and
`AcknowledgedFramesLeaveReplay` together. -/
def Obligations.FramesAndAcknowledgementsInSequence : Prop :=
  Clause.FramesAreTakenInSequence ∧ Clause.AcknowledgedFramesLeaveReplay

/-- An IDLE frame on a link that talks gives its acknowledgement; a DATA frame that is accepted and completes the next block of an
open ingress window, within its limit, adds the block to those that wait to land. -/
def Clause.DataFramesBuildBlocks : Prop :=
  ∀ (s : State) (p : Nat) (cw : Codeword), p < numPorts s → linkTalks (tportOf s p) = true → cw.ok = true →
    Sound (tportOf s p) cw →
    let h := frameHdr cw.frame
    (fhType h = 0 → fhOk h = true → (tportOf s p).sendq = [] →
      ∃ t, exec (.idleFrame p (some cw.idx) cw.frame) s = .next t ∧ (∃ m o, t = closeStep s { s with tports := m, out := o }) ∧
        (tportOf t p).expect = (tportOf s p).expect ∧ (tportOf t p).lastFrame = s.fclk ∧
        (tportOf t p).replay = (tportOf s p).replay.filter fun e =>
          seqDiff 12 (fhAck h) e.1 = 0 || decide (2048 < seqDiff 12 (fhAck h) e.1)) ∧
    (fhType h = 1 → fhOk h = true → fhSeq h = (tportOf s p).expect.toNat →
      let body := (cw.frame.drop 16).take (fhLen h)
      let n := 64 * p + fhChan h
      let w := chanOf s n
      w.st = .opened → wdEgress w.wd = false → w.revoked = false → w.partBlock = none → fhFirst h = true → fhLast h = true →
      fhFidx h = 0 → fhLen h = wdBytes w.wd → BitVec.ofNat 32 (fhBlock h) = expectedBlock w → behind (expectedBlock w) w.limit = true →
      ¬ (wdKind w.wd = 1 ∧ (ctxOf s (wdCtx w.wd)).st = .recess) →
      ∃ t, exec (.dataFrame p cw.fec cw.idx cw.frame) s = .next t ∧ (tportOf t p).expect = (tportOf s p).expect + 1 ∧
        chanOf t n = { w with landing := w.landing ++ [w.part ++ body], part := [], partBlock := none, skip := none } ∧
        (∀ c, c ≠ n → chanOf t c = chanOf s c) ∧ t.hbm = s.hbm ∧ t.mus = s.mus ∧ t.ctxs = s.ctxs)

/-- A control word of the type comes on a port of the grade and is acted on; `u` is the state once its frame has been received. -/
def WordComes (ty p : Nat) (c : Option Codeword) (w : Nat) (s u : State) : Prop :=
  p < numPorts s ∧ w < 2 ^ 128 ∧ cwType w = ty ∧ wordGiven c w = true ∧ takeWord s p c w = (true, u)

/-- When a word is acted on: on a link that talks, as the first word of an accepted CONTROL frame or as the next word of the one
accepted last, if it is a word of the interface; a word that is not makes the link retrain. -/
def Clause.ControlWordsFollowTheirFrame : Prop :=
  ∀ (s : State) (p w : Nat), linkTalks (tportOf s p) = true →
    let x := tportOf s p
    (∀ rest, x.ctlRest = w :: rest → cwOk w = true → takeWord s p none w = (true, setTport s p { x with ctlRest := rest })) ∧
    (∀ v rest, x.ctlRest = v :: rest → v ≠ w → takeWord s p none w = (false, s)) ∧
    (x.ctlRest = [] → takeWord s p none w = (false, s)) ∧
    (∀ rest, x.ctlRest = w :: rest → cwOk w = false →
      takeWord s p none w = (false, retrain (setTport s p { x with ctlRest := rest }) p true)) ∧
    (∀ c, Sound x c → let h := frameHdr c.frame
      fhType h = 2 → fhOk h = true → fhSeq h = x.expect.toNat → cwOk w = true →
      let r := takeWord s p (some c) w
      r.1 = true ∧ (tportOf r.2 p).expect = x.expect + 1 ∧
      (tportOf r.2 p).ctlRest = (List.range (fhLen h - 1)).map fun i => frameWord c.frame (i + 1))

/-- IDLE frames acknowledge, DATA frames build blocks, and control words follow their frame: `DataFramesBuildBlocks` and
`ControlWordsFollowTheirFrame` together. -/
def Obligations.FramesCarryBlocksAndWords : Prop :=
  Clause.DataFramesBuildBlocks ∧ Clause.ControlWordsFollowTheirFrame

/-- HELLO records the partner and its window of versions, or its confirmation; without a common version the link is INCOMPATIBLE; a
confirmation agrees with both its versions or not at all; with both confirmed and every echo back the link is UP with that version. ECHO
is answered with its number, and a reply removes its echo and raises the round trip to its delay. -/
def Clause.NegotiationReachesUp : Prop :=
  ∀ (s u : State) (p : Nat) (hdr : Option Codeword) (w : Nat),
    let x := tportOf u p
    (WordComes 0x10 p hdr w s u → ∃ t, exec (.hello p hdr w) s = .next t ∧
      (∃ m n q o, t = closeStep s { u with tports := m, chans := n, queues := q, out := o }) ∧
      (tportOf t p).partner = BitVec.ofNat 64 (fld w 64 32 + fld w 96 32 * 2 ^ 32) ∧
      (bitOf w 16 = false → (tportOf t p).offered = some (fld w 56 8, fld w 48 8, fld w 40 8, fld w 32 8) ∧
        (commonVersion (fld w 56 8, fld w 48 8, fld w 40 8, fld w 32 8) = none →
          (tportOf t p).link = .incompatible ∧ (tportOf t p).cause = 1)) ∧
      (bitOf w 16 = true → (tportOf t p).confirmed = some (fld w 48 16, fld w 32 16) ∧
        (∀ v, x.offered.bind commonVersion = some v → x.echoes = [] → (x.link = .negotiate ∨ x.link = .retrain) →
          (fld w 48 16 = v ∧ fld w 32 16 = v → (tportOf t p).link = .up ∧ (tportOf t p).version = v) ∧
          (¬ (fld w 48 16 = v ∧ fld w 32 16 = v) → (tportOf t p).link = x.link)))) ∧
    (WordComes 0x11 p hdr w s u → linkTalks x = true → x.sendq = [] → x.replay.length < 1024 →
      ∃ t m o, exec (.echo p hdr w) s = .next t ∧ t = closeStep s { u with tports := m, out := o } ∧
        Sends t p x (cw 0x12 0 (fld w 32 16 * 2 ^ 32)) ∧ (tportOf t p).nextSeq = x.nextSeq + 1) ∧
    (∀ a e b, WordComes 0x12 p hdr w s u → x.echoes = a ++ e :: b → e.1 = fld w 32 16 → (∀ f ∈ a, f.1 ≠ fld w 32 16) →
      ∃ t, exec (.echoReply p hdr w) s = .next t ∧ (tportOf t p).echoes = a ++ b ∧
        (tportOf t p).rtt = max x.rtt (nsOf (u.fclk - e.2)) ∧
        (a ++ b = [] → 10000 < max x.rtt (nsOf (u.fclk - e.2)) → (x.link = .negotiate ∨ x.link = .retrain) →
          (tportOf t p).link = .incompatible ∧ (tportOf t p).cause = 2))

/-- An unfit lane of an UP link is mapped onto a fit spare by LANE_MAP, and retrains the link when there is none; LANE_MAP is
acknowledged and awaits its switch in the direction sent, and an acknowledged one in the direction received; the switch changes that
direction's map and is recorded. -/
def Clause.SpareLaneTakesOver : Prop :=
  ∀ (s u : State) (p l w : Nat) (hdr : Option Codeword),
    let x := tportOf s p
    let m := x.map.toNat
    let ok (q : Nat) : BitVec 5 := x.lanesOk &&& ~~~(BitVec.ofNat 5 (2 ^ q))
    (p < numPorts s → x.link = .up → l < 4 → (∀ k, k < l → physLane m k ≠ physLane m l) →
      let q := physLane m l
      (∀ n, n = setFld m (3 * l) 3 (spareLane m) → m = 0x688 → x.laneAsk = none ∨ x.laneAsk = some n →
        (ok q).getLsbD (spareLane m) = true → x.sendq = [] → x.replay.length < 1024 →
        ∃ t y, exec (.laneMarkersLost p q) s = .next t ∧ PortOnly s t p y ∧ y.lanesOk = ok q ∧ y.map = x.map ∧ y.link = .up ∧
          y.laneAsk = some n ∧ Sends t p x (cw 0x13 0 (n * 2 ^ 32 + switchAt x * 2 ^ 48))) ∧
      (m ≠ 0x688 → q < 5 →
        ∃ t, exec (.laneMarkersLost p q) s = .next t ∧ PortOnly s t p (retrained s { x with lanesOk := ok q })) ∧
      (∀ errors : List Nat, dget s 0x260005 * 12800000 < errors.getD q 0 * 1000000000 →
        (∀ k, k < l → errors.getD (physLane m k) 0 * 1000000000 ≤ dget s 0x260005 * 12800000) → m ≠ 0x688 →
        ∃ t, exec (.laneErrorWindow p errors) s = .next t ∧ PortOnly s t p (retrained s { x with lanesOk := ok q }))) ∧
    (WordComes 0x13 p hdr w s u → ∃ t, exec (.laneMap p hdr w) s = .next t ∧
      (∃ n o, t = closeStep s { u with tports := n, out := o }) ∧ (tportOf t p).txPend = some (fld w 32 12, fld w 48 12) ∧
      (tportOf t p).map = (tportOf u p).map) ∧
    (WordComes 0x14 p hdr w s u → exec (.laneMapAck p hdr w) s = .next (closeStep s
      (setTport u p { tportOf u p with pendMap := some (fld w 32 12, fld w 48 12) }))) ∧
    (∀ sent n at_, p < numPorts s → (if sent then x.txPend else x.pendMap) = some (n, at_) →
      ∃ t, exec (.laneSwitch ⟨p, sent⟩) s = .next t ∧
      (sent = false → tportOf t p = { x with map := BitVec.ofNat 12 n, pendMap := none, laneAsk := none,
                                             spareUsed := BitVec.ofNat 12 n != 0x688#12 || x.txMap != 0x688#12 }) ∧
      (sent = true → tportOf t p = { x with txMap := BitVec.ofNat 12 n, txPend := none,
                                            spareUsed := x.map != 0x688#12 || BitVec.ofNat 12 n != 0x688#12 }) ∧
      (s.health.remaps.length < 64 → ∃ r, t.health.remaps = s.health.remaps ++ [r] ∧ r % 2 ^ 32 / 2 ^ 28 = 2) ∧ (∀ q, q ≠ p → tportOf t q = tportOf s q) ∧ t.chans = s.chans)

/-- Ports negotiate a version and switch to the spare lane: `NegotiationReachesUp` and `SpareLaneTakesOver` together. -/
def Obligations.PortsNegotiateAndSwitchLanes : Prop :=
  Clause.NegotiationReachesUp ∧ Clause.SpareLaneTakesOver

/-! ## Stream windows -/

/-- Only channel `c` of the channels, ports, queues and what leaves the block change. -/
def ChanOnly (s t : State) (c : Nat) : Prop :=
  ∃ m p q o, t = closeStep s { s with chans := m, tports := p, queues := q, out := o } ∧
    ∀ d, d ≠ c → sget Chan.closed m d = chanOf s d

/-- SW_OPEN with an accepted descriptor makes a CLOSED channel OPENING and offers OPEN to the partner; a descriptor that fails a
check is refused with the number of the check, and nothing changes. SW_CLOSE of an open window starts its close. -/
def Obligations.HostsOpenAndCloseStreamWindows : Prop :=
  ∀ (s : State) (conn : Nat) (msg : Send),
    let c := hcmdOf s conn msg.words
    let ch := cmdW c 4
    let d := leNat ((List.range 8).flatMap fun i => leBytes 4 (cmdW c (8 + i)))
    (CtxFramed 0x22 1 ([0xFFF, 0, 0, 0] ++ List.replicate 8 all32) conn msg s → gateRead s 4 = 1 → wdStatus s c.host ch d = 0 →
      (chanOf s ch).heldOpen = none →
      ∃ t, exec (.swOpen conn msg) s = .next t ∧ ChanOnly (heard s conn) t ch ∧
        chanOf t ch = { Chan.closed with st := .opening, wd := d, cmd := some c.ref, since := s.fclk,
                                         p0 := (objOf s (wdProd d)).value, c0 := (objOf s (wdCons d)).value }) ∧
    (CtxFramed 0x22 1 ([0xFFF, 0, 0, 0] ++ List.replicate 8 all32) conn msg s → gateRead s 4 = 1 → wdStatus s c.host ch d ≠ 0 →
      exec (.swOpen conn msg) s = .next (closeStep s (complete (heard s conn) c.ref c.ctx 0x0A (wdStatus s c.host ch d)))) ∧
    (CtxFramed 0x23 1 [0xFFF] conn msg s → ch < numChans s → (chanOf s ch).st = .opened → wdCtx (chanOf s ch).wd = c.ctx →
      wdKind (chanOf s ch).wd ≠ 1 →
      ∃ t, exec (.swClose conn msg) s = .next t ∧ ChanOnly (heard s conn) t ch ∧ (chanOf t ch).st = .closing ∧
        (chanOf t ch).closeCmd = some c.ref ∧ (chanOf t ch).wd = (chanOf s ch).wd ∧ (chanOf t ch).cursor = (chanOf s ch).cursor)

/-- The words of a channel: OPEN of the opposite direction and of the same block size opens an OPENING window and completes its
command, and is held for a CLOSED one; CLOSE refuses an OPENING window; REVOKE of an egress window takes LIMIT and CURSOR to its
cursor; REWIND of a revoked ingress window at the block it expects ends the revocation. -/
def Obligations.ChannelWordsMoveWindows : Prop :=
  ∀ (s u : State) (p : Nat) (hdr : Option Codeword) (w : Nat),
    let c := wordChan p w
    let x := chanOf u c
    let cur : W32 := BitVec.ofNat 32 (fld w 32 32)
    (WordComes 0x06 p hdr w s u → x.st = .opening → opensMatch x.wd (fld w 32 1) (fld w 33 15) = true →
      ∃ t, exec (.windowOpenWord p hdr w) s = .next t ∧ ChanOnly s t c ∧ (chanOf t c).st = .opened ∧ (chanOf t c).cmd = none ∧
        (chanOf t c).wd = x.wd ∧ (chanOf t c).since = u.fclk) ∧
    (WordComes 0x06 p hdr w s u → x.st = .closed →
      exec (.windowOpenWord p hdr w) s = .next (closeStep s
        (setChan u c { x with heldOpen := some (fld w 32 1 + 2 * fld w 33 15, u.fclk) }))) ∧
    (WordComes 0x07 p hdr w s u → x.st = .opening →
      ∃ t, exec (.windowCloseWord p hdr w) s = .next t ∧ ChanOnly s t c ∧ chanOf t c = Chan.closed) ∧
    (WordComes 0x07 p hdr w s u → x.st = .closing → wdEgress x.wd = false → x.fin.isSome = true → x.landing = [] → x.held = [] →
      x.partBlock = none →
      ∃ t, exec (.windowCloseWord p hdr w) s = .next t ∧ ChanOnly s t c ∧ chanOf t c = Chan.closed) ∧
    (WordComes 0x02 p hdr w s u → wdEgress x.wd = true → (x.st = .opened ∨ x.st = .closing) →
      ∃ t, exec (.revoke p hdr w) s = .next t ∧ ChanOnly s t c ∧
        chanOf t c = { x with limit := cur, cursor := if behind cur x.cursor then cur else x.cursor }) ∧
    (WordComes 0x03 p hdr w s u → (x.st = .opened ∨ x.st = .closing) →
      ∃ t, exec (.rewind p hdr w) s = .next t ∧ ChanOnly s t c ∧
        (wdEgress x.wd = true → (chanOf t c).cursor = if behind cur x.acked then x.acked
          else if behind (nextBlock x) cur then nextBlock x else cur) ∧
        (wdEgress x.wd = false → (chanOf t c).part = [] ∧ (chanOf t c).partBlock = none ∧ (chanOf t c).landing = x.landing ∧
          (x.revoked = true → ((chanOf t c).revoked = false ↔ cur = expectedBlock x)))) ∧
    (WordComes 0x04 p hdr w s u → wdEgress x.wd = true → x.st = .opened →
      ∃ t, exec (.wclosed p hdr w) s = .next t ∧ ChanOnly s t c ∧
        let n := if behind cur x.cursor then cur else x.cursor
        (¬ (behind n x.acked = true ∨ n = x.acked) → (chanOf t c).st = .closing ∧ (chanOf t c).cursor = n ∧
          (chanOf t c).partnerClosed = true) ∧
        ((behind n x.acked = true ∨ n = x.acked) → chanOf t c = Chan.closed)) ∧
    (WordComes 0x01 p hdr w s u → wdEgress x.wd = true → x.st = .opened →
      let lim : W32 := BitVec.ofNat 32 (fld w 64 32)
      let n := if behind x.acked cur then min (cur - x.acked).toNat (nextBlock x - x.acked).toNat else 0
      let upTo := x.acked + BitVec.ofNat 32 n
      (wdKind x.wd = 2 → (objOf u (wdCons x.wd)).value + n ≤ 0x7FFFFFFF) →
      ∃ t, exec (.credit p hdr w) s = .next t ∧ (chanOf t c).limit = (if behind x.limit lim then lim else x.limit) ∧
        (chanOf t c).acked = upTo ∧ (chanOf t c).cursor = (if behind x.cursor upTo then upTo else x.cursor) ∧ (chanOf t c).st = .opened ∧
        (∀ d, d ≠ c → chanOf t d = chanOf s d) ∧ t.hbm = s.hbm) ∧
    (∀ i, WordComes 0x05 p hdr w s u → 0x0101 ≤ (tportOf u p).version → x.st = .opened → wdEgress x.wd = false → i < 4 →
      dget u (0x250105 + i) = c → (∀ j, j < 4 → j ≠ i → dget u (0x250105 + j) ≠ c) →
      (srcOf u (4 + i)).phase / 65536 < fld w 32 48 →
      ∃ t, exec (.stepToken p hdr w) s = .next t ∧ (srcOf t (4 + i)).phase = fld w 32 48 * 65536 ∧
        (srcOf t (4 + i)).lastEvent = u.fclk ∧ (∀ j, j ≠ 4 + i → srcOf t j = srcOf s j) ∧ t.chans = s.chans)

/-- Timeouts of windows: an OPENING window closes and its command ends with PARTNER; a held OPEN is refused; a CLOSING window
closes by force; the windows of a port whose link stays away are LOST, and a closing one has closed. -/
def Obligations.WindowTimeoutsEndWindows : Prop :=
  ∀ (s : State) (c : Nat), c < numChans s →
    let w := chanOf s c
    (w.st = .opening → ∃ t, exec (.windowOpenTimeout c) s = .next t ∧ ChanOnly s t c ∧ chanOf t c = Chan.closed) ∧
    (w.st = .closed → w.heldOpen.isSome = true →
      ∃ t, exec (.windowOpenTimeout c) s = .next t ∧ ChanOnly s t c ∧ chanOf t c = { w with heldOpen := none }) ∧
    (w.st = .closing → ∃ t, exec (.windowCloseTimeout c) s = .next t ∧ ChanOnly s t c ∧ chanOf t c = Chan.closed) ∧
    ((tportOf s (c / 64)).link ≠ .up → ∃ t, exec (.streamHoldExpiry (c / 64)) s = .next t ∧
      (w.st = .opened → (chanOf t c).st = .lost ∧ (chanOf t c).landing = [] ∧ (chanOf t c).held = []) ∧
      (w.st = .opening → openedSince s c = false → (chanOf t c).st = .lost) ∧ (openedSince s c = true → chanOf t c = w) ∧
      (w.st = .closing → chanOf t c = Chan.closed) ∧ (∀ d, d / 64 ≠ c / 64 → chanOf t d = chanOf s d) ∧ t.hbm = s.hbm) ∧
    (w.st = .opened → wdEgress w.wd = false → wdKind w.wd = 2 →
      ∃ t, exec (.creditCoalesce c) s = .next t ∧ ChanOnly s t c ∧
        chanOf t c = { w with acked := w.cursor, creditAt := some s.fclk,
                              limit := BitVec.ofNat 32 ((objOf s (wdCons w.wd)).value - w.c0 + wdNbuf w.wd) })

/-- A check of a unit's stores that finds no uncorrectable word. -/
def readable : Sram → Bool
  | .bad _ _ => false
  | _ => true

/-- The block after the last one sent, once a window has sent the block at its cursor. -/
def sentAfter (w : Chan) : W32 := if behind w.sent (w.cursor + 1) then w.cursor + 1 else w.sent

/-- Blocks move: a whole block lands in slot HEAD of its ring or in its place in the buffer, and in no other byte; a block that is
written whole leaves while the limit is ahead and it is its window's turn, and CURSOR rises by 1; its frames hold its bytes in order,
each with its number, its place and its length. -/
def Obligations.BlocksLandAndLeave : Prop :=
  ∀ (s : State) (c : Nat), c < numChans s →
    let w := chanOf s c
    let x := ctxOf s (wdCtx w.wd)
    (∀ b rest, w.landing = b :: rest → w.st = .opened → wdEgress w.wd = false → ringActive s w.wd = true → ringRoom s w.wd = true →
      twinned s x = false →
      let k := ringSite x w.wd
      let r := ringOf (muOf s k) (wdRing w.wd)
      ∃ t, exec (.blockLand c) s = .next t ∧ mread (muOf t k).spad (ringSlotAt s k w.wd r.head) b.length = b ∧
        (∀ a, ¬ (ringSlotAt s k w.wd r.head ≤ a ∧ a < ringSlotAt s k w.wd r.head + b.length) →
          sget 0#8 (muOf t k).spad a = sget 0#8 (muOf s k).spad a) ∧
        (ringOf (muOf t k) (wdRing w.wd)).occ = r.occ + 1 ∧ (chanOf t c).landing = rest ∧ (chanOf t c).cursor = w.cursor + 1 ∧
        (∀ j, j ≠ k → (muOf t j).spad = (muOf s j).spad) ∧ t.hbm = s.hbm) ∧
    (∀ b rest, w.landing = b :: rest → w.st = .opened → wdKind w.wd = 2 →
      let a := hbmBlockAt s w.wd w.cursor.toNat
      blockApart s c a b.length = false → (objOf s (wdProd w.wd)).value < 0x7FFFFFFF → (objOf s (wdProd w.wd)).valid = true →
      (objOf s (wdProd w.wd)).orphan = false → (objOf s (wdProd w.wd)).importers = [] →
      ∃ t, exec (.hbmBlockLand c) s = .next t ∧ mread t.hbm a b.length = b ∧
        (∀ i, ¬ (a ≤ i ∧ i < a + b.length) → sget 0#8 t.hbm i = sget 0#8 s.hbm i) ∧
        (objOf t (wdProd w.wd)).value = (objOf s (wdProd w.wd)).value + 1 ∧ (chanOf t c).cursor = w.cursor + 1 ∧
        (chanOf t c).landing = rest ∧ (∀ d, d ≠ c → chanOf t d = chanOf s d)) ∧
    (∀ data reads sram, readable sram = true → w.st = .opened → wdEgress w.wd = true → (tportOf s (c / 64)).link = .up → behind w.cursor w.limit = true →
      let u := egressReads s c reads
      egressBlock u w = some data → nextWindow u (c / 64) = some c →
      (wdKind w.wd = 1 → twinned u x = false) →
      (wdKind w.wd = 2 → blockApart u c (hbmBlockAt u w.wd w.cursor.toNat) data.length = false ∧
        badIn u (hbmBlockAt u w.wd w.cursor.toNat) data.length = []) →
      ∃ t, exec (.egressBlockSend ⟨c, reads, sram⟩) s = .next t ∧ (chanOf t c).cursor = w.cursor + 1 ∧ (chanOf t c).sent = sentAfter w ∧
        (∀ d, d ≠ c → chanOf t d = chanOf s d) ∧ t.hbm = s.hbm ∧ t.ctxs = s.ctxs ∧
        let y := tportOf s (c / 64)
        (y.sendq = [] → y.replay.length + ceilDiv data.length 616 ≤ 1024 →
          ∀ f ∈ blockFrames (if x.lc then 1 else 2) c w.cursor data, ∃ idx q lanes,
            .frame (c / 64) idx (frameBytes (setFld (setFld f.hdr 4 12 q) 16 12 y.expect.toNat) f.body) lanes ∈ t.out)) ∧
    (∀ cls data, data ≠ [] → data.length ≤ 2097088 →
      let l := blockFrames cls c w.cursor data
      l.flatMap TxFrame.body = data ∧ ∀ i f, l[i]? = some f →
        fhFidx f.hdr = i ∧ fhLen f.hdr = f.body.length ∧ f.body.length ≤ 616 ∧ fhChan f.hdr = c % 64 ∧ fhBlock f.hdr = w.cursor.toNat ∧
        fhFirst f.hdr = decide (i = 0) ∧ fhLast f.hdr = decide (i + 1 = l.length)) ∧
    (w.st = .opened → wdKind w.wd = 1 → x.st = .recess → w.rewind = false → wdEgress w.wd = true → w.acked ≠ w.cursor →
      ∃ t, exec (.recessPartnerSilence c) s = .next t ∧ chanOf t c = { w with rewind := true } ∧
        (ctxOf t (wdCtx w.wd)).rewind = true ∧ (ctxOf t (wdCtx w.wd)).st = .recess ∧ (∀ d, d ≠ c → chanOf t d = chanOf s d))

/-- Twins: a block of an egress ring leaves only when the CRC of the shadow's block, which its MU holds whole, agrees with the
primary's; a block or an increment of an object that the shadow does not produce in time fences the shadow, and the primary goes on as
ACTIVE. -/
def Obligations.TwinBlocksAreCompared : Prop :=
  (∀ (s : State) (c : Nat), c < numChans s →
    let w := chanOf s c
    let x := ctxOf s (wdCtx w.wd)
    twinned s x = true → wdKind w.wd = 1 →
    (∀ data shadow sram, readable sram = true → w.st = .opened → wdEgress w.wd = true → (tportOf s (c / 64)).link = .up →
      behind w.cursor w.limit = true → egressBlock s w = some data → ringBlock s (shadowSite x w.wd) w = some shadow →
      nextWindow (setChan s c { w with shadowCrc := some (crc64 shadow) }) (c / 64) = some c →
      ∃ t, exec (.twinEgressCompare c sram) s = .next t ∧
        (crc64 shadow = crc64 data → (chanOf t c).cursor = w.cursor + 1 ∧ (chanOf t c).sent = sentAfter w) ∧
        (crc64 shadow ≠ crc64 data → (chanOf t c).cursor = w.cursor ∧ dget t 0x281005 = satAdd 32 (dget s 0x281005) 1)) ∧
    (∀ v, v < 4 → w.egressAt.isSome = true → w.shadowCrc = none → v / 2 = wingPair (siteWing (ringSite x w.wd)) →
      (wingOf s v).st = .twinShadow → (wingOf s (partner v)).st = .twinPrimary →
      ∃ t, exec (.twinEgressTimeout (.block c)) s = .next t ∧ (wingOf t v).st = .fenced ∧ (wingOf t (partner v)).st = .active ∧
        (wingOf t v).cause = 0x8004 ∧ t.chans = (setChan s c { w with egressAt := none }).chans)) ∧
  (∀ (s : State) (c o v q : Nat), let x := ctxOf s c
    twinned s x = true → (∃ inc, (o, false, inc) ∈ x.cmp) → v < 4 →
    (List.range 4).find? (fun w => fld x.strips (16 * w) 16 != 0) = some q → v / 2 = wingPair q →
    (wingOf s v).st = .twinShadow → (wingOf s (partner v)).st = .twinPrimary →
    ∃ t, exec (.twinEgressTimeout (.increment c o)) s = .next t ∧ (wingOf t v).st = .fenced ∧ (wingOf t (partner v)).st = .active ∧
      (wingOf t v).cause = 0x8004 ∧ (ctxOf t c).st = x.st ∧ (∀ j, (objOf t j).value = (objOf s j).value))

/-! ## Phase sources and PTP -/

/-- Of the sources only source `i` changes, and beside the sources only timetables, due entries, queues and what leaves the block. -/
def SrcOnly (s t : State) (i : Nat) : Prop :=
  ∃ m x d q o, t = closeStep s { s with srcs := m, tts := x, due := d, queues := q, out := o } ∧
    ∀ j, j ≠ i → sget Source.off m j = srcOf s j

/-- The counter of a source whose lock, if it has one, drops: a fraction is kept only while LOCKED (R306). -/
def phaseUnlocked (x : Source) : Nat := if x.st = .locked then x.phase / 65536 * 65536 else x.phase

/-- A Bell edge that the mode counts moves the counter of source 0 by one whole step, up or down, with the fraction cleared, and H
never falls; both channels of quadrature at once count as illegal and drop the lock. -/
def Clause.BellEdgesCount : Prop :=
  ∀ (s : State) (a b : Bool),
    let pa := s.bell.getLsbD 0
    let pb := s.bell.getLsbD 1
    let x := srcOf s 0
    let mode := dget s 0x250001
    let u : State := { s with bell := BitVec.ofNat 2 (b2n a + 2 * b2n b) }
    ((mode = 1 ∧ a = true ∧ pa = false) ∨ (mode = 2 ∧ a = true ∧ pa = false ∧ b = true) ∨
        (mode = 3 ∧ a ≠ pa ∧ b = pb ∧ a ≠ b) ∨ (mode = 3 ∧ a = pa ∧ b ≠ pb ∧ a = b) →
      ∃ t, exec (.bellEdge a b) s = .next t ∧ SrcOnly u t 0 ∧ (srcOf t 0).phase = (x.phase / 65536 + 1) * 65536 % 2 ^ 64 ∧
        (srcOf t 0).high = max x.high (srcOf t 0).phase ∧ (srcOf t 0).lastEvent = s.fclk) ∧
    ((mode = 2 ∧ a = true ∧ pa = false ∧ b = false) ∨ (mode = 3 ∧ a ≠ pa ∧ b = pb ∧ a = b) ∨
        (mode = 3 ∧ a = pa ∧ b ≠ pb ∧ a ≠ b) →
      1 ≤ x.phase / 65536 → x.phase < 2 ^ 64 →
      ∃ t, exec (.bellEdge a b) s = .next t ∧ SrcOnly u t 0 ∧ (srcOf t 0).phase = (x.phase / 65536 - 1) * 65536 ∧
        x.high ≤ (srcOf t 0).high ∧ (srcOf t 0).st ≠ .locked) ∧
    (mode = 3 → a ≠ pa → b ≠ pb → ∃ t, exec (.bellEdge a b) s = .next t ∧ SrcOnly u t 0 ∧ (srcOf t 0).phase = phaseUnlocked x ∧
      (srcOf t 0).illegal = satAdd 8 x.illegal 1 ∧ (srcOf t 0).st ≠ .locked) ∧
    (mode = 0 → exec (.bellEdge a b) s = .next (closeStep s u))

/-- An index edge in MARK mode only marks; in counts-per-revolution mode it confirms a counter at a multiple of the count, sets one
within 4 counts of it to it, and drops the lock of one further off, which is counted. -/
def Clause.IndexEdgeCorrectsCounter : Prop :=
  ∀ s : State,
    let x := srcOf s 0
    let n := dget s 0x250004
    let i := x.phase / 65536
    let m := (2 * i + n) / (2 * n) * n
    (dget s 0x250003 = 2 → exec (.bellIndexEdge true) s = .next (closeStep s (setSrc s 0 { x with zSeen := true }))) ∧
    (dget s 0x250003 = 1 → 0 < n →
      (i = m → exec (.bellIndexEdge true) s = .next (closeStep s (setSrc s 0 { x with zSeen := true }))) ∧
      (i ≠ m → i ≤ m + 4 → m ≤ i + 4 → m < 2 ^ 48 → ∃ t, exec (.bellIndexEdge true) s = .next t ∧ SrcOnly s t 0 ∧
        (srcOf t 0).phase = m * 65536 ∧ (srcOf t 0).zSeen = true ∧ x.high ≤ (srcOf t 0).high ∧
        (i + 1 < m ∨ m + 1 < i → (srcOf t 0).st ≠ .locked)) ∧
      (m + 4 < i ∨ i + 4 < m → ∃ t, exec (.bellIndexEdge true) s = .next t ∧ SrcOnly s t 0 ∧ (srcOf t 0).phase = phaseUnlocked x ∧
        (srcOf t 0).zFaults = satAdd 2 x.zFaults 1 ∧ (srcOf t 0).st ≠ .locked)) ∧
    (exec (.bellIndexEdge false) s = .next (closeStep s s))

/-- Bell and index edges move the counter of source 0: `BellEdgesCount` and `IndexEdgeCorrectsCounter` together. -/
def Obligations.BellMovesSourceZero : Prop :=
  Clause.BellEdgesCount ∧ Clause.IndexEdgeCorrectsCounter

/-- An acquiring source locks at the fifth event exactly when each of the four intervals lies within the tolerance of their mean. -/
def Clause.SourceLocksOnFourIntervals : Prop :=
  ∀ (tol t a b c d : Nat) (r : List Nat) (x : Source), x.st = .acquiring → x.stamps = a :: b :: c :: d :: r →
    let sum := (t - a) + (a - b) + (b - c) + (c - d)
    let near (i : Nat) : Prop := (4 * i - sum) * 100 ≤ tol * sum ∧ (sum - 4 * i) * 100 ≤ tol * sum
    ((lockEvent tol t x).st = .locked ↔ near (t - a) ∧ near (a - b) ∧ near (b - c) ∧ near (c - d)) ∧
    (lockEvent tol t x).phase = x.phase ∧ (lockEvent tol t x).high = x.high ∧ (lockEvent tol t x).lastEvent = t

/-- A locked source without an event for twice its interval is ACQUIRING again and the loss is counted; one without an event for the
loss timeout is LOST; the PTP servo locks at the sixteenth offset of at most 100 ns and unlocks above 1 µs or without a Sync. -/
def Clause.SourcesLoseTheirLock : Prop :=
  ∀ s : State,
    (∀ i, i < 8 → i ≠ 1 → i ≠ 3 → (srcOf s i).st = .locked → exec (.intervalTimeout i) s = .next (closeStep s
      (setSrc s i { srcOf s i with st := .acquiring, stamps := [], losses := satAdd 8 (srcOf s i).losses 1,
                                   phase := (srcOf s i).phase / 65536 * 65536 }))) ∧
    (∀ i, i < 8 → ((srcOf s i).st = .acquiring ∨ (srcOf s i).st = .locked) →
      ∃ t, exec (.sourceLossTimeout i) s = .next t ∧
        srcOf t i = { srcOf s i with st := .lost, stamps := [],
                                     phase := if i = 1 then (srcOf s i).phase else (srcOf s i).phase / 65536 * 65536 } ∧
        (∀ j, j ≠ i → srcOf t j = srcOf s j) ∧ t.ctxs = s.ctxs ∧ t.due = s.due) ∧
    (∀ n time off, n < 4 → s.hlink.getLsbD n = true → dget s 0x250101 ≠ n →
      let p := ptpOf s n
      exec (.ptpSync n time off) s = .next (closeStep s (setPtp { s with free := s.free + 1 } n
        { p with offset := off, time := time, at_ := s.fclk, corr := servoCorr s.free, good := if off.natAbs ≤ 100 then min 16 (p.good + 1) else 0,
                 locked := if 1000 < off.natAbs then false
                           else p.locked || (if off.natAbs ≤ 100 then min 16 (p.good + 1) else 0) = 16 }))) ∧
    (∀ n time off, n < 4 → s.hlink.getLsbD n = true → dget s 0x250101 = n → 0 < dget s 0x250102 → dget s 0x250103 ≤ time →
      ∃ t, exec (.ptpSync n time off) s = .next t ∧
        (srcOf t 1).phase = (time - dget s 0x250103) * 65536 / dget s 0x250102 % 2 ^ 64 ∧
        ((srcOf t 1).st = .locked ↔ (ptpOf t n).locked = true) ∧ (ptpOf t n).time = time ∧ (ptpOf t n).at_ = s.fclk ∧
        (ptpOf t n).corr.natAbs ≤ 20000) ∧
    (∀ n, n < 4 → dget s 0x250101 ≠ n → exec (.ptpSyncLoss n) s = .next (closeStep s
      (setPtp s n { ptpOf s n with locked := false, good := 0 })))

/-- Sources lock on four even intervals and lose their lock: `SourceLocksOnFourIntervals` and `SourcesLoseTheirLock` together. -/
def Obligations.SourcesLockAndLose : Prop :=
  Clause.SourceLocksOnFourIntervals ∧ Clause.SourcesLoseTheirLock

/-! ## The Timetable -/

/-- What is due next, if anything, is an entry and not the start of a cycle. -/
def NoStart (l : List Due) : Prop := ∀ d, l.head? = some d → d.start = false

/-- A RELEASE that finds its context LOADED with a run staged starts that run with the oldest launch; one that finds no work counts
a release without a run, and one that finds the run still going counts an overrun. -/
def Clause.ReleaseStartsTheStagedRun : Prop :=
  ∀ (s : State) (n : Nat) (d : Due) (rest : List Due), n < 8 → s.due = d :: rest → d.tt = n → d.start = false →
    NoStart rest → teAction (entryOf s d.entry) = 1 →
    let c := ttCtx s n
    let x := ctxOf s c
    c < 64 → x.lc = true → wingsOut s x = false →
    (∀ r l ls, x.st = .loaded → x.run = some r → r.writing = false → x.launches = l :: ls →
      ∃ t, exec (.timetableRelease n) s = .next t ∧ (ctxOf t c).st = .running ∧ (ctxOf t c).run.map Run.launch = some l ∧
        (ctxOf t c).run.map Run.start = some s.fclk ∧ (ctxOf t c).launches = ls ∧ (ttOf t n).runs = satAdd 32 (ttOf s n).runs 1 ∧
        (ttOf t n).deferred = none ∧ t.due = rest ∧ (∀ e, e ≠ c → ctxOf t e = ctxOf s e) ∧ t.hbm = s.hbm) ∧
    (x.st = .loaded → x.launches = [] → teAuto (entryOf s d.entry) = false →
      ∃ t m, exec (.timetableRelease n) s = .next t ∧ t = closeStep s { s with tts := m, due := rest } ∧
        (ttOf t n).noRun = satAdd 16 (ttOf s n).noRun 1 ∧ (ttOf t n).runs = (ttOf s n).runs) ∧
    (x.st = .running →
      ∃ t m q o, exec (.timetableRelease n) s = .next t ∧ t = closeStep s { s with tts := m, due := rest, queues := q, out := o } ∧
        (ttOf t n).overruns = satAdd 32 (ttOf s n).overruns 1 ∧ (ttOf t n).runs = (ttOf s n).runs)

/-- A SIGNAL entry raises the object bound to its export by COUNT; a CHECK entry acts only when the object bound to its export has not risen
by COUNT since the cycle's last release, and then counts a miss. -/
def Clause.SignalAndCheckUseTheExport : Prop :=
  ∀ (s : State) (n : Nat) (d : Due) (rest : List Due) (o : Nat), n < 8 → s.due = d :: rest → d.tt = n → d.start = false → NoStart rest →
    ttCtx s n < 64 →
    let e := entryOf s d.entry
    let x := objOf s o
    let locked := srcLocked s (ttSource s n)
    (teAction e = 2 → exportObj (ctxOf s (ttCtx s n)) (teExport e) = some o → x.owner = some (ttCtx s n) → x.valid = true → x.orphan = false → x.value + teCount e ≤ 0x7FFFFFFF → x.importers = [] →
      ∃ t m q out, exec (.timetableSignal n) s = .next t ∧
        t = closeStep s { s with objs := m, due := rest, queues := q, out := out } ∧
        objOf t o = { x with value := x.value + teCount e, waits := x.waits.filter fun w => decide (x.value + teCount e < w.target) } ∧
        ∀ p, p ≠ o → objOf t p = objOf s p) ∧
    (∀ b, teAction e = 3 → (ttOf s n).base.find? (fun b => b.1 = d.cycle) = some b →
      exportObj (ctxOf s (ttCtx s n)) (teExport e) = some o →
      sget 0 b.2 o + teCount e ≤ x.value → exec (.timetableCheck n) s = .next (closeStep s { s with due := rest })) ∧
    (∀ b, teAction e = 3 → (ttOf s n).base.find? (fun b => b.1 = d.cycle) = some b →
      exportObj (ctxOf s (ttCtx s n)) (teExport e) = some o → x.value < sget 0 b.2 o + teCount e →
      ∃ t, exec (.timetableCheck n) s = .next t ∧ dget t 0x201201 = satAdd 32 (dget s 0x201201) 1 ∧
        (ttOf t n).misses = (if locked then satAdd 32 (ttOf s n).misses 1 else (ttOf s n).misses) ∧
        (ttOf t n).missesUnl = (if locked then (ttOf s n).missesUnl else satAdd 32 (ttOf s n).missesUnl 1))

/-- A deadline that passes before its run completes is a miss, once for the run; under an unlocked source, or with no response
that stops it, the run goes on. -/
def Clause.DeadlinesCountMissesOnce : Prop :=
  ∀ (s : State) (n : Nat) (r : Run) (e cyc : Nat), n < 8 → releasedRun s n = some (r, e, cyc) →
    let c := ttCtx s n
    let locked := srcLocked s (ttSource s n)
    let counted (t : State) : Prop := dget t 0x201201 = satAdd 32 (dget s 0x201201) 1 ∧
      (ttOf t n).misses = (if locked then satAdd 32 (ttOf s n).misses 1 else (ttOf s n).misses) ∧
      (ttOf t n).missesUnl = (if locked then (ttOf s n).missesUnl else satAdd 32 (ttOf s n).missesUnl 1)
    (∀ p, r.deadline = some p → r.phaseUp = false → p ≤ (srcOf s (ttSource s n)).high →
      ∃ t, exec (.phaseDeadlinePass n) s = .next t ∧ counted t ∧
        (locked = false ∨ ttResponse s n < 2 → (ctxOf t c).run = some { r with phaseUp := true } ∧ (ctxOf t c).st = (ctxOf s c).st)) ∧
    (r.timeUp = false → dget s (ttObj n 9) ≠ 0 →
      ∃ t, exec (.timeDeadlineExpiry n) s = .next t ∧ counted t ∧
        (locked = false ∨ ttResponse s n < 2 → (ctxOf t c).run = some { r with timeUp := true } ∧ (ctxOf t c).st = (ctxOf s c).st)) ∧
    (∀ p, r.deadline = some p → r.phaseUp = true → (ttOf s n).deferred = none → exec (.phaseDeadlinePass n) s = .next (closeStep s s))

/-- SIGNAL raises, CHECK and deadlines count misses: `SignalAndCheckUseTheExport` and `DeadlinesCountMissesOnce` together. -/
def Obligations.EntriesSignalCheckAndMiss : Prop :=
  Clause.SignalAndCheckUseTheExport ∧ Clause.DeadlinesCountMissesOnce

/-- Staging writes the first turn of the launch that is due into free strips under the lowest cooled Term and holds it; its end is
marked, and a quiescing timetable whose run does not end in time stops it and is disabled. -/
def Clause.StagingHoldsTheFirstTurn : Prop :=
  (∀ (s : State) (c : Nat) (y : Syllabus) (l : Launch) (term : Nat), c < 64 →
    let x := ctxOf s c
    x.lc = true → x.st = .loaded → x.run = none → x.holdSince = none → wingsOut s x = false → stripsFree s c = true →
    x.syl = some y → x.launches.head? = some l →
    let u := setCtx s c { x with run := some (newRun s l true) }
    bridgeRefused u c (bridgeNeed u c y 0) = false → freeTerm s = some term →
    ∃ t, exec (.stagingStart c) s = .next t ∧ (ctxOf t c).st = .loaded ∧ (ctxOf t c).holdSince = some s.fclk ∧
      (ctxOf t c).run.map (fun r => (r.launch, r.turn, r.staged, r.writing)) = some (l, 0, true, true) ∧
      (ctxOf t c).launches = x.launches ∧ sget (none, 0, 64) t.terms term = (some c, 0, c) ∧ (∀ d, d ≠ c → ctxOf t d = ctxOf s d)) ∧
  (∀ (s : State) (c : Nat) (r : Run), c < 64 →
    let x := ctxOf s c
    x.run = some r → r.writing = true → x.termWait = false → x.st = .loaded → (ttOf s x.tt).deferred = none →
    exec (.stagingComplete c) s = .next (closeStep s (setCtx s c { x with run := some { r with writing := false } }))) ∧
  (∀ (s : State) (n : Nat), n < 8 → (ttOf s n).state = 3 →
    ∃ t, exec (.timetableQuiesceTimeout n) s = .next t ∧ (ttOf t n).state = 0 ∧
      (ttCtx s n < 64 → runLive (ctxOf s (ttCtx s n)) = true → (ctxOf t (ttCtx s n)).run = none) ∧
      (runLive (ctxOf s (ttCtx s n)) = false → t.ctxs = s.ctxs))

/-- Staging holds the first turn, and a RELEASE starts it: `StagingHoldsTheFirstTurn` and `ReleaseStartsTheStagedRun` together. -/
def Obligations.RunsAreStagedAndReleased : Prop :=
  Clause.StagingHoldsTheFirstTurn ∧ Clause.ReleaseStartsTheStagedRun

/-! ## Scheduling, Recess and detention -/

/-- A context whose queued launch has just been taken as a run. -/
def startedCtx (s : State) (x : Ctx) (l : Launch) (ls : List Launch) : Ctx :=
  { x with launches := ls, pend := false, st := .running, run := some (newRun s l false), last := some { l with auto := false },
           tensors := freshSteps x.tensors, before := beforeRun x }

/-- The scheduler starts a loaded BE context with a launch queued whose strips are free: it runs turn 0 of that launch from now,
under a fresh Term, and holds its strips. -/
def Obligations.SchedulerStartsPendingContext : Prop :=
  ∀ (s : State) (c : Nat) (y : Syllabus) (l : Launch) (ls : List Launch) (term : Nat), c < 64 → schedOrder s = [c] →
    let x := ctxOf s c
    x.st = .loaded → x.run = none → x.holdSince = none → x.launches = l :: ls → stripsFree s c = true → wingsOut s x = false →
    x.syl = some y → freeTerm s = some term →
    let u := setCtx s c (startedCtx s x l ls)
    bridgeRefused u c (bridgeNeed u c y 0) = false →
    ∃ t, exec .schedulerStart s = .next t ∧ (ctxOf t c).st = .running ∧ (ctxOf t c).launches = ls ∧
      (ctxOf t c).run.map (fun r => (r.launch, r.turn, r.start, r.staged)) = some (l, 0, s.fclk, false) ∧
      (ctxOf t c).holdSince = some s.fclk ∧ (ctxOf t c).pend = false ∧ (∀ d, d ≠ c → ctxOf t d = ctxOf s d) ∧ t.hbm = s.hbm

/-- At the end of its quantum a BE context is charged its whole µs of strip time, and a Recess request follows exactly when another
context that could run on its strips has the lower virtual time; an LC context's lender asks its borrower to leave. -/
def Clause.QuantumChargesAndYields : Prop :=
  ∀ (s : State) (c t0 : Nat), c < 64 →
    let x := ctxOf s c
    x.lc = false → x.st = .running →
    (x.holdSince = some t0 → 0 < x.weight →
      let n := stripCount x.strips * ((s.fclk - t0) / 1800 - x.charged)
      let v := (x.vtime + n * (1000000 / x.weight)) % 2 ^ 64
      ∃ t, exec (.beQuantumExpiry c) s = .next t ∧ (ctxOf t c).stripUs = (x.stripUs + n) % 2 ^ 64 ∧ (ctxOf t c).vtime = v ∧
        (ctxOf t c).quantumAt = s.fclk ∧ (ctxOf t c).st = .running ∧
        ((ctxOf t c).recess.isSome = true ↔ x.recess.isSome = true ∨ ∃ e ∈ s.ctxs, e.1 ≠ c ∧ e.2.lc = false ∧
          (e.2.pend = true ∨ (e.2.st = .recess ∧ e.2.hostHold = false)) ∧ Nat.land e.2.strips x.strips ≠ 0 ∧ e.2.vtime < v) ∧
        (∀ d, d ≠ c → ctxOf t d = ctxOf s d)) ∧
    (∀ e ∈ s.ctxs, e.2.lc = true → e.2.lend = true → e.2.st ≠ .free → Nat.land e.2.strips x.strips ≠ 0 → x.recess = none →
      exec (.lendRecessRequest c) s = .next (closeStep s (setCtx s c
        { x with recess := some { since := s.fclk, byHost := false, cmds := [], saving := false } })))

/-- The command has its COMPLETION for context `c` without an error: where its queue has room and holds nothing, that is its next event. -/
def Completes (s t : State) (d : CmdRef) (c : Nat) : Prop :=
  let n := cmdQueue s d
  let q := queueOf s n
  d.silent = false → q.live = true → qRoom s q = true → q.held = [] → ∃ addr imm, .event n q.conn addr imm (eventRecord n q.seq
    { kind := 1, status := 0, fault := 0, cookie := d.cookie, ctx := c, flags := 0, detail := 0 }) ∈ t.out

/-- A context under a Recess request saves at a turn boundary or once its turn is still; when saved it is in RECESS without its
strips, and the RECESS command completes; it resumes under a Term, and the RESUME command completes; and one whose point does not come
in time is detained with PREEMPT_TIMEOUT. -/
def Clause.RecessSavesAndRestores : Prop :=
  ∀ (s : State) (c : Nat) (q : RecessReq) (r : Run) (y : Syllabus), c < 64 →
    let x := ctxOf s c
    x.run = some r → x.syl = some y →
    (x.recess = some q → q.saving = false → r.staged = false → x.termWait = false → executes x = true →
      (r.held = true ∨ turnStill s c = true) →
      exec (.recessPointReached c) s = .next (closeStep s (setCtx s c { x with recess := some { q with saving := true } }))) ∧
    (x.recess = some q → q.saving = true → x.st ≠ .closing →
      ∃ t, exec (.saveComplete c) s = .next t ∧ (ctxOf t c).st = .recess ∧ (ctxOf t c).recess = none ∧
        (ctxOf t c).hostHold = q.byHost ∧ (ctxOf t c).recessCount = satAdd 32 x.recessCount 1 ∧ (ctxOf t c).holdSince = none ∧
        (∀ d, q.cmds = [d] → Completes s t d c) ∧
        (ctxOf t c).run = some { r with bridge := [] } ∧ (∀ d, d ≠ c → ctxOf t d = ctxOf s d) ∧ t.hbm = s.hbm) ∧
    (∀ term, x.st = .recess → x.holdSince.isSome = true → r.held = true → r.staged = false →
      bridgeRefused s c (bridgeNeed s c y r.turn) = false → (heldTerm s c).or (freeTerm s) = some term →
      ∃ t, exec (.restoreComplete c) s = .next t ∧ (ctxOf t c).st = .running ∧ (ctxOf t c).resume = [] ∧
        (∀ d, x.resume = [d] → Completes s t d c) ∧
        (ctxOf t c).run.map (fun r => (r.launch, r.turn, r.held)) = some (r.launch, r.turn, false) ∧
        sget (none, 0, 64) t.terms term = (some c, 0, c) ∧ (∀ d, d ≠ c → ctxOf t d = ctxOf s d) ∧ t.hbm = s.hbm) ∧
    (x.recess = some q → x.st = .running → q.saving = false →
      ∃ t, exec (.preemptTimeout c) s = .next t ∧ (ctxOf t c).st = .detention ∧ (ctxOf t c).fault = 0x4005 ∧
        (ctxOf t c).teardown = some s.fclk ∧ dget t 0x234007 = satAdd 32 (dget s 0x234007) 1)

/-- Quanta are charged, and contexts yield, save and restore: `QuantumChargesAndYields` and `RecessSavesAndRestores` together. -/
def Obligations.ContextsYieldSaveAndRestore : Prop :=
  Clause.QuantumChargesAndYields ∧ Clause.RecessSavesAndRestores

/-- Detention takes a running or saved context out of service with its fault word and drops its launches; its strips, extents and
syllabus stay, and where it owns no object no other context changes. A miss under DETAIN and a split take one that is OPEN or LOADED too
(the model's choice, log entry 86). The teardown then keeps its state and frees its strips. -/
def Obligations.DetentionIsolatesTheContext : Prop :=
  (∀ (s : State) (c : Nat) (word : W16) (site given : Option Nat),
    let x := ctxOf s c
    let y := ctxOf (detain s c word site given) c
    (x.st = .running ∨ x.st = .recess) →
    y.st = .detention ∧ y.fault = word ∧ y.launches = [] ∧ y.recess = none ∧ y.teardown = some s.fclk ∧ y.strips = x.strips ∧
    y.extents = x.extents ∧ y.syl = x.syl ∧ y.run = x.run ∧ (detain s c word site given).hbm = s.hbm ∧
    (ownedObjs s c = [] → (∀ d, d ≠ c → ctxOf (detain s c word site given) d = ctxOf s d) ∧
      (detain s c word site given).objs = s.objs)) ∧
  (∀ (s : State) (c : Nat) (word : W16) (site given : Option Nat), (ctxOf s c).st ≠ .running → (ctxOf s c).st ≠ .recess →
    ctxOf (detain s c word site given) c = ctxOf s c) ∧
  (∀ (s : State) (c : Nat) (word : W16) (given : Option Nat),
    let x := ctxOf s c
    let y := ctxOf (detainAny s c word given) c
    (x.st = .opened ∨ x.st = .loaded) → ownedObjs s c = [] →
    y.st = .detention ∧ y.fault = word ∧ y.launches = [] ∧ y.teardown = some s.fclk ∧ y.strips = x.strips ∧ y.extents = x.extents ∧
    y.syl = x.syl ∧ (∀ d, d ≠ c → ctxOf (detainAny s c word given) d = ctxOf s d)) ∧
  (∀ (s : State) (c : Nat), c < 64 → (ctxOf s c).st = .detention → (ctxOf s c).teardown.isSome = true →
    ∃ t, exec (.teardownComplete c) s = .next t ∧ (ctxOf t c).st = .detention ∧ (ctxOf t c).teardown = none ∧
      (ctxOf t c).heldState = true ∧ (ctxOf t c).run = none ∧ (ctxOf t c).holdSince = none ∧ (ctxOf t c).syl = (ctxOf s c).syl ∧
      (ctxOf t c).fault = (ctxOf s c).fault ∧ (∀ d, d ≠ c → ctxOf t d = ctxOf s d))

/-- A turn that is done in every unit, with nothing under way, ends: the next turn of the run starts, or the run ends and the context
is LOADED without a run; an LC context's run takes its slack, and a release that waits starts the oldest launch then. A zero-extent turn
applies its completions once and ends likewise. -/
def Obligations.TurnsEndAndRunsComplete : Prop :=
  ∀ (s : State) (c : Nat) (y : Syllabus) (r : Run), c < 64 →
    let x := ctxOf s c
    x.st = .running → x.syl = some y → x.run = some r → r.staged = false → r.held = false → x.termWait = false → x.recess = none →
    (∀ i, ((i = .turnComplete c ∧ r.zero = false ∧ turnDone s c = true ∧ twinDone s c = true) ∨
           (i = .zeroExtentComplete c ∧ r.zero = true ∧ r.zeroDone = true ∧ stillWires s (ctxMask s x) = true ∧
            stepsMerged x false = true ∧ stepsMerged x true = true)) →
      (hdrNsect y.file ≤ r.turn + 1 → x.lc = false →
        ∃ t, exec i s = .next t ∧ (ctxOf t c).st = .loaded ∧ (ctxOf t c).run = none ∧ (ctxOf t c).holdSince = none ∧
          (ctxOf t c).launches = x.launches ∧ ((ctxOf t c).pend = true ↔ x.launches ≠ [] ∨ x.pend = true) ∧
          (∀ d, d ≠ c → ctxOf t d = ctxOf s d) ∧ t.hbm = s.hbm) ∧
      (hdrNsect y.file ≤ r.turn + 1 → x.lc = true → (ttOf s x.tt).deferred = none →
        ∃ t, exec i s = .next t ∧ (ctxOf t c).st = .loaded ∧ (ctxOf t c).run = none ∧ (ctxOf t c).holdSince = none ∧
          (ctxOf t c).launches = x.launches ∧ (ctxOf t c).pend = x.pend ∧ (∀ d, d ≠ c → ctxOf t d = ctxOf s d) ∧
          (∀ p, r.deadline = some p → r.posted = false → let h := (srcOf s (ttSource s x.tt)).high
            h < p → (ttOf t x.tt).minSlack = min (ttOf s x.tt).minSlack (min (p - h) 0xFFFFFFFF)) ∧ t.hbm = s.hbm) ∧
      (∀ e cyc ph l ls, hdrNsect y.file ≤ r.turn + 1 → x.lc = true → (ttOf s x.tt).deferred = some (e, cyc, ph) →
        x.launches = l :: ls → wingsOut s x = false → secSpans y.file 0 = false →
        ∃ t, exec i s = .next t ∧ (ctxOf t c).st = .running ∧ (ctxOf t c).launches = ls ∧ (ttOf t x.tt).deferred = none ∧
          (ctxOf t c).run.map (fun q => (q.launch, q.turn, q.start, q.entry)) = some (l, 0, s.fclk, some (e, cyc, ph)) ∧
          (ttOf t x.tt).runs = satAdd 32 (ttOf s x.tt).runs 1 ∧ (∀ d, d ≠ c → ctxOf t d = ctxOf s d) ∧ t.hbm = s.hbm) ∧
      (r.turn + 1 < hdrNsect y.file → secSpans y.file (r.turn + 1) = false →
        ∃ t, exec i s = .next t ∧ (ctxOf t c).st = .running ∧
          (ctxOf t c).run.map (fun q => (q.launch, q.turn, q.start)) = some (r.launch, r.turn + 1, r.start) ∧
          (∀ d, d ≠ c → ctxOf t d = ctxOf s d) ∧ t.hbm = s.hbm)) ∧
    (∀ n k o, r.zero = true → r.zeroDone = false → completions y.file r.turn = [(n, k)] → exportObj x n = some o →
      (objOf s o).owner = some c → (objOf s o).valid = true → (objOf s o).orphan = false → (objOf s o).value + k ≤ 0x7FFFFFFF → (objOf s o).importers = [] →
      ∃ t, exec (.zeroExtentComplete c) s = .next t ∧ (objOf t o).value = (objOf s o).value + k)

/-- The Term that has cooled longest is free again, and no other Term changes while no context waits for one. -/
def Obligations.OldestTermIsFreed : Prop :=
  ∀ (s : State) (v t c : Nat), sparseWf (none, 0, 64) s.terms = true → (v, (none, t, c)) ∈ s.terms → t ≠ 0 →
    (∀ e ∈ s.terms, e.2.1 = none → e.2.2.1 ≠ 0 → e.1 ≠ v → t < e.2.2.1) → (∀ d, d < 64 → (ctxOf s d).termWait = false) →
    exec .termCooled s = .next (closeStep s { s with terms := sset (none, 0, 64) s.terms v (none, 0, c) })

/-! ## Numbers -/

/-- One k-group into an INT32 accumulator adds the exact sum of its products and saturates, and into an FP32 one is rounded once
and added; masked rows beyond the extent take no part. -/
def Clause.GroupsAccumulateExactly : Prop :=
  (∀ (s : Nat) (ps : List (Int × Int)), s < 2 ^ 32 →
    let g := (ps.map fun p => p.1 * p.2).sum
    let t := signed 32 s + g
    let r := addGroup .int32 s (ps.map fun p => (FVal.fin p.1 0, FVal.fin p.2 0))
    signed 32 r.1 = max (-2147483648) (min 2147483647 t) ∧ (r.2 = true ↔ t < -2147483648 ∨ 2147483647 < t)) ∧
  (∀ (s : Nat) (ps : List (FVal × FVal)), addGroup .fp32 s ps = (fadd s (fp32 (groupExact ps)), false)) ∧
  (∀ (kind : AccKind) (depth d : Nat) (a b w v : Nat → FVal) (s : Nat), (∀ k, k < d → a k = b k ∧ w k = v k) →
    passElement kind depth d a w s = passElement kind depth d b v s)

/-- Rescaling (R100): p = a × M, u is p / 2^SHIFT rounded half toward positive infinity, out is u clamped to the destination less the
zero point, and then offset by it; the intermediate never leaves the 64-bit range, and a saturation is counted exactly when the
clamp changes u. -/
def Obligations.RescaleRoundsHalfUpAndClamps : Prop :=
  ∀ (q mult shift a : Nat), (qdFmt q = .int32 ∨ qdIntDest (qdFmt q) = true) → shift ≤ 62 →
    let z := qdZero q
    let qmin := (fmtRange (qdFmt q)).1
    let qmax := (fmtRange (qdFmt q)).2
    qmin ≤ z → z ≤ qmax →
    let p := signed 32 a * signed 32 mult
    let v := convRescale q mult shift a
    ∃ u : Int, (2 * p - 2 ^ shift < 2 * u * 2 ^ shift ∧ 2 * u * 2 ^ shift ≤ 2 * p + 2 ^ shift) ∧
      v.code = unsignedOf (fmtBits (qdFmt q)) (min (qmax - z) (max (qmin - z) u) + z) ∧
      (v.sat = true ↔ min (qmax - z) (max (qmin - z) u) ≠ u) ∧ v.nan = false ∧
      -2 ^ 63 ≤ p ∧ p + (if shift = 0 then 0 else 2 ^ (shift - 1)) < 2 ^ 63

/-- The window maximum (R91): over the step maxima, newest first, it is the largest of the last W, and 0 where there is none. The scale
that the home MU forms when step n is merged is that of step n + LAG + 1, so that the window of a step spans the steps LAG + 1 to
LAG + W before it; a merge forms no other scale, so that a step with no step in that range has none. -/
def Obligations.WindowMaximumIsTheLargest : Prop :=
  (∀ (q : Nat) (hist : List Nat),
    (∀ i v, i < qdWindow q → hist[i]? = some v → v ≤ windowMax q hist) ∧
    (windowMax q hist ≠ 0 → ∃ i, i < qdWindow q ∧ hist[i]? = some (windowMax q hist))) ∧
  (∀ (q n a : Nat) (cur : Option (Nat × Nat)) (t : Tensor),
    (pushMax q n a cur t).hist = (a :: t.hist).take 16 ∧
    (qdMode q = 1 → (n + 1 + qdLag q, windowScale q (windowMax q (a :: t.hist)) (t.prev.or cur)) ∈ (pushMax q n a cur t).next) ∧
    (∀ e ∈ (pushMax q n a cur t).next, e ∈ t.next ∨ e.1 = n + 1 + qdLag q))

/-- The target magnitudes of R89, with its two examples. -/
def Obligations.TargetMagnitudesAreThoseOfTheTable : Prop :=
  ∀ q : Nat,
    (qdFmt q = .e4m3 → qdTarget q = 240) ∧ (qdFmt q = .e5m2 → qdTarget q = 57344) ∧ (qdFmt q = .fp4 → qdTarget q = 6) ∧
    (qdFmt q = .fp16 → qdTarget q = 65504) ∧
    (qdIntDest (qdFmt q) = true → qdTarget q = min ((fmtRange (qdFmt q)).2 - qdZero q) (qdZero q - (fmtRange (qdFmt q)).1)) ∧
    (qdFmt q = .uint8 → qdZero q = 128 → qdTarget q = 127) ∧ (qdFmt q = .int8 → qdZero q = 0 → qdTarget q = 127)

/-- The scale of a step: a FIXED one is the seed, NONE and RESCALE use 1.0, and HISTORY uses the scale formed from its window: where
the window is empty the seed, and with neither the step is held. A window of zeros keeps the scale of the step before, or 1.0. -/
def Clause.StepScaleFollowsMode : Prop :=
  ∀ (q : Nat) (formed : Option (Nat × Nat × Nat)) (prev : Option (Nat × Nat)),
    (qdMode q = 3 → stepScale q formed = some (qdSeed q, fdiv one32 (qdSeed q), 0b1000)) ∧
    (qdMode q = 0 ∨ qdMode q = 2 → stepScale q formed = some (one32, one32, 0)) ∧
    (qdMode q = 1 → formed = none →
      stepScale q formed = if qdSeedValid q then some (qdSeed q, fdiv one32 (qdSeed q), 0b1000) else none) ∧
    (∀ sc, qdMode q = 1 → formed = some sc → stepScale q formed = some sc) ∧
    (windowScale q 0 prev = ((prev.getD (one32, one32)).1, (prev.getD (one32, one32)).2, 0b10000)) ∧
    (∀ a, 0 < a → (windowScale q a prev).1 = (scaleFrom q a).1 ∧ (windowScale q a prev).2.1 = (scaleFrom q a).2.1)

/-- k-groups accumulate exactly, and the scale of a step follows its mode: `GroupsAccumulateExactly` and `StepScaleFollowsMode`
together. -/
def Obligations.NumbersAreExact : Prop :=
  Clause.GroupsAccumulateExactly ∧ Clause.StepScaleFollowsMode

/-! ## The Compute Unit -/

/-- Only CU `k` of the CUs changes, and beside it credits, signal packets in the mesh and nothing else. -/
def CuOnly (s t : State) (k : Nat) : Prop :=
  ∃ m c p, t = closeStep s { s with cus := m, credits := c, mesh := p } ∧ ∀ j, j ≠ k → sget CU.idle m j = cuOf s j

/-- A pass descriptor that no check refuses enters the window behind the passes there, with the handle and tag of its repetition; one that
allocates takes an unbound handle and counts as committed, and waits for a handle that is still bound; another needs a handle that
accumulates in its kind; and the sequencer steps on. With four passes in the window it waits. A refused one is a fault with the reason of
the first check that fails (their order: the model's choice, log entry 62). Under the Hall Monitor the activation lane is not to be
blocked by the window it leaves. -/
def Clause.PassesEnterTheWindow : Prop :=
  ∀ (s : State) (k : Nat), isCu k = true → mayDecode s k = true →
    let u := cuOf s k
    let d := seqDesc u u.pos
    let h := (pdHandle d + u.rep * pdHstep d) % 64
    let tag := (pdTag d + tagBase u + u.rep * pdTstep d) % 65536
    let alloc := pdInit d != 0 && (pdHstep d != 0 || u.rep = 0)
    let last := pdLast d && (pdHstep d != 0 || u.rep = pdRm1 d)
    (∀ cls kind, pdType d = 0 → pdReason u d = none → pdPair d = some (cls, kind) → u.window.length < 4 →
      (alloc = true → u.committed < 16 ∧ (handleOf u h).st = .unbound) →
      (alloc = false → (handleOf u h).st = .accum ∧ ((handleOf u h).kind = none ∨ (handleOf u h).kind = some kind)) →
      (monitored s k = true → laneBlocked (seqAdvance (pushPass u d kind alloc last h tag) d) = none) →
      ∃ t p, exec (.passDescriptor ⟨k, .clean⟩) s = .next t ∧ CuOnly s t k ∧ (cuOf t k).window.length = u.window.length + 1 ∧
        (cuOf t k).window.getLast? = some p ∧ p.desc = u.pos ∧ p.rep = u.rep ∧ p.handle = h ∧ p.tag = tag ∧ p.alloc = alloc ∧ p.last = last ∧
        (handleOf (cuOf t k) h).kind = some kind ∧
        (u.rep < pdRm1 d → (cuOf t k).pos = u.pos ∧ (cuOf t k).rep = u.rep + 1) ∧
        (pdRm1 d ≤ u.rep → (cuOf t k).pos = pdNext d ∧ (cuOf t k).rep = 0) ∧
        (last = false → (cuOf t k).committed = u.committed + b2n alloc)) ∧
    (∀ r, (pdType d = 0 ∨ 3 < pdType d) → pdReason u d = some r →
      exec (.passDescriptor ⟨k, .clean⟩) s = .next (closeStep s (cuFault s k 0x1006 r h tag))) ∧
    (∀ cls kind, pdType d = 0 → pdReason u d = none → pdPair d = some (cls, kind) →
      (4 ≤ u.window.length → exec (.passDescriptor ⟨k, .clean⟩) s = .next (closeStep s s)) ∧
      (u.window.length < 4 →
        (alloc = true → 16 ≤ u.committed → exec (.passDescriptor ⟨k, .clean⟩) s = .next (closeStep s (cuFault s k 0x1001 0 h tag))) ∧
        (alloc = true → u.committed < 16 → (handleOf u h).st ≠ .unbound →
          exec (.passDescriptor ⟨k, .clean⟩) s = .next (closeStep s (blockCu s k h tag))) ∧
        (alloc = false → (handleOf u h).st ≠ .accum →
          exec (.passDescriptor ⟨k, .clean⟩) s = .next (closeStep s (cuFault s k 0x1007 0 h tag))) ∧
        (∀ other, alloc = false → (handleOf u h).st = .accum → (handleOf u h).kind = some other → other ≠ kind →
          exec (.passDescriptor ⟨k, .clean⟩) s = .next (closeStep s (cuFault s k 0x1004 0 h tag)))))

/-- The other descriptor types: a column table waits for its words in the weight stream, FREE unbinds a handle that nothing uses,
and DRAIN orders the drain of a READY one; both give up a committed slot and step the sequencer on. A DRAIN that would make a fifth entry
of a matching store waits (the model's choice, log entry 80). -/
def Obligations.HandlesAreFreedAndDrained : Prop :=
  ∀ (s : State) (k : Nat), isCu k = true → mayDecode s k = true →
    let u := cuOf s k
    let d := seqDesc u u.pos
    let h := pdHandle d
    pdReason u d = none →
    (pdType d = 1 → drainsOrdered u = false →
      let v := setCu s k { u with items := u.items ++ [.table (pdTable d)] }
      (monitored s k = true → laneBlocked (cuOf (pumpWgt v k) k) = none) →
      exec (.columnTableLoad ⟨k, .clean⟩) s = .next (closeStep s (settleCu (pumpWgt v k) k)) ∧
      (u.wgt = [] → u.itemBuf = [] → exec (.columnTableLoad ⟨k, .clean⟩) s = .next (closeStep s v))) ∧
    (pdType d = 1 → drainsOrdered u = true →
      ((monitored s k = true → laneBlocked u = none) → exec (.columnTableLoad ⟨k, .clean⟩) s = .next (closeStep s s)) ∧
      (∀ tag, monitored s k = true → laneBlocked u = some tag →
        exec (.columnTableLoad ⟨k, .clean⟩) s = .next (closeStep s (recFault s k 0x4003 (.lane k 4 tag))))) ∧
    (pdType d = 2 → (handleOf u h).st ≠ .unbound → (handleOf u h).ordered = false → handleInUse u h = false →
      ∃ t, exec (.freeHandle ⟨k, .clean⟩) s = .next t ∧ CuOnly s t k ∧ (handleOf (cuOf t k) h).st = .unbound ∧
        (handleOf (cuOf t k) h).slot = none ∧ (handleOf (cuOf t k) h).ordered = false ∧ (cuOf t k).committed = u.committed - 1 ∧ (cuOf t k).pos = pdNext d ∧ (∀ r ∈ (cuOf t k).ready, r.handle ≠ h)) ∧
    (pdType d = 3 → (handleOf u h).st = .ready → (handleOf u h).ordered = false → drainCrowds u h (pdDrain d) = false →
      ∃ t, exec (.drainHandle ⟨k, .clean⟩) s = .next t ∧ CuOnly s t k ∧ (handleOf (cuOf t k) h).st = .ready ∧
        (handleOf (cuOf t k) h).ordered = true ∧ (handleOf (cuOf t k) h).prog = pdDrain d ∧
        (handleOf (cuOf t k) h).slot = (handleOf u h).slot ∧ (cuOf t k).committed = u.committed - 1 ∧ (cuOf t k).pos = pdNext d) ∧
    (pdType d = 3 → (handleOf u h).st = .ready → (handleOf u h).ordered = false → drainCrowds u h (pdDrain d) = true →
      exec (.drainHandle ⟨k, .clean⟩) s = .next (closeStep s s))

/-- A gate opens exactly when its condition holds, and a waiting CU takes its next tile only when its sequencer has ended. -/
def Obligations.GatesAndTilesReleaseTheSequencer : Prop :=
  ∀ (s : State) (k : Nat), isCu k = true → unitLive s k = true →
    let u := cuOf s k
    u.run = true → u.fin = false →
    (∀ w, u.gateOpen = false → u.pos ≠ 0x3FF → gateFor u.stores u.pos = some w →
      (testWait s k w u.rep = .holds →
        exec (.cuGateRelease ⟨k, .clean⟩) s = .next (closeStep s (setCu s k { u with gateOpen := true, waitSince := none }))) ∧
      (testWait s k w u.rep = .unmet →
        exec (.cuGateRelease ⟨k, .clean⟩) s = .next (closeStep s (setCu s k { u with waitSince := some (u.waitSince.getD s.fclk) })))) ∧
    (∀ g r, inGroup u.stores = true → u.cur.any (·.fin) = false → (u.cur.isSome = true → u.pos = 0x3FF) → u.grants = g :: r →
      recessing s k = false → g.fin = false → startEntry u.stores ≠ 0x3FF →
      exec (.tileIndexTake ⟨k, .clean⟩) s = .next (closeStep s (setCu s k
        { u with cur := some g, grants := r, grantN := u.grantN + 1, pos := startEntry u.stores, rep := 0, gateOpen := false })))

/-- The CU once a pass of its window has fired and streamed as far as the words in its lanes go. -/
def firedUnit (s : State) (k i : Nat) (p : Pass) (tile : Tile) : CU :=
  let u := cuOf s k
  cuOf (feedAct 40 (pumpWgt (setCu s k { u with
    window := u.window.eraseIdx i, firing := some { pass := p, row := 0 }, active := some tile,
    shadow := if pdSwap (seqDesc u p.desc) then none else u.shadow }) k) k) k

/-- A pass fires with its tile active and takes activation words of its tag; a whole weight tile, with or
without an expansion block that its checks accept, becomes the shadow tile.
Under the Hall Monitor the lane that is left is not to be blocked. -/
def Clause.PassesStreamThroughTheTile : Prop :=
  ∀ (s : State) (k : Nat), isCu k = true → unitLive s k = true →
    let u := cuOf s k
    (∀ i p w r tile, i < 4 → u.window[i]? = some p → u.firing = none → u.act = w :: r → w.word.tag = p.tag →
      (if pdSwap (seqDesc u p.desc) then u.shadow else u.active) = some tile → (handleOf u p.handle).slot.isSome = true →
      (pdPair (seqDesc u p.desc)).isSome = true → p.loaded = true → orderOk u i p = true → fifthWait u p = false →
      (monitored s k = true → laneBlocked (firedUnit s k i p tile) = none) →
      ∃ t, exec (.passFire ⟨k, .clean⟩ i) s = .next t ∧ CuOnly s t k ∧ (cuOf t k).active = some tile ∧
        (cuOf t k).shadow = (if pdSwap (seqDesc u p.desc) then none else u.shadow) ∧
        (cuOf t k).window.length + 1 = u.window.length ∧ (cuOf t k).act.length < u.act.length) ∧
    (∀ act wgt rest, u.items = .tile act wgt false :: rest → u.shadow = none →
      tileBytes act wgt false u.itemBuf ≤ u.itemBuf.length →
      ∃ t, exec (.weightTileComplete k) s = .next t ∧ CuOnly s t k ∧
        (cuOf t k).shadow = some { act := act, wgt := wgt, wexp := false, wxc := 0, block := [], rows := u.itemBuf } ∧
        (cuOf t k).active = u.active) ∧
    (∀ act wgt rest, u.items = .tile act wgt true :: rest → u.shadow = none →
      tileBytes act wgt true u.itemBuf ≤ u.itemBuf.length →
      let w := leAt u.itemBuf 0 4
      let n := wxcBlockBytes w
      let src := (fmtOf (wxcSource w)).getD .int4
      wxcOk act src w = true → src = wgt → wxcTableOk w ((u.itemBuf.drop 4).take n) = true →
      ∃ t, exec (.weightTileComplete k) s = .next t ∧ CuOnly s t k ∧
        (cuOf t k).shadow = some { act := act, wgt := wgt, wexp := true, wxc := w, block := (u.itemBuf.drop 4).take n,
                                   rows := u.itemBuf.drop (4 + n) } ∧ (cuOf t k).active = u.active)

/-- One activation vector updates exactly the 64 elements of its row, each by the products of the vector and its column of the
tile. -/
def Clause.VectorUpdatesItsRow : Prop :=
  ∀ (tl : Tile) (sl : Slot) (d : Nat) (kind cls) (vec : List Byte) (m i : Nat), pdPair d = some (cls, kind) → m < 64 →
    let r := streamRow tl sl d kind vec m
    let act := pdActFmt d
    (∀ n, n < 64 → sget 0 r.elems (64 * m + n) = (passElement kind (tileDepth cls) (pdExtent d)
      (fun k => readCode act (elemAt (fmtBits act) vec k))
      (fun k => weightVal act tl.wgt tl.wxc tl.block k n (elemAt (fmtBits tl.wgt) tl.rows (64 * k + n)))
      (sget 0 sl.elems (64 * m + n))).1) ∧
    (i < 64 * m ∨ 64 * m + 64 ≤ i → sget 0 r.elems i = sget 0 sl.elems i) ∧ r.bound = sl.bound

/-- Passes enter the window, stream through the tile and update their rows: `PassesEnterTheWindow` and
`PassesStreamThroughTheTile` and `VectorUpdatesItsRow` together. -/
def Obligations.PassesUpdateTheirRows : Prop :=
  Clause.PassesEnterTheWindow ∧ Clause.PassesStreamThroughTheTile ∧ Clause.VectorUpdatesItsRow

/-- A slot whose LAST pass has streamed joins the READY slots; a token, the first 32 bits of its word (the model's choice, log entry 63),
meets the oldest waiting slot of its tag, or waits in the store while that has room (what counts there: log entry 80); the drain
takes the first READY slot whose tokens are matched; the slot is released once its last group has entered; and the drained words
of an unquantised channel join the output lane. -/
def Obligations.SlotsDrainInReadyOrder : Prop :=
  ∀ (s : State) (k : Nat), isCu k = true → unitLive s k = true →
    let u := cuOf s k
    (∀ j a p b, j < 16 → u.streamed = a ++ p :: b → (∀ e ∈ a, (handleOf u e.handle).slot ≠ some j) →
      (handleOf u p.handle).slot = some j → (handleOf u p.handle).ordered = false →
      exec (.slotReady k j) s = .next (closeStep s (settleCu (setCu s k { u with streamed := a ++ b, ready := u.ready ++
        [{ handle := p.handle, slot := j, prog := (handleOf u p.handle).prog, tag := p.tag, tok0 := none, tok1 := none,
           ready := false, byDesc := (handleOf u p.handle).byDesc }] }) k))) ∧
    (∀ j a p b, j < 16 → u.streamed = a ++ p :: b → (∀ e ∈ a, (handleOf u e.handle).slot ≠ some j) →
      (handleOf u p.handle).slot = some j → (handleOf u p.handle).ordered = true →
      ∃ t r, exec (.slotReady k j) s = .next t ∧ CuOnly s t k ∧ (cuOf t k).streamed = a ++ b ∧ (cuOf t k).ready = u.ready ++ [r] ∧
        r.handle = p.handle ∧ r.slot = j ∧ r.prog = (handleOf u p.handle).prog ∧ r.tag = p.tag ∧ r.ready = true) ∧
    (∀ f rest ch tag sel, u.tokIn = f :: rest → tokenOf f = (ch, tag, sel) → (sel < 4 ∨ sel = 15) →
      ((∀ r ∈ waitingSlots u ch, r.tag ≠ tag) → tokenFits u (ch, tag, sel) = true → (∀ e ∈ u.tokens, ¬ (e.1 = ch ∧ e.2.1 = tag)) →
        exec (.steeringToken k (leAt f.word.data 0 4)) s = .next (closeStep s
          (laneCredit (setCu s k { u with tokIn := rest, tokens := u.tokens ++ [(ch, tag, sel)] }) k f))) ∧
      ((∀ r ∈ waitingSlots u ch, r.tag ≠ tag) → tokenFits u (ch, tag, sel) = false →
        exec (.steeringToken k (leAt f.word.data 0 4)) s = .next (closeStep s s)) ∧
      (∀ (a : List DrainReq) r b, waitingSlots u ch = a ++ r :: b → (∀ e ∈ a, e.tag ≠ tag) → r.tag = tag →
        let take (e : DrainReq) : DrainReq :=
          if e = r then (if ch = 0 then { r with tok0 := some sel } else { r with tok1 := some sel }) else e
        exec (.steeringToken k (leAt f.word.data 0 4)) s = .next (closeStep s
          (laneCredit (setCu s k { u with tokIn := rest, ready := u.ready.map take }) k f)))) ∧
    (∀ a r b, u.drain = none → u.ready = a ++ r :: b → (∀ e ∈ a, ¬ (e.ready = true ∧ tokensMet u e = true)) → r.ready = true →
      tokensMet u r = true →
      exec (.drainStart k .clean) s = .next (closeStep s (setCu s k
        { setHandle u r.handle { handleOf u r.handle with st := .draining } with
          ready := a ++ b, drain := some { req := r, sat := (slotOf u r.slot).sat, elem := [], elems := none } }))) ∧
    (∀ dr, u.drain = some dr → dr.elems = none → phInEn (progHead u dr.req.prog) = false →
      ∃ t, exec (.slotRelease ⟨k, .clean⟩) s = .next t ∧ CuOnly s t k ∧
        (cuOf t k).drain = some { dr with elems := some (slotOf u dr.req.slot).elems, elem := (handleOf u dr.req.handle).elem.getD [] } ∧
        (cuOf t k).outq = u.outq) ∧
    (∀ dr elems c n reads, u.drain = some dr → dr.elems = some elems → siteCtx s k = some c →
      let h := progHead u dr.req.prog
      phEn h 0 = true → phEn h 1 = false → phQd h 0 = 0x3FF → outCircuit s k dr.req 0 = some n →
      ∃ t, exec (.drainComplete ⟨k, .clean, reads⟩) s = .next t ∧ CuOnly s t k ∧ (cuOf t k).drain = none ∧
        (cuOf t k).outq = u.outq ++ markWords u.drains dr.req.prog
          ((slotWords 32 dr.req.tag u.term (drainRows (drainProg u dr.req.prog) dr.elem elems).1).map fun w => (n, w.2)))

/-- The merge of a step adds its partial to the card and the step's maximum to the history, once every unit has finished in the
last turn of the section; a step that has ended before its merge is merged into the card likewise; and a held step is released with
the scale of its own maximum, once its last element is in the buffer and the held steps of the QDs before it are released. -/
def Obligations.StepsMergeIntoTheirCard : Prop :=
  ∀ (s : State) (c card : Nat) (y : Syllabus) (r : Run), c < 64 → card < 256 →
    let x := ctxOf s c
    let n := tensorOf s c card
    let l := sget Tensor.fresh x.tensors (lateKey card)
    let o := cardOf x card
    x.syl = some y →
    (∀ q cur, fileQd y.file card = some q → lateOpen x card = false → x.run = some r → executes x = true →
      lastOfSection y.file r.turn = true → (sectionQd y.file r.turn card).isSome = true → n.active = true → n.cur = some cur →
      (unitsFin s c = true ∨ r.zero = true) → x.resets = [] →
      ∃ t, exec (.stepMerge c card) s = .next t ∧
        (cardOf (ctxOf t c) card).steps = satAdd 32 o.steps 1 ∧ (cardOf (ctxOf t c) card).count = satAdd 64 o.count n.count ∧
        (cardOf (ctxOf t c) card).sqe = satAdd 128 o.sqe n.sqe ∧ (cardOf (ctxOf t c) card).maxAbs = max o.maxAbs n.maxAbs ∧
        (cardOf (ctxOf t c) card).sat = satAdd 32 o.sat n.sat ∧ (cardOf (ctxOf t c) card).scale = cur.1 ∧
        (cardOf (ctxOf t c) card).clamp = satAdd 32 o.clamp (n.clamp + turnClamps s c card) ∧
        tensorOf t c card = closeTensor q n ∧ (tensorOf t c card).hist = (n.maxAbs :: n.hist).take 16 ∧
        (tensorOf t c card).active = false ∧ (∀ i, i ≠ card → cardOf (ctxOf t c) i = cardOf x i) ∧
        (∀ d, d ≠ c → ctxOf t d = ctxOf s d) ∧ t.hbm = s.hbm ∧ t.cus = s.cus) ∧
    (∀ q, fileQd y.file card = some q → lateOpen x card = true → x.resets = [] →
      ∃ t, exec (.stepMerge c card) s = .next t ∧ lateOpen (ctxOf t c) card = false ∧
        (l.active = true →
          (cardOf (ctxOf t c) card).steps = satAdd 32 o.steps 1 ∧ (cardOf (ctxOf t c) card).count = satAdd 64 o.count l.count ∧
          (cardOf (ctxOf t c) card).clamp = satAdd 32 o.clamp l.clamp ∧
          (tensorOf t c card).hist = (l.maxAbs :: n.hist).take 16) ∧
        (l.active = false → cardOf (ctxOf t c) card = o ∧ tensorOf t c card = n) ∧ (∀ i, i ≠ card → cardOf (ctxOf t c) i = cardOf x i) ∧
        (∀ d, d ≠ c → ctxOf t d = ctxOf s d) ∧ t.hbm = s.hbm ∧ t.cus = s.cus) ∧
    (∀ idx q, cardQd x card = some (idx, q) → x.run = some r → executes x = true → lastOfSection y.file r.turn = true →
      holdsStep s c card = true → heldWhole s c idx false = true → heldTurn s c idx false = true → 0 < n.maxAbs →
      s.hbmBad = [] → s.health.split = 0 →
      ∃ t, exec (.heldStepRelease c ⟨card, ⟨[], [], []⟩⟩) s = .next t ∧ (tensorOf t c card).held = false ∧
        (tensorOf t c card).cur = some ((scaleFrom q n.maxAbs).1, (scaleFrom q n.maxAbs).2.1) ∧
        (tensorOf t c card).heldBuf = [] ∧ (tensorOf t c card).hist = n.hist ∧ t.hbm = s.hbm ∧
        (∀ d, d ≠ c → ctxOf t d = ctxOf s d))

/-! ## The Memory Unit -/

/-- Of the units only MU `k` changes, and beside it nothing. -/
def MuOnly (s t : State) (k : Nat) : Prop :=
  ∃ m, t = closeStep s { s with mus := m } ∧ ∀ j, j ≠ k → sget MU.idle m j = muOf s j

/-- The check of an issued descriptor of the descriptor store that fails first, reason 5 for another generator's too (R150). -/
def issReason (s : State) (k g : Nat) (i : Issued) : Option Nat :=
  let u := muOf s k
  match descReason (issDesc u i) false (shapeAt s k) (shapeDeclared s k) (fun r => (ringShape u.stores r).1 != 0)
      (fun q => qbOutSlots (queueBind u.stores q) != 0) i.off with
  | some r => some r
  | none => if dGen (issDesc u i) = g then none else some 5

/-- The command by which a generator takes a descriptor of this type. -/
def takesBy (ty k g : Nat) : Instr :=
  if ty = 2 then .gatherScatterDescriptor ⟨k, .clean⟩ g else if ty = 3 then .layoutCopyDescriptor ⟨k, .clean⟩ g
  else .tileDescriptor k g .clean

/-- The words of one transfer, in the lane and the slots of a generator. -/
def laneEntries (s : State) (k g tag : Nat) (bs : List Byte) : List OutWord :=
  (laneWords tag (muOf s k).term true (ceilDiv bs.length 128) bs).map fun w =>
    { lane := g, slots := genSlots s k g, word := w, mark := none }

/-- A generator that takes a descriptor refuses one that fails a check with the lowest reason, reasons 6 and 7 before the 5 of R222 (the
order: the model's choice, log entry 62); a zero-extent run moves nothing; and in direct mode, with no access in the scoreboard and no
bank conflict, a load sends the elements of its walk (+0 for pad), a gather the rows of its clamped indices, and a copy that is no hazard
under the Hall Monitor puts at each destination element the source element, and changes no byte outside the footprint of its destination. -/
def Obligations.DescriptorsMoveTheirData : Prop :=
  ∀ (s : State) (k g : Nat) (i : Issued), isMu k = true → g < 4 → unitLive s k = true → pendOf (muOf s k) g = some i →
    (genOf (muOf s k) g).iss = none → i.id < 256 →
    let u := muOf s k
    let d := issDesc u i
    let c := takesBy (dType d) k g
    let bits := fmtBits (dFmt d)
    let accs := accessesOf s k i
    (∀ r, issReason s k g i = some r → exec c s = .next (closeStep s
      (muFault (setMu s k { u with pend := sset none u.pend g none }) k 0x2004 r g (dRing d) i.tag 0 0))) ∧
    (issReason s k g i = none → issZero s k i = true → mayEnter u accs i.tag = .go →
      ∃ t, exec c s = .next t ∧ MuOnly s t k ∧ (muOf t k).spad = u.spad ∧ (muOf t k).outq = u.outq ∧
        (genOf (muOf t k) g).iss = some i ∧ (genOf (muOf t k) g).started = true) ∧
    (issReason s k g i = none → issZero s k i = false → u.sb = [] → (∀ a ∈ accs, a.ring = 0x3F) →
      mayEnter u accs i.tag = .go →
      (dType d = 1 → dDir d = false →
        let walk := walkOf bits (walkOrder d) (issDims s k i)
        conflictAt (dBase d) walk = none →
        ∃ t, exec c s = .next t ∧ MuOnly s t k ∧ (muOf t k).spad = u.spad ∧
          (muOf t k).outq = u.outq ++ laneEntries s k g i.tag (packCodes bits (walk.map fun e => match e.off with
            | none => 0
            | some o => spadGet u.spad bits (absBit (dBase d) o)))) ∧
      (dType d = 2 → dDir d = false →
        let row (j : Nat) : Nat :=
          let v := signed 32 (mnat u.spad (gIbase d + 4 * j) 4)
          if v < 0 then 0 else min v.toNat (gRows s k d - 1)
        ∃ t, exec c s = .next t ∧ MuOnly s t k ∧ (muOf t k).spad = u.spad ∧
          (muOf t k).outq = u.outq ++ laneEntries s k g i.tag ((List.range (gCount s k d)).flatMap fun j =>
            mread u.spad (dBase d + row j * gRowStride d) (gRowBytes d))) ∧
      (dType d = 3 → (∀ f ∈ hmFoots s k i [0, 0], u.foot.any (overlaps f) = false ∧ u.foot.length < 128) →
        let walk := lcdWalk d bits (issDims s k i)
        conflictAt (dBase d) (walk.map (·.1)) = none → conflictAt (lDbase d) (walk.map (·.2)) = none →
        ∃ t, exec c s = .next t ∧ MuOnly s t k ∧ (muOf t k).outq = u.outq ∧
          (∀ a : Nat, (∀ e ∈ walk, ∀ p, e.2.off = some p →
              ¬ (absBit (lDbase d) p / 8 ≤ (a : Int) ∧ (a : Int) ≤ (absBit (lDbase d) p + bits - 1) / 8)) →
            sget 0#8 (muOf t k).spad a = sget 0#8 u.spad a) ∧
          (∀ (j : Nat) (e : WalkEl × WalkEl) p o, walk[j]? = some e → e.2.off = some p → e.1.off = some o →
            (∀ (n : Nat) (f : WalkEl × WalkEl) q, walk[n]? = some f → f.2.off = some q →
              (n ≠ j → q + bits ≤ p ∨ p + bits ≤ q) ∧
              (absBit (lDbase d) q + bits ≤ absBit (dBase d) o ∨ absBit (dBase d) o + bits ≤ absBit (lDbase d) q)) →
            spadGet (muOf t k).spad bits (absBit (lDbase d) p) = spadGet u.spad bits (absBit (dBase d) o))))

/-- A list whose entry's condition holds issues its descriptor with the tag of its grant and repetition and steps on, and one whose
condition does not hold waits. -/
def Clause.ListsIssueInOrder : Prop :=
  ∀ (s : State) (k l : Nat), isMu k = true → l < 12 → unitLive s k = true →
    let u := muOf s k
    let p := listOf u l
    let e := stEnt u.stores 0x0A 16 p.pos
    let d := if ieSrc e = 1 then stEnt u.stores 0x09 128 (ieDesc e) else stEnt u.stores 0x08 128 (ieDesc e)
    u.run = true → u.fin = false → p.fin = false → p.pos ≠ 0x3FF → u.cur.isSome = true → pendOf u l = none →
    (4 ≤ l → (queueEads u (l - 4)).length < 64) →
    (listCond u l = none ∨ (∃ c, listCond u l = some c ∧ testWait s k c p.rep = .holds) →
      ∃ t, exec (.issueEntry ⟨k, .clean⟩ l) s = .next t ∧ MuOnly s t k ∧ (muOf t k).spad = u.spad ∧
        pendOf (muOf t k) l = some ⟨256 * ieSrc e + ieDesc e, p.pos, issueOffsets s k e p.rep,
          (dTag d + (u.cur.map Grant.tagBase).getD 0 + p.rep * ieTstep e) % 65536⟩ ∧
        (p.rep < ieRm1 e → listOf (muOf t k) l = { p with rep := p.rep + 1, waitSince := none }) ∧
        (ieRm1 e ≤ p.rep → ieNext e ≠ 0x3FF → listOf (muOf t k) l = { pos := ieNext e, rep := 0, fin := false, waitSince := none })) ∧
    (∀ c, listCond u l = some c → testWait s k c p.rep = .unmet →
      exec (.issueEntry ⟨k, .clean⟩ l) s = .next (closeStep s (setMu s k
        { u with lists := sset ListPos.idle u.lists l { p with waitSince := some (p.waitSince.getD s.fclk) } }))) ∧
    (∀ c, listCond u l = some c → testWait s k c p.rep = .past →
      exec (.issueEntry ⟨k, .clean⟩ l) s = .next (closeStep s (recFault s k 0x4004 (waitRec s k c p.rep))))

/-- What the controllers make of a request of an EAD, and what comes back makes of the scratchpad: a write puts each inside element of
its word in HBM and changes no other byte; a read that meets no uncorrectable word sends its inside elements back in walk order, and one
that meets one waits for its second read; a request to the far part of a split device faults; and the elements that come back go to
their places in the scratchpad, +0 to those outside the tensor. -/
def eadMoves (s : State) (r : CtlReq) (e : Ead) : Prop :=
  let k := r.site
  let bits := eadBits s k e
  let els := wordInside s k e r.n
  let es := eadEls s k e
  (reqApart s r = true → doReq s r e = some (unitFault s k 0x8002)) ∧
  (reqApart s r = false → eadDir s k e % 2 = 1 → s.hbmBad = [] → ∃ t, doReq s r e = some t ∧ t.gridIn = s.gridIn ∧
    (∀ (j : Nat) (b : Int), els[j]? = some b → (∀ (n : Nat) (c : Int), n ≠ j → els[n]? = some c → c + bits ≤ b ∨ b + bits ≤ c) →
      spadGet t.hbm bits b = elemAt bits r.data j) ∧
    (∀ a : Nat, (∀ b ∈ els, ¬ (b / 8 ≤ (a : Int) ∧ (a : Int) ≤ (b + bits - 1) / 8)) → sget 0#8 t.hbm a = sget 0#8 s.hbm a)) ∧
  (reqApart s r = false → eadDir s k e % 2 = 0 → unitLive s k = true →
    ((∀ b ∈ els, sget false s.hbmBad (b / 256).toNat = false) → ∃ t w, doReq s r e = some t ∧ t.hbm = s.hbm ∧
      t.gridIn = s.gridIn ++ [w] ∧ w.word.tag = e.iss.tag ∧
      w.word.data = padTo 128 (packCodes bits (els.map (spadGet s.hbm bits)))) ∧
    ((∃ b ∈ els, sget false s.hbmBad (b / 256).toNat = true) → doReq s r e = none)) ∧
  (e.done = 0 → (eadInside s k e).length * bits ≤ 8 * e.buf.length → (∀ p ∈ es, 0 ≤ absBit (eadOrigin s k e) p.1) →
    ∀ (j : Nat) (p : Int × Option Int), es[j]? = some p →
      (∀ (n : Nat) (c : Int × Option Int), n ≠ j → es[n]? = some c → c.1 + bits ≤ p.1 ∨ p.1 + bits ≤ c.1) →
      spadGet (muOf (storeRead s k r.queue e) k).spad bits (absBit (eadOrigin s k e) p.1) = (match p.2 with
        | none => 0
        | some _ => elemAt bits e.buf ((es.take j).filter fun c => c.2.isSome).length))

/-- The steps of a CU and of an MU that read the unit's stores. -/
def cuSteps (x : Nat) (reads : HbmReads) : List (At → Instr) :=
  [.passDescriptor, .columnTableLoad, .freeHandle, .drainHandle, .cuGateRelease, .tileIndexTake, .slotRelease,
   fun a => .passFire a x, fun a => .drainComplete ⟨a.site, a.sram, reads⟩]
def muSteps (x : Nat) : List (At → Instr) :=
  [fun a => .issueEntry a x, fun a => .gatherScatterDescriptor a x, fun a => .layoutCopyDescriptor a x,
   fun a => .externalAccessDescriptor a x, fun a => .accessUnblock a x]

/-- A step of a unit that meets a corrected word in a store counts it for its wing and does what it does; one that meets an uncorrectable
word delivers nothing, and is the fault SRAM with the store and the address. A switch's steps likewise. -/
def Clause.StoresAreCheckedAsTheyAreRead : Prop :=
  ∀ (s : State) (k x store addr : Nat) (reads : HbmReads), x < 4 → unitLive s k = true →
    let counted := modWing s (siteWing k) fun w => { w with corrections := satAdd 32 w.corrections 1 }
    ∀ f : At → Instr, (isCu k = true ∧ f ∈ cuSteps x reads) ∨ (isMu k = true ∧ f ∈ muSteps x) ∨
        (k < 2048 ∧ f ∈ [fun a => .forkSend a x, fun a => .reduceFire a x]) →
      exec (f ⟨k, .corrected⟩) s = exec (f ⟨k, .clean⟩) counted ∧
      exec (f ⟨k, .bad store addr⟩) s = .next (closeStep s (sramBad s k store addr))

/-- An accepted EAD enters its queue and, with nothing before it, is sent; one outside the extents of its context faults; what its
requests move is moved whole (one request for each word of 128 B: the model's choice, log entry 60), and the oldest one of a queue that
has moved all leaves. A generator whose descriptor may now begin does so, one that may not stays blocked; a descriptor that has done all
its accesses leaves its generator and the scoreboard. -/
def Clause.AccessesBeginAndComplete : Prop :=
  (∀ (s : State) (r : CtlReq) (e : Ead), eadMoves s r e) ∧
  ∀ (s : State) (k : Nat), isMu k = true → unitLive s k = true →
    let u := muOf s k
    let x := ((siteCtx s k).map (ctxOf s)).getD Ctx.free
    (∀ q i, q < 8 → pendOf u (4 + q) = some i → queueEads u q = [] → 256 ≤ i.id →
      let d := issDesc u i
      let accs := accessesOf s k i
      descReason d true (shapeAt s k) (shapeDeclared s k) (fun r => (ringShape u.stores r).1 != 0)
        (fun q => qbOutSlots (queueBind u.stores q) != 0) i.off = none → eQueue d = q →
      (∀ h a, issZero s k i = false → eadHull d (fmtBits (dFmt d)) (issDims s k i) = some h → 0 ≤ h.1 →
        firstOutside x.extents 64 h.1.toNat (h.2 - h.1).toNat = some a → a < 2 ^ 64 →
        exec (.externalAccessDescriptor ⟨k, .clean⟩ q) s = .next (closeStep s
          (eadFault (setMu s k { u with pend := sset none u.pend (4 + q) none }) k q 0x2005 (dRing d) i.tag a))) ∧
      ((issZero s k i = true ∨ ∀ h, eadHull d (fmtBits (dFmt d)) (issDims s k i) = some h → 0 ≤ h.1 ∧ h.2 ≤ hbmTop s ∧
          firstOutside x.extents 64 h.1.toNat (h.2 - h.1).toNat = none) → s.health.split = 0 → u.sb = [] →
        mayEnter u accs i.tag = .go → (u.hmEn = true → u.foot.length < 128) →
        ∃ t m n c e, exec (.externalAccessDescriptor ⟨k, .clean⟩ q) s = .next t ∧
          t = closeStep s { s with mus := m, free := n, credits := c } ∧ (∀ j, j ≠ k → sget MU.idle m j = muOf s j) ∧
          pendOf (muOf t k) (4 + q) = none ∧ queueEads (muOf t k) q = [e] ∧ e.iss = i ∧ e.sent = true ∧
          (eDir d ≠ 0 → (muOf t k).spad = u.spad))) ∧
    (∀ q fixed e rest, q < 8 → queueEads u q = e :: rest → eadDone s k q e = true →
      (dSig (issDesc u e.iss) < 48 → (ctrOf s k (dSig (issDesc u e.iss))).value < 0x7FFFFFFF) →
      ∃ t, exec (.eadComplete k ⟨q, fixed⟩) s = .next t ∧ queueEads (muOf t k) q = rest ∧ (muOf t k).spad = u.spad ∧
        (∀ b ∈ (muOf t k).sb, b.id ≠ e.key) ∧ t.hbm = s.hbm ∧ t.ctxs = s.ctxs) ∧
    (∀ g i, g < 4 → (genOf u g).iss = some i → (genOf u g).started = false → (genOf u g).key ≠ 0 →
      let y := genOf u g
      let at_ := blockedAt u y.key (accessesOf s k i) y.slots
      let waits := haloWaits u y.key (dType (issDesc u i) != 2 && dHalo (issDesc u i))
      (sbBlocked u y.key = false → dType (issDesc u i) = 1 → dDir (issDesc u i) = true → sget [] u.lanes g = [] →
        ∃ t, exec (.accessUnblock ⟨k, .clean⟩ g) s = .next t ∧ MuOnly s t k ∧ genOf (muOf t k) g = { y with started := true, blockedSince := none } ∧
          (muOf t k).spad = u.spad) ∧
      (sbBlocked u y.key = true → u.hmEn = false ∨ waits = true →
        exec (.accessUnblock ⟨k, .clean⟩ g) s = .next (closeStep s (setMu s k
          { u with gens := sset Gen.idle u.gens g { y with blockedSince := some (y.blockedSince.getD s.fclk) } }))) ∧
      (sbBlocked u y.key = true → u.hmEn = true → waits = false →
        exec (.accessUnblock ⟨k, .clean⟩ g) s = .next (closeStep s (recFault s k 0x4003 (.access k g at_.1 at_.2 i.tag))))) ∧
    (∀ g i, g < 4 → (genOf u g).iss = some i → (genOf u g).started = true → genTotal s k i ≤ (genOf u g).done →
      (dSig (issDesc u i) < 48 → (ctrOf s k (dSig (issDesc u i))).value < 0x7FFFFFFF) →
      ∃ t, exec (.descriptorComplete k g) s = .next t ∧ genOf (muOf t k) g = Gen.idle ∧ (muOf t k).spad = u.spad ∧
        (∀ e ∈ (muOf t k).sb, e.id ≠ (genOf u g).key) ∧ t.hbm = s.hbm)

/-- Lists issue in order, stores are checked as they are read, and accesses begin and complete: `ListsIssueInOrder` and
`StoresAreCheckedAsTheyAreRead` and `AccessesBeginAndComplete` together. -/
def Obligations.AccessesIssueBeginAndComplete : Prop :=
  Clause.ListsIssueInOrder ∧ Clause.StoresAreCheckedAsTheyAreRead ∧ Clause.AccessesBeginAndComplete

/-- The counter grants a group that has room the next tile, in STATIC its own next one, and END when none is left; a grant of the unit's
Term arrives behind those it holds; a packet raises its counter with its source and time, or its context's object, a corrupt one faults; a
signal at an orphan is dropped and counted, and one that the failed primary has applied before the promotion is not applied again; a stale
grant or packet is dropped; a wait that outlasts its period faults, and starvation changes nothing. -/
def Obligations.GrantsAndSignalsArrive : Prop :=
  ∀ (s : State) (k : Nat),
    let u := muOf s k
    (∀ g, isMu k = true → unitLive s k = true → recessing s k = false →
      let d := stEnt u.stores 0x0F 32 0
      let ms := groupMembers s k g
      let n := tcTotal d (shapeAt s k)
      let gr (t : Nat) : Grant := { tile := t, tagBase := t * tcStride d % 65536, fin := false, term := u.term }
      d ≠ 0 → g < tcGroups d → u.tcEnded.contains g = false → ms ≠ [] → (∀ j ∈ ms, grantRoom s j = true) →
      (tcStatic d = false → (∀ c, siteCtx s k = some c → twinned s (ctxOf s c) = false) → u.tcNext < n →
        exec (.tileRequest k g) s = .next (closeStep s { setMu s k { u with
          tcNext := u.tcNext + 1, tcGiven := sset 0 u.tcGiven g (sget 0 u.tcGiven g + 1) } with
          flying := s.flying ++ ms.map fun j => (j, gr u.tcNext) })) ∧
      (tcStatic d = true → g + sget 0 u.tcGiven g * tcGroups d < n →
        exec (.tileRequest k g) s = .next (closeStep s { setMu s k { u with
          tcGiven := sset 0 u.tcGiven g (sget 0 u.tcGiven g + 1) } with
          flying := s.flying ++ ms.map fun j => (j, gr (g + sget 0 u.tcGiven g * tcGroups d)) })) ∧
      (tcStatic d = false → (∀ c, siteCtx s k = some c → twinned s (ctxOf s c) = false) → n ≤ u.tcNext →
        exec (.tileRequest k g) s = .next (closeStep s { setMu s k { u with tcEnded := u.tcEnded ++ [g] } with
          flying := s.flying ++ ms.map fun j => (j, { tile := 0, tagBase := 0, fin := true, term := u.term }) }))) ∧
    (∀ (a b : List (Nat × Grant)) (gr : Grant), k < 2048 → s.flying = a ++ (k, gr) :: b → (∀ f ∈ a, f.1 ≠ k) →
      (gr.term = unitTerm s k → unitLive s k = true → siteIsCu k = true →
        ∃ t m, exec (.tileGrant k) s = .next t ∧ (cuOf t k).grants = (cuOf s k).grants ++ [gr] ∧
          t = closeStep s { (modCu s k fun u => { u with grants := u.grants ++ [gr] }) with flying := a ++ b, mesh := m } ∧
          (gr.fin = true → m = s.mesh)) ∧
      (gr.term ≠ unitTerm s k →
        exec (.tileGrant k) s = .next (closeStep s
          (dropStale { s with flying := a ++ b } k gr.term 0 0 0 (siteStrict s k))))) ∧
    (∀ (a b : List Packet) (p : Packet) (r c : Nat), k < 2048 → r < 64 → s.mesh = a ++ p :: b → (∀ q ∈ a, ¬ (q.src = k ∧ q.route = r)) → p.src = k → p.route = r →
      siteCtx s k = some c →
      (p.site ≠ 4096 → executes (ctxOf s c) = true → p.term = unitTerm s p.site →
        ((ctrOf s p.site p.ctr).value + p.inc ≤ 0x7FFFFFFF →
          ∃ t x y m, exec (.signalPacket k r .clean) s = .next t ∧ t = closeStep s { s with cus := x, mus := y, mesh := m } ∧
            ctrOf t p.site p.ctr = { ctrOf s p.site p.ctr with
              value := (ctrOf s p.site p.ctr).value + p.inc, lastSrc := srcRoute k r, lastTime := s.fclk }) ∧
        (0x7FFFFFFF < (ctrOf s p.site p.ctr).value + p.inc →
          exec (.signalPacket k r .clean) s = .next (closeStep s
            (recFault { s with mesh := a ++ b } p.site 0x4004 (.counter p.site p.ctr p.inc))))) ∧
      (p.site ≠ 4096 → p.term ≠ unitTerm s p.site →
        exec (.signalPacket k r .clean) s = .next (closeStep s
          (dropStale { s with mesh := a ++ b } p.site p.term 0 0 0 (siteStrict s p.site)))) ∧
      (p.site ≠ 4096 → exec (.signalPacket k r .uncorrectable) s = .next (closeStep s
        (swFault { s with mesh := a ++ b } p.site 0x3004 0 p.term 0 (.link p.site 0 0)))) ∧
      (∀ o, p.site = 4096 → p.obj = some o → executes (ctxOf s c) = true → p.term = unitTerm s k → twinned s (ctxOf s c) = false →
        sget none s.health.promoteAt (wingPair (siteWing k)) = none → (∀ e ∈ (ctxOf s c).cmp, e.1 ≠ o) →
        exec (.signalPacket k r .clean) s = .next (closeStep s (ownRaise { s with mesh := a ++ b } c o p.inc))) ∧
      (∀ o x e y, p.site = 4096 → p.obj = some o → executes (ctxOf s c) = true → p.term = unitTerm s k →
        twinned s (ctxOf s c) = false → sget none s.health.promoteAt (wingPair (siteWing k)) = none →
        (ctxOf s c).cmp = x ++ e :: y → (∀ f ∈ x, f.1 ≠ o) → e.1 = o →
        exec (.signalPacket k r .clean) s = .next (closeStep s
          (setCtx { s with mesh := a ++ b } c { ctxOf s c with cmp := x ++ y }))) ∧
      (∀ o, p.site = 4096 → p.obj = some o → executes (ctxOf s c) = false → p.term = unitTerm s k →
        sget none s.health.promoteAt (wingPair (siteWing k)) = none → onShadow s k = false → (objOf s o).orphan = true →
        (objOf s o).valid = true →
        exec (.signalPacket k r .clean) s = .next (closeStep s (bump { s with mesh := a ++ b } 0x231007 1)))) ∧
    (∀ w, k < 2048 → w < 96 → unitLive s k = true → waitStands s k w = true → (externalWait s k w = false ∨ 12 ≤ w ∨ dget s 0x231002 ≠ 0) →
      exec (.watchdogExpiry k w) s = .next (closeStep s (recFault s k 0x4001 (watchRec s k w)))) ∧
    (isMu k = true → exec (.narrowStarvation k) s = .next (closeStep s s))

/-- HBM errors: a clean second read counts a correction and delivers the word, and one that fails again counts an uncorrectable word and
keeps it, and nothing more of its EAD is served; the patrol counts what it finds, and refresh changes nothing. A pseudo-channel with more
than 8 uncorrectable words, or more corrections in an hour than 0x2840:02, is copied to the lowest free spare of its stack (the lowest:
the model's choice, log entry 85) and served from it after the switch, which is counted and recorded. -/
def Obligations.HbmErrorsAreCountedAndSpared : Prop :=
  ∀ s : State,
    (∀ k q addr e, isMu k = true → q < 8 → unitLive s k = true →
      (queueEads (muOf s k) q).find? (readsNow s k q (addr / 32)) = some e →
      (∀ r, s.ctl = [r] → reqEad s r = some e → r.site = k → r.queue = q → s.health.split = 0 →
        (∀ b ∈ wordInside s k e r.n, sget false s.hbmBad (b / 256).toNat = true → (b / 256).toNat = addr / 32) →
        ∃ t w, exec (.hbmEccRetry k q addr true) s = .next t ∧ sget false t.hbmBad (addr / 32) = false ∧
          dget t 0x220001 = satAdd 32 (dget s 0x220001) 1 ∧ t.ctl = [] ∧ t.gridIn = s.gridIn ++ [w] ∧
          w.word.data = padTo 128 (packCodes (eadBits s k e) ((wordInside s k e r.n).map (spadGet s.hbm (eadBits s k e)))) ∧
          t.hbm = s.hbm ∧ t.ctxs = s.ctxs) ∧
      (∃ t, exec (.hbmEccRetry k q addr false) s = .next t ∧ sget false t.hbmBad (addr / 32) = true ∧
        dget t 0x220002 = satAdd 32 (dget s 0x220002) 1 ∧ dget t 0x220007 = 32 * (addr / 32) ∧ t.hbm = s.hbm ∧
        (∀ r ∈ t.ctl, ¬ (r.site = k ∧ r.queue = q ∧ r.key = e.key)))) ∧
    (∀ addr, addr < hbmTop s →
      let i := 64 * stackOf s addr + pchanOf s addr
      exec (.scrubPatrol addr .clean) s = .next (closeStep s s) ∧
      (∃ t, exec (.scrubPatrol addr .corrected) s = .next t ∧ dget t 0x220001 = satAdd 32 (dget s 0x220001) 1 ∧
        (sget PChan.good t.pchans i).recent = s.fclk ::
          (sget PChan.good s.pchans i).recent.filter (fun a => decide (s.fclk < a + ms 3600000)) ∧
        t.hbm = s.hbm ∧ t.hbmBad = s.hbmBad ∧ t.ctxs = s.ctxs) ∧
      (∃ t, exec (.scrubPatrol addr .uncorrectable) s = .next t ∧ dget t 0x220002 = satAdd 32 (dget s 0x220002) 1 ∧
        dget t 0x220007 = 32 * (addr / 32) ∧ sget false t.hbmBad (addr / 32) = true ∧ t.hbm = s.hbm ∧
        (∀ d, (ctxOf t d).st = (ctxOf s d).st))) ∧
    (∀ stack pc, stack < numStacks s → pc < 64 →
      let i := 64 * stack + pc
      let c := sget PChan.good s.pchans i
      exec (.hbmRefresh stack pc) s = .next (closeStep s s) ∧
      let worn := 8 < c.badWords ∨ dget s 0x284002 < c.recent.length
      (∀ cause, ¬ worn → exec (.pseudoChannelFailing stack pc cause) s = .next (closeStep s s)) ∧
      (∀ cause n, worn → c.failing = false → n < 4 → n ∉ sparesUsed s stack → (∀ m, m < n → m ∈ sparesUsed s stack) →
        exec (.pseudoChannelFailing stack pc cause) s = .next (closeStep s { s with
          pchans := sset PChan.good s.pchans i { c with failing := true, copying := some n, cause := cause } })) ∧
      (∀ cause, worn → c.failing = false → (∀ m, m < 4 → m ∈ sparesUsed s stack) →
        exec (.pseudoChannelFailing stack pc cause) s = .next (closeStep s { s with
          pchans := sset PChan.good s.pchans i { c with failing := true, copying := none, cause := cause } })) ∧
      (∀ n, n < 4 → c.copying = some n → ∃ t, exec (.pseudoChannelSwitch stack pc) s = .next t ∧
        sget PChan.good t.pchans i = { PChan.good with spare := some n, dead := c.spare.toList ++ c.dead } ∧
        dget t 0x220006 = satAdd 32 (dget s 0x220006) 1 ∧ (∀ j, j ≠ i → sget PChan.good t.pchans j = sget PChan.good s.pchans j) ∧
        (s.health.remaps.length < 64 → ∃ r, t.health.remaps = s.health.remaps ++ [r] ∧ r / 2 ^ 28 % 16 = 3) ∧ t.hbm = s.hbm))

/-! ## The fabric -/

/-- The word `w` of entry `i` is on its way out of port `q` of switch `k` in slot `n`: to the unit, to the neighbour, or through a
grid-side port to the ring. -/
def OnItsWay (t : State) (k i q n : Nat) (w : FWord) : Prop :=
  if 4 ≤ q then (⟨k, 8 + (q - 4), n, w⟩ : Flight) ∈ t.wires
  else match neighbour k q with
    | some j => (⟨j, oppositePort q, n, w⟩ : Flight) ∈ t.wires
    | none => (⟨2048 + gridPort k q, i, n, w⟩ : Flight) ∈ t.wires

/-- The word `f` is the next on its way to a place and port: `a` and `b` are those before and after it. -/
def NextOn (s : State) (site port : Nat) (a : List Flight) (f : Flight) (b : List Flight) : Prop :=
  s.wires = a ++ f :: b ∧ (∀ g ∈ a, ¬ (g.site = site ∧ g.port = port)) ∧ f.site = site ∧ f.port = port

/-- A word of the entry's Term that reaches a switch joins the buffer of the operand that claims its slot; a forward entry of one output
with a credit sends it on in the first of its slots and returns the sender's credit; a word of another Term or of no entry is dropped and
counted, a corrected one is counted, a corrupt one or one that meets an uncorrectable entry faults; a word for a unit joins its lane, or
its tokens; a unit's next word enters its own switch, and a word from the ring the switch of its port. Beyond a grid-side port a corrupt
word faults at the site that sent it (the model's choice, log entry 84), and a word whose circuit crosses a bridge goes onto it, and joins
the buffer of the far endpoint. -/
def Obligations.FabricWordsFollowTheirCircuit : Prop :=
  (∀ (s : State) (k port : Nat), k < 2048 →
    let w := swOf s k
    (∀ (a b : List Flight) (f : Flight), NextOn s k port a f b → isGridPort k port = false →
      let u : State := { s with wires := a ++ b }
      (∀ i op, port < 4 → claim w port f.slot = some (i, op) → ceTerm (circuit w i) = f.word.term →
        (ceOp (circuit w i) ≠ 0 ∨ (outPorts (circuit w i)).length ≠ 1) →
        exec (.fabricWord k port .clean) s = .next (closeStep s (setSw u k
          { w with bufs := sset [] w.bufs (2 * i + op) (bufOf w i op ++ [f]) }))) ∧
      (∀ i q j p, port < 4 → claim w port f.slot = some (i, 0) → ceTerm (circuit w i) = f.word.term → ceOp (circuit w i) = 0 →
        outPorts (circuit w i) = [q] → q < 4 → neighbour k q = some j → neighbour k port = some p → bufOf w i 0 = [] →
        sget 0 w.used (8 * i + q) < 2 →
        ∃ t, exec (.fabricWord k port .clean) s = .next t ∧ t.wires = a ++ b ++
            [⟨j, oppositePort q, slotFrom (outSlots (circuit w i)) (s.fclk % 8), f.word⟩] ∧
          t.credits = s.credits ++ [⟨p, oppositePort port, f.slot, f.word.term⟩] ∧ bufOf (swOf t k) i 0 = [] ∧
          sget 0 (swOf t k).used (8 * i + q) = sget 0 w.used (8 * i + q) + 1 ∧ t.cus = s.cus ∧ t.mus = s.mus) ∧
      (port < 4 → claim w port f.slot = none →
        exec (.fabricWord k port .clean) s = .next (closeStep s
          (dropStale (returnCredit u k f) k f.word.term port f.slot f.word.tag (siteStrict s k)))) ∧
      (∀ i op, port < 4 → claim w port f.slot = some (i, op) → ceTerm (circuit w i) ≠ f.word.term →
        exec (.fabricWord k port .clean) s = .next (closeStep s
          (dropStale (returnCredit u k f) k f.word.term port f.slot f.word.tag (ceStrict (circuit w i))))) ∧
      (port < 4 → exec (.fabricWord k port .uncorrectable) s = .next (closeStep s
        (swFault (bump u 0x230004 1) k 0x3004 port f.word.term f.word.tag (.link k port f.slot)))) ∧
      (∀ store addr, port < 4 → exec (.fabricWord k port (.table (.bad store addr))) s = .next (closeStep s (sramBad u k store addr))) ∧
      (∀ i op, port < 4 → claim w port f.slot = some (i, op) → ceTerm (circuit w i) = f.word.term →
        (ceOp (circuit w i) ≠ 0 ∨ (outPorts (circuit w i)).length ≠ 1) →
        ∃ t, exec (.fabricWord k port .corrected) s = .next t ∧ bufOf (swOf t k) i op = bufOf w i op ++ [f] ∧
          (swOf t k).ce = BitVec.ofNat 32 (satAdd 32 w.ce.toNat 1) ∧ dget t 0x230003 = satAdd 32 (dget s 0x230003) 1 ∧
          t.wires = a ++ b) ∧
      (8 ≤ port → port < 12 → f.word.term ≠ unitTerm s k →
        exec (.fabricWord k port .clean) s = .next (closeStep s
          (dropStale (laneCredit u k f) k f.word.term (port - 4) f.slot f.word.tag (siteStrict s k)))) ∧
      (8 ≤ port → port < 12 → f.word.term = unitTerm s k → siteIsCu k = false →
        let n := muLane (muOf s k) (port - 8) f.slot
        (f.word.req = none ∨ 4 ≤ n) →
        let v := setMu u k { muOf s k with lanes := sset [] (muOf s k).lanes n (sget [] (muOf s k).lanes n ++ [f]) }
        let fed := feedQueue 9 v k (n - 4)
        exec (.fabricWord k port .clean) s = .next (closeStep s
          (if n < 4 then feedGen 9 v k n else if unitLive fed k then pumpQueue 65 fed k (n - 4) else fed)) ∧
        (4 ≤ n → (∀ e ∈ queueEads (muOf s k) (n - 4), e.sent = true ∧ e.need ≤ e.got) →
          exec (.fabricWord k port .clean) s = .next (closeStep s v))) ∧
      (port < 12 → f.word.term = unitTerm s k → siteIsCu k = true → f.word.req = none →
        (port = 8 → exec (.fabricWord k port .clean) s = .next (closeStep s (settleCu (checkLane (feedAct 40
          (setCu u k { cuOf s k with act := (cuOf s k).act ++ [f] }) k) k) k))) ∧
        (9 ≤ port → (cuOf s k).tokSlots.getLsbD f.slot = true → exec (.fabricWord k port .clean) s = .next (closeStep s
          (setCu u k { cuOf s k with tokIn := (cuOf s k).tokIn ++ [f] }))) ∧
        (9 ≤ port → (cuOf s k).tokSlots.getLsbD f.slot = false → exec (.fabricWord k port .clean) s = .next (closeStep s
          (settleCu (pumpWgt (setCu u k { cuOf s k with wgt := (cuOf s k).wgt ++ [f] }) k) k))))) ∧
    (isGridPort k port = true → port < 4 →
      (∀ f u, ringEnter s k port = some (f, u) → exec (.fabricWord k port .clean) s = .next (closeStep s (arriveSwitch u k f))) ∧
      (ringEnter s k port = none → exec (.fabricWord k port .clean) s = .next (closeStep s s))) ∧
    (∀ g sl wd rest i op, g < 4 → port = 4 + g → siteIsCu k = false → unitLive s k = true →
      (muOf s k).outq = { lane := g, slots := sl, word := wd, mark := none } :: rest →
      laneRoom s k port sl = true → claim w port (slotFrom sl (s.fclk % 8)) = some (i, op) → ceTerm (circuit w i) = wd.term →
      (ceOp (circuit w i) ≠ 0 ∨ (outPorts (circuit w i)).length ≠ 1) →
      exec (.fabricWord k port .clean) s = .next (closeStep s (setSw (setMu s k { muOf s k with outq := rest }) k
        { w with bufs := sset [] w.bufs (2 * i + op) (bufOf w i op ++ [⟨k, port, slotFrom sl (s.fclk % 8), wd⟩]) })))) ∧
  (∀ (s : State) (n port : Nat) (a b : List Flight) (f : Flight), port < 12 → s.wires = a ++ f :: b → (∀ g ∈ a, g.site ≠ n) → f.site = n →
    let u : State := { s with wires := a ++ b }
    (∀ g, n = 2048 + g → g < 384 → let pl := gridPlace g
      exec (.fabricWord n port .uncorrectable) s = .next (closeStep s
        (swFault (bump u 0x230004 1) pl.1 0x3004 pl.2 f.word.term f.word.tag (.link pl.1 pl.2 f.slot)))) ∧
    (∀ g r hop hops, n = 2048 + g → g < 384 →
      let pl := gridPlace g
      let e := circuit (swOf s pl.1) f.port
      ceValid e = true → ceTerm e = f.word.term →
      s.ring.find? (fun r => r.site = pl.1 && r.port = pl.2 && r.entry = f.port) = some r → r.hops = hop :: hops →
      exec (.fabricWord n port .clean) s = .next (closeStep s (ontoBridge u hop.1 hop.2 f.word))) ∧
    (∀ d r slots l, n = 2432 + d → d < 8 → s.ring = [r] → r.hops = [(d, slots)] → f.slot ∈ slots → r.term = f.word.term → r.bufs = [l] →
      exec (.fabricWord n port .clean) s = .next (closeStep s { u with ring := [{ r with bufs := [l ++ [f.word]] }] })))

/-- A credit comes back to the entry that sends in its slot and Term, which may then send; a fork sends on all its outputs at once, and
only when each has a credit; a reduce entry adds the heads of its operands element by element, and faults with both tags when their
tags or LAST differ; an operand that stays empty while the other is full is a hazard under the Hall Monitor alone. -/
def Obligations.CreditsForksAndReductions : Prop :=
  ∀ (s : State) (k : Nat), k < 2048 →
    let w := swOf s k
    (∀ (a b : List Credit) (c : Credit), s.credits = a ++ c :: b → (∀ d ∈ a, ¬ (d.site = k ∧ d.port = c.port)) → c.site = k →
      c.port < 8 →
      let fits (i : Nat) : Bool := ceValid (circuit w i) && (ceOut (circuit w i)).testBit c.port &&
        (outSlots (circuit w i)).testBit c.slot && ceTerm (circuit w i) = c.term
      (∀ i, i < 64 → fits i = true → (∀ j, j < i → fits j = false) →
        let v := setSw { s with credits := a ++ b } k
          { w with used := sset 0 w.used (8 * i + c.port) (sget 0 w.used (8 * i + c.port) - 1) }
        exec (.creditReturn k c.port) s = .next (closeStep s (pumpEntry v k i)) ∧
        (bufOf w i 0 = [] → exec (.creditReturn k c.port) s = .next (closeStep s v))) ∧
      ((∀ i, i < 64 → fits i = false) →
        exec (.creditReturn k c.port) s = .next (closeStep s { s with credits := a ++ b }))) ∧
    (∀ i f rest, i < 64 → bufOf w i 0 = f :: rest → ceOp (circuit w i) = 0 →
      (hasCredits s k i = true → ∃ t, exec (.forkSend ⟨k, .clean⟩ i) s = .next t ∧ bufOf (swOf t k) i 0 = rest ∧
        (∀ q ∈ outPorts (circuit w i), OnItsWay t k i q (slotFrom (outSlots (circuit w i)) (s.fclk % 8)) f.word) ∧
        t.cus = s.cus ∧ t.mus = s.mus) ∧
      (hasCredits s k i = false → exec (.forkSend ⟨k, .clean⟩ i) s = .next (closeStep s s))) ∧
    (∀ i a ra b rb, i < 64 → bufOf w i 0 = a :: ra → bufOf w i 1 = b :: rb → ceValid (circuit w i) = true → ceOp (circuit w i) = 1 →
      (hasCredits s k i = false → exec (.reduceFire ⟨k, .clean⟩ i) s = .next (closeStep s s)) ∧
      (hasCredits s k i = true → a.word.tag = b.word.tag → a.word.last = b.word.last →
        ∃ t, exec (.reduceFire ⟨k, .clean⟩ i) s = .next t ∧ bufOf (swOf t k) i 0 = ra ∧ bufOf (swOf t k) i 1 = rb ∧
          (∀ q ∈ outPorts (circuit w i), OnItsWay t k i q (slotFrom (outSlots (circuit w i)) ((s.fclk + 3) % 8))
            { data := addWords a.word.data b.word.data, term := ceTerm (circuit w i), tag := a.word.tag, last := a.word.last,
              req := none }) ∧
          t.cus = s.cus ∧ t.mus = s.mus) ∧
      (hasCredits s k i = true → a.word.tag ≠ b.word.tag ∨ a.word.last ≠ b.word.last →
        exec (.reduceFire ⟨k, .clean⟩ i) s = .next (closeStep s (swFault s k 0x3003 (ceInB (circuit w i)) b.word.term b.word.tag
          (.reduce k a.word.tag b.word.tag))))) ∧
    (∀ i (f : Flight) rest, i < 64 → ceValid (circuit w i) = true → ceOp (circuit w i) = 1 → monitored s k = true → rest ≠ [] →
      (bufOf w i 0 = f :: rest → bufOf w i 1 = [] → exec (.rejoinImbalance k i) s = .next (closeStep s
        (recFault s k 0x4003 (.rejoin k (ceInA (circuit w i)) (ceInB (circuit w i)) f.word.tag)))) ∧
      (bufOf w i 0 = [] → bufOf w i 1 = f :: rest → exec (.rejoinImbalance k i) s = .next (closeStep s
        (recFault s k 0x4003 (.rejoin k (ceInB (circuit w i)) (ceInA (circuit w i)) f.word.tag))))) ∧
    (∀ p q tag, siteIsCu k = true → monitored s k = true → imbalance s k 64 = some (p, q, tag) →
      exec (.rejoinImbalance k 64) s = .next (closeStep s (recFault s k 0x4003 (.rejoin k p q tag)))) ∧
    (∀ i, i ≤ 64 → monitored s k = false → exec (.rejoinImbalance k i) s = .next (closeStep s s)) ∧
    (∀ (x y : List Byte) (i : Nat), i < 32 → leAt (addWords x y) (4 * i) 4 = fadd (leAt x (4 * i) 4) (leAt y (4 * i) 4))

/-! ## EtherCAT and the object dictionary -/

/-- The request reaches MC0: the dictionary is online, and the master's mailbox answers or the host is enabled (R401, R406). -/
def Reaches (s : State) (r : Requester) : Prop :=
  reqOk r = true ∧ 7 ≤ s.boot.step ∧ (match r with
    | .master => mailboxUp s = true
    | .host h => hostEnabled s h = true)

/-- The AL state moves down to any state and up by one (log entry 41), before step 8 of the power-up not to SAFEOP; a refused request is
answered and its indicator blinks (log entry 90); leaving OP, or silence of the master, under supervision quiesces the service. SYNC0
steps source 2 where that is configured, and the inputs are sampled by the mode of SM3. CoE serves uploads, downloads and the object list;
before step 7 only the ROM's objects; a link change is signalled. -/
def Obligations.MasterIsServedOverEtherCat : Prop :=
  ∀ s : State,
    (∀ target, 2 ≤ s.boot.step → (8 ≤ s.boot.step ∨ s.boot.plane ≠ 0 ∨ alCode target < 2) →
      (alCode target ≤ alCode s.boot.alState + 1 → s.boot.alState ≠ .op →
        exec (.alStateRequest target) s = .next (closeStep s
          (emit { s with boot := { s.boot with alState := target, alRefused := false } } (.alStatus target s.boot.al)))) ∧
      (s.boot.alState = .op → target ≠ .op → dget s 0x201101 = 1 →
        ∃ t, exec (.alStateRequest target) s = .next t ∧ t.boot.alState = target ∧ ∀ g, 1 ≤ g → g ≤ 5 → gateRead t g ≠ 1) ∧
      (alCode s.boot.alState + 1 < alCode target →
        exec (.alStateRequest target) s = .next (closeStep s
          (emit { s with boot := { s.boot with alRefused := true } } (.alStatus s.boot.alState 0x0011))))) ∧
    (∀ target, 2 ≤ s.boot.step → s.boot.step < 8 → s.boot.plane = 0 → 2 ≤ alCode target →
      ∃ t, exec (.alStateRequest target) s = .next t ∧ .alStatus s.boot.alState s.boot.al ∈ t.out ∧ errLed t = .blinking ∧
        t.boot.alState = s.boot.alState) ∧
    (dget s 0x201101 = 1 → exec .ecatSupervisionTimeout s = .next (closeStep s (writeService s 0))) ∧
    (dget s 0x201101 ≠ 1 → exec .ecatSupervisionTimeout s = .next (closeStep s s)) ∧
    (∀ p up, p < 2 → s.ecatLink.getLsbD p ≠ up →
      ∃ t, exec (.ecatLinkChange p up) s = .next t ∧ t.ecatLink.getLsbD p = up ∧ t.ecatLink.getLsbD (1 - p) = s.ecatLink.getLsbD (1 - p) ∧
        .ecatPort p up ∈ t.out) ∧
    (7 ≤ s.boot.step → dget s 0x250104 = 1 → (srcOf s 2).phase / 65536 + 1 < 2 ^ 48 →
      ∃ t, exec .sync0Event s = .next t ∧ (srcOf t 2).phase = ((srcOf s 2).phase / 65536 + 1) * 65536 ∧ (srcOf t 2).lastEvent = s.fclk ∧
        ∀ j, j ≠ 2 → srcOf t j = srcOf s j) ∧
    (7 ≤ s.boot.step → dget s 0x1C3301 = 0 → 2 ≤ alCode s.boot.alState →
      exec .inputRefresh s = .next (closeStep s (emit { s with sampled := txPdo s } (.pdo (txPdo s))))) ∧
    (7 ≤ s.boot.step → mailboxUp s = true → ∀ index sub complete,
      (∀ bs u, upload s .master index sub complete = (.ok bs, u) →
        exec (.coeSdoUpload index sub complete) s = .next (closeStep s (coeAnswer u 0 bs))) ∧
      (∀ a u, upload s .master index sub complete = (.error a, u) →
        exec (.coeSdoUpload index sub complete) s = .next (closeStep s (coeAnswer u a [])))) ∧
    (7 ≤ s.boot.step → mailboxUp s = true → ∀ index sub bs,
      exec (.coeSdoDownload index sub ⟨true, bs⟩) s = .next (closeStep s (coeAnswer s 0x05040001 []))) ∧
    (7 ≤ s.boot.step → mailboxUp s = true →
      ∃ l, exec .sdoInformation s = .next (closeStep s (emit s (.coeList l))) ∧ ∀ i, i ∈ l ↔ objRow s i ≠ []) ∧
    (s.boot.step < 7 → mailboxUp s = true →
      exec .sdoInformation s = .next (closeStep s (coeAnswer s 0x08000022 [])) ∧
      ∀ index sub complete, index ≠ 0x1000 → index ≠ 0x1018 →
        exec (.coeSdoUpload index sub complete) s = .next (closeStep s (coeAnswer s 0x08000022 [])))

/-- SDO over UDP: what is not sent to the port's address and the UDP port of 0x2020:01 is no request; a datagram of no enabled host, or of
a wrong form, is dropped and counted; one with a number that its host used within 2 s is answered with the same response and not performed
again; any other is performed, answered to its source address and port, and remembered, or dropped and counted where 64 requests wait. A
write or a read by a row of its own is performed and answered alike. -/
def Obligations.HostsAreServedOverUdp : Prop :=
  ∀ s : State,
    (∀ port src (m : Datagram), toDictionary s port m = false → exec (.sdoUdpDatagram port src m) s = .next (closeStep s s)) ∧
    (∀ port src (m : Datagram), port < 4 → 7 ≤ s.boot.step → hportUp s port = true → s.health.split.getLsbD port = false →
      toDictionary s port m = true →
      let d := m.bytes
      (hostByGid s src = none → exec (.sdoUdpDatagram port src m) s = .next (closeStep s (bump s 0x202002 1))) ∧
      (∀ h, hostByGid s src = some h →
        (d.length < 20 ∨ leAt d 2 2 ≠ 0x4C44 ∨ d.length < 20 + leAt d 14 2 →
          exec (.sdoUdpDatagram port src m) s = .next (closeStep s (bump s 0x202002 1))) ∧
        (20 ≤ d.length → leAt d 2 2 = 0x4C44 → 20 + leAt d 14 2 ≤ d.length →
          let id := leAt d 6 2
          (∀ e, (hostOf s h).recent.find? (fun e => e.1 = id && decide (s.fclk ≤ e.2.1 + ms 2000)) = some e →
            exec (.sdoUdpDatagram port src m) s = .next (closeStep s (emit s (.udp h (some (src, m.sport)) e.2.2)))) ∧
          ((∀ e ∈ (hostOf s h).recent, e.1 = id → e.2.1 + ms 2000 < s.fclk) →
            (64 ≤ m.waiting → exec (.sdoUdpDatagram port src m) s = .next (closeStep s (bump s 0x202003 1))) ∧
            (m.waiting < 64 → ∃ b u, udpPerform s h d = (b, u) ∧ exec (.sdoUdpDatagram port src m) s = .next (closeStep s (emit
              (setHost u h { hostOf u h with recent := ((id, u.fclk, b) :: (hostOf u h).recent).take 16 })
              (.udp h (some (src, m.sport)) b)))))))) ∧
    (∀ h (d : List Byte), leAt d 0 2 = 0x0100 → udpOk d = true →
      let id := leAt d 6 2
      let term := leAt d 5 1
      let index := leAt d 10 2
      let sub := leAt d 9 1
      (fld (leAt d 4 1) 0 4 = 2 → udpPerform s h d =
        (udpResponse id term index sub 0 (dictWrite s (.host h) term index sub ((d.drop 20).take (leAt d 14 2))).1 [],
         (dictWrite s (.host h) term index sub ((d.drop 20).take (leAt d 14 2))).2)) ∧
      (∀ bs u, fld (leAt d 4 1) 0 4 = 1 → upload s (.host h) index sub (bitOf (leAt d 8 1) 0) = (.ok bs, u) → bs.length ≤ 1024 →
        udpPerform s h d = (udpResponse id term index sub (leAt d 8 1 % 2) 0 bs, u))) ∧
    (∀ r, Reaches s r →
      (∀ term index sub data, ¬ (index = 0x2900 ∧ sub = 2) →
        exec (.dictWrite r term index sub data) s = .next (closeStep s
          (answer (dictWrite s r term index sub data).2 r term index sub (dictWrite s r term index sub data).1 []))) ∧
      (∀ index sub data, r = .master → ¬ (index = 0x2900 ∧ sub = 2) →
        exec (.coeSdoDownload index sub ⟨false, data⟩) s = .next (closeStep s
          (answer (dictWrite s r 0 index sub data).2 r 0 index sub (dictWrite s r 0 index sub data).1 []))) ∧
      (∀ bs u, upload s r 0x2350 3 false = (.ok bs, u) →
        exec (.debugDataRead r) s = .next (closeStep s (answer u r 0 0x2350 3 0 bs))) ∧
      (∀ a u, upload s r 0x2350 3 false = (.error a, u) →
        exec (.debugDataRead r) s = .next (closeStep s (answer u r 0 0x2350 3 a []))))

/-- The rows that write one value to one object: the requester, the Term, the object and the value. -/
def writesOf (s : State) : Instr → Option (Requester × Nat × Nat × Nat × Nat)
  | .powerCapWrite r t v => some (r, t, 0x2100, 1, v)
  | .aclkCeilingWrite r t v => some (r, t, 0x2100, 5, v)
  | .reportCardReset r t v => some (r, t, 0x2420, 3, v)
  | .watchdogPeriodWrite r t n v => some (r, t, 0x2310, n, v)
  | .rollCallTrigger r t => some (r, t, 0x2310, 4, 1)
  | .rejoinThresholdWrite r t v => some (r, t, 0x2300, 2, v)
  | .forceClose r t v => some (r, t, 0x2340, 4, v)
  | .debugPermittedWrite r t v => some (r, t, 0x2330, 1, v)
  | .timetableEnable r t n => if n < 8 then some (r, t, 0x2520 + n, 1, 1) else none
  | .timetableDisable r t n => if n < 8 then some (r, t, 0x2520 + n, 1, 0) else none
  | .timetableRangeWrite r t n i v => if n < 8 then some (r, t, 0x2520 + n, i, v) else none
  | .trienPortEnable r t p => if p < numPorts s then some (r, t, 0x2640 + p, 1, 1) else none
  | .trienPortDisable r t p => if p < numPorts s then some (r, t, 0x2640 + p, 1, 0) else none
  | .hostPortEnableWrite r t p v => if p < 4 then some (r, t, 0x2730 + p, 1, v) else none
  | .hostPortAddressWrite r t p i v => if p < 4 then some (r, t, 0x2730 + p, i, v) else none
  | .hostGidWrite r t h v => if h < 16 then some (r, t, 0x2710 + h, 1, v) else none
  | .hostEnableWrite r t h v => if h < 16 then some (r, t, 0x2710 + h, 2, v) else none
  | .leaseRevoke r t => some (r, t, 0x2720, 5, 1)
  | .serviceWrite r t v => some (r, t, 0x2010, 1, v)
  | .gateDisable r t g => if 1 ≤ g ∧ g ≤ 5 then some (r, t, 0x2060, g, 0) else none
  | .gateEnable r t g => if 1 ≤ g ∧ g ≤ 5 then some (r, t, 0x2060, g, 1) else none
  | .errorHistoryClear r t v => some (r, t, 0x1003, 0, v)
  | .sm3SyncModeWrite r t v => some (r, t, 0x1C33, 1, v)
  | .twinModeWrite r t p v => if p < 2 then some (r, t, 0x2810, p + 1, v) else none
  | .wingFence r t w => if w < 4 then some (r, t, 0x2820 + w, 2, 1) else none
  | .wingUnfence r t w => if w < 4 then some (r, t, 0x2820 + w, 2, 0) else none
  | .commit r t => some (r, t, 0x2910, 5, 1)
  | .syllabusPolicyWrite r t v => some (r, t, 0x2920, 1, v)
  | .syllabusKeyHashWrite r t n v => if n < 8 then some (r, t, 0x2920, n + 2, v) else none
  | .attestationTrigger r t => some (r, t, 0x2930, 3, 1)
  | _ => none

/-- Objects that hold what is written and do nothing more. -/
def plainObj (index sub : Nat) : Bool :=
  [(0x2100, 1), (0x2300, 2), (0x2310, 1), (0x2310, 2), (0x2330, 1), (0x1C33, 1)].contains (index, sub) ||
  (index = 0x2920 && decide (1 ≤ sub) && decide (sub ≤ 9))

/-- A write passes every check of form, access, lease and range. -/
def Accepted (s : State) (r : Requester) (term index sub v : Nat) : Prop :=
  Reaches s r ∧ ∃ o, locate s index sub = .ok o ∧ v < 2 ^ (8 * o.size) ∧ inRange s index sub v o = true ∧ o.acc ≠ .ro ∧
    (o.acc = .ecat → r = .master) ∧ leaseStops s r term o.acc = false ∧ ¬ (index = 0x1C33 ∧ s.boot.alState = .op)

/-- A write is judged on its object, access, length, lease and value in this order (log entry 12), and a refused one changes nothing but a
count of refusals or a timetable's enable error; an object of each requester's own changes for no other; each row that writes one object
does what that write does, and a plain object then holds the value. -/
def Obligations.WritesAreJudgedInOrder : Prop :=
  (∀ (s : State) (r : Requester) (term index sub : Nat) (data : List Byte),
    let q := dictWrite s r term index sub data
    (∀ a, locate s index sub = .error a → q = (a, s)) ∧
    (q.1 ≠ 0 → q.2 = s ∨ q.2 = bump s 0x202004 1 ∨ ∃ n e, n < 8 ∧ q.2 = setTt s n { ttOf s n with error := e }) ∧
    (∀ o, locate s index sub = .ok o →
      (o.acc = .ro → q = (0x06010002, s)) ∧
      (o.acc = .ecat → r ≠ .master → q.1 = 0x06010002) ∧
      (o.acc ≠ .ro → (o.acc = .ecat → r = .master) →
        (o.size < data.length → q = (0x06070012, s)) ∧ (data.length < o.size → q = (0x06070013, s)) ∧
        (data.length = o.size → leaseStops s r term o.acc = true → q = (0x08000021, bump s 0x202004 1)) ∧
        (data.length = o.size → leaseStops s r term o.acc = false → index ≠ 0x1C33 → inRange s index sub (leNat data) o = false →
          q = (rangeAbort index sub (leNat data) o, s))) ∧
      (o.acc = .own → data.length = o.size → inRange s index sub (leNat data) o = true →
        q.1 = 0 ∧ ownGet q.2 r index sub = keepBits index sub (leNat data) ∧
        ∀ p i j, p ≠ r → i < 65536 → j < 256 → ownGet q.2 p i j = ownGet s p i j))) ∧
  (∀ (s : State) (i : Instr) (r : Requester) (term index sub v : Nat), writesOf s i = some (r, term, index, sub, v) → Reaches s r →
    let q := dictWrite s r term index sub (valueData s index sub v)
    exec i s = .next (closeStep s (answer q.2 r term index sub q.1 [])) ∧
    (Accepted s r term index sub v → plainObj index sub = true → q = (0, dset s (okey index sub) v)))

/-- The effects of accepted writes: the ACLK ceiling raises a clock below the lowest of ceiling and targets to it (the model's choice: log
entry 44), and steps one above it down at once, once in a window, and VCMP follows ACLK in the same step (log entry 59); a card is reset;
a readout of the selected context starts, and its end holds that context's strips; a context is closed; gates quiesce and open, and the
service writes them all; the error history is empty; the lease is revoked; ports and hosts are enabled, disabled and addressed (a host
port's link is up at once: the model's choice, log entry 17); a quiesce that lasts too long is counted and ends the launches, and at gates
1, 2 and 5, whose work ends by itself, it counts nothing (the model's choice: log entry 15). -/
def Obligations.ControlWritesTakeEffect : Prop :=
  ∀ (s : State) (r : Requester) (term : Nat),
    let done (i : Instr) (index sub : Nat) (u : State) : Prop := exec i s = .next (closeStep s (answer u r term index sub 0 []))
    (∀ v, Accepted s r term 0x2100 5 v → ∃ t, exec (.aclkCeilingWrite r term v) s = .next t ∧ dget t 0x210005 = v ∧
      let lim := min (min s.clk.capTarget s.clk.thermTarget) v
      t.clk.aclk = (if lim < s.clk.aclk then (if s.clk.stepped then s.clk.aclk else s.clk.aclk - 100) else lim) ∧
      (s.clk.vcmp = vcmpAt s.clk.aclk → t.clk.vcmp = vcmpAt t.clk.aclk)) ∧
    (∀ v, Accepted s r term 0x2420 3 v →
      let n := dget s 0x242001
      (ctxOf s (n / 256)).syl.isSome = true → inRun (ctxOf s (n / 256)) = false →
      done (.reportCardReset r term v) 0x2420 3 (resetCard s (n / 256) (n % 256) v)) ∧
    (Accepted s r term 0x2310 4 1 → s.roll.state ≠ 1 →
      done (.rollCallTrigger r term) 0x2310 4 { s with roll := { s.roll with state := 1, ctx := dget s 0x231003 } }) ∧
    (s.roll.state = 1 → ∃ t, exec .rollCallDone s = .next t ∧ t.roll.state = 2 ∧
      t.roll.mask = (if (ctxOf s s.roll.ctx).st = .free then none else some (ctxOf s s.roll.ctx).strips) ∧
      t.roll.objs = ctxObjs (viewOf s s.roll.ctx) s.roll.ctx ∧ t.ctxs = s.ctxs) ∧
    (∀ v, Accepted s r term 0x2340 4 v → ((ctxOf s v).st = .opened ∨ (ctxOf s v).st = .loaded) → (ctxOf s v).loading = none →
      (ctxOf s v).run = none → (ctxOf s v).launches = [] → (ctxOf s v).lc = false → (ctxOf s v).recess = none →
      (ctxOf s v).resume = [] → (ctxOf s v).resets = [] →
      ∃ t, exec (.forceClose r term v) s = .next t ∧ (ctxOf t v).st = .closing ∧
        (ctxOf t v).closing = some { cmd := none, since := s.fclk, forced := false }) ∧
    (∀ g, 1 ≤ g → g ≤ 5 →
      (Accepted s r term 0x2060 g 0 → gateRead s g = 1 → ∃ t, exec (.gateDisable r term g) s = .next t ∧
        gateRead t g = (if gateIdle t g then 0 else 2) ∧ (∀ h, h ≠ g → gateRead s h ≠ 2 → gateRead t h = gateRead s h) ∧
        (g = 5 → ∀ w, (mwinOf s w).st = 1 → (mwinOf t w).st = 2)) ∧
      (Accepted s r term 0x2060 g 1 → ∃ t, exec (.gateEnable r term g) s = .next t ∧ gateRead t g = 1)) ∧
    (Accepted s r term 0x2010 1 1 → ∃ t, exec (.serviceWrite r term 1) s = .next t ∧ serviceRead t = 1) ∧
    (Accepted s r term 0x2010 1 0 → (∀ g, 1 ≤ g → g ≤ 5 → gateRead s g = 1) →
      ∃ t, exec (.serviceWrite r term 0) s = .next t ∧ ∀ g, 1 ≤ g → g ≤ 5 → gateRead t g = if gateIdle t g then 0 else 2) ∧
    (gateRead s 3 = 2 → ∃ t, exec (.quiesceTimeout 3) s = .next t ∧ dget t 0x206102 = satAdd 32 (dget s 0x206102) 1 ∧
      ∀ c, c < 64 → ((ctxOf s c).st = .loaded ∨ (ctxOf s c).st = .running ∨ (ctxOf s c).st = .recess) → (ctxOf t c).launches = []) ∧
    (∀ g, (g = 1 ∨ g = 2 ∨ g = 5) → exec (.quiesceTimeout g) s = .next (closeStep s s)) ∧
    (Accepted s r term 0x1003 0 0 → done (.errorHistoryClear r term 0) 0x1003 0 { s with health := { s.health with history := [] } }) ∧
    (Accepted s r term 0x2720 5 1 → leased s = true →
      ∃ t, exec (.leaseRevoke r term) s = .next t ∧ t.lease.holder = none ∧ t.lease.term = s.lease.term) ∧
    (∀ p, p < numPorts s → Accepted s r term (0x2640 + p) 1 1 → (tportOf s p).link = .disabled →
      ∃ t, exec (.trienPortEnable r term p) s = .next t ∧ (tportOf t p).link = .down ∧ (tportOf t p).cause = 0 ∧
        (∀ q, q ≠ p → tportOf t q = tportOf s q) ∧ t.chans = s.chans) ∧
    (∀ p, p < numPorts s → Accepted s r term (0x2640 + p) 1 0 →
      ∃ t, exec (.trienPortDisable r term p) s = .next t ∧ (tportOf t p).link = .disabled ∧ (∀ q, q ≠ p → (tportOf t q).link = (tportOf s q).link) ∧
        ∀ i, i < 64 → (chanOf s (64 * p + i)).st = .opened → (chanOf t (64 * p + i)).st = .lost) ∧
    (∀ n, n < 4 → Accepted s r term (0x2730 + n) 1 1 → s.power.opticsOff.getLsbD n = false →
      ∃ t, exec (.hostPortEnableWrite r term n 1) s = .next t ∧ hportUp t n = true ∧ t.conns = s.conns) ∧
    (∀ n, n < 4 → Accepted s r term (0x2730 + n) 1 0 →
      ∃ t, exec (.hostPortEnableWrite r term n 0) s = .next t ∧ hportUp t n = false ∧ (∀ i, i < 64 → (connOf t (64 * n + i)).live = false) ∧
        ∀ c, c / 64 ≠ n → connOf t c = connOf s c) ∧
    (∀ n i v, n < 4 → 4 ≤ i → i ≤ 7 → Accepted s r term (0x2730 + n) i v →
      ∃ t, exec (.hostPortAddressWrite r term n i v) s = .next t ∧ dget t (hportObj n i) = v ∧
        (v ≠ dget s (hportObj n i) → ∀ j, j < 64 → (connOf t (64 * n + j)).live = false) ∧
        (v = dget s (hportObj n i) → t.conns = s.conns)) ∧
    (∀ h v, h < 16 → Accepted s r term (0x2710 + h) 1 v → (hostOf s h).state ≠ 1 →
      (dget s (hostObj h 2) = 1 → v ≠ 0 ∧ gidTaken s h v = false) →
      done (.hostGidWrite r term h v) (0x2710 + h) 1 (dset s (hostObj h 1) v)) ∧
    (∀ h v, h < 16 → Accepted s r term (0x2710 + h) 2 v →
      (v = 1 → dget s (hostObj h 1) ≠ 0 ∧ gidTaken s h (dget s (hostObj h 1)) = false) →
      done (.hostEnableWrite r term h v) (0x2710 + h) 2 (dset s (hostObj h 2) v))

/-- The effects of accepted writes on timetables, wings and MC0: an entry outside every enabled range is written; a timetable that passes
the check of R318 is enabled over its range, one that fails it holds its enable error, and a disabled one quiesces while its run goes on;
twins are set and fences move ACTIVE wings to FENCED and back; a commit blows its bits and leaves the counter at the image's security
version, and a failed one blows bits of its set (log entry 37); a report is captured and signed with the alias key; a full reset and a
plane reset clear what they clear, and the latter waits for its training. That HBM reads zero after a full reset (log entry 9) and that a
plane reset goes back to step 7 and counts its own steps (log entry 18) are the model's choices. -/
def Obligations.DeviceWritesTakeEffect : Prop :=
  ∀ (s : State) (r : Requester) (term : Nat),
    let done (i : Instr) (index sub : Nat) (u : State) : Prop := exec i s = .next (closeStep s (answer u r term index sub 0 []))
    (∀ e : List Byte, e.length = 16 → Accepted s r term 0x2510 2 (leNat e) → entryLocked s (dget s 0x251001) = false →
      done (.timetableEntryWrite r term e) 0x2510 2 { s with entries := sset 0 s.entries (dget s 0x251001) (leNat e) }) ∧
    (∀ n, n < 8 → Accepted s r term (0x2520 + n) 1 1 → (ttOf s n).state ≠ 1 →
      (rangeFault s n (dget s (ttObj n 3)) (dget s (ttObj n 4)) = none →
        ∃ t, exec (.timetableEnable r term n) s = .next t ∧ (ttOf t n).state = 1 ∧ t.ctxs = s.ctxs ∧ t.hbm = s.hbm) ∧
      (∀ e, rangeFault s n (dget s (ttObj n 3)) (dget s (ttObj n 4)) = some e →
        exec (.timetableEnable r term n) s = .next (closeStep s
          (answer (setTt s n { ttOf s n with error := e }) r term (0x2520 + n) 1 0x06090030 [])))) ∧
    (∀ n, n < 8 → Accepted s r term (0x2520 + n) 1 0 → (ttOf s n).state = 1 →
      ∃ t, exec (.timetableDisable r term n) s = .next t ∧ (ttOf t n).state = (if inRun (ctxOf s (ttCtx s n)) then 3 else 0) ∧
        (∀ d ∈ t.due, d.tt = n → inRun (ctxOf s (ttCtx s n)) = true ∧ (d.start = true ∨ teAction (entryOf s d.entry) = 3)) ∧ t.ctxs = s.ctxs) ∧
    (∀ n i v, n < 8 → (i = 3 ∨ i = 4) → Accepted s r term (0x2520 + n) i v → (ttOf s n).state ≠ 1 →
      done (.timetableRangeWrite r term n i v) (0x2520 + n) i (dset s (ttObj n i) v)) ∧
    (∀ p v, p < 2 → Accepted s r term 0x2810 (p + 1) v → pairHeld s p = false → 2 * p + 1 < s.wings.length →
      (wingOf s (2 * p)).st = .active → (wingOf s (2 * p + 1)).st = .active →
      ∃ t, exec (.twinModeWrite r term p v) s = .next t ∧ dget t (0x281001 + p) = v ∧
        ((wingOf t (2 * p)).st, (wingOf t (2 * p + 1)).st) = twinStates v ∧ t.ctxs = s.ctxs) ∧
    (∀ w, w < 4 → w < s.wings.length → Accepted s r term (0x2820 + w) 2 1 → (wingOf s w).st = .active →
      ∃ t, exec (.wingFence r term w) s = .next t ∧ (wingOf t w).st = .fenced ∧ (wingOf t w).fence = true ∧
        (∀ v, v ≠ w → wingOf t v = wingOf s v) ∧ t.ctxs = s.ctxs) ∧
    (∀ w, w < 4 → w < s.wings.length → Accepted s r term (0x2820 + w) 2 0 → (wingOf s w).st = .fenced → s.health.split.getLsbD w = false →
      ¬ (isSmall s = true ∧ w = 3) →
      ∃ t, exec (.wingUnfence r term w) s = .next t ∧ (wingOf t w).st = .active ∧ (wingOf t w).fence = false ∧
        (∀ v, v ≠ w → wingOf t v = wingOf s v)) ∧
    (Accepted s r term 0x2910 5 1 → s.boot.commit ≠ 1 →
      ∃ t, exec (.commit r term) s = .next t ∧ t.boot.commit = (if commitBits s = [] then 2 else 1) ∧ t.boot.commitAt = s.fclk ∧
        t.fuse = s.fuse) ∧
    (s.boot.commit = 1 →
      (∃ t, exec (.commitComplete true) s = .next t ∧ t.boot.commit = 2 ∧ t.fuse = blow s.fuse (commitBits s) ∧
        ∀ i, s.boot.image = some i → rollback s.fuse ≤ i.svn → i.svn ≤ 63 → rollback t.fuse = i.svn) ∧
      (∃ t, exec (.commitComplete false) s = .next t ∧ t.boot.commit = 3 ∧ FusesOneTime s.fuse t.fuse)) ∧
    (Accepted s r term 0x2930 3 1 → s.attest.1 ≠ 1 →
      done (.attestationTrigger r term) 0x2930 3 { s with attest := (1, reportBody s) }) ∧
    (s.attest.1 = 1 → exec .attestationSigned s = .next (closeStep s
      { s with attest := (2, s.attest.2.take 256 ++ reportSignature s (s.attest.2.take 256)) })) ∧
    (Accepted s r term 0x2900 2 0xA5 → s.boot.commit ≠ 1 →
      ∃ t, exec (.fullResetRequest r term) s = .next t ∧ t.boot.step = 1 ∧ t.boot.cause = 2 ∧ t.boot.online = false ∧ t.boot.image = none ∧
        t.ctxs = [] ∧ t.conns = [] ∧ t.queues = [] ∧ t.chans = [] ∧ t.hbm = [] ∧ t.fuse = s.fuse ∧ t.power.on = s.power.on) ∧
    (Accepted s r term 0x2900 2 0x5A → s.boot.commit ≠ 1 →
      ∃ t, exec (.planeResetRequest r term) s = .next t ∧ t.boot.step = 7 ∧ t.boot.cause = 3 ∧ t.boot.online = false ∧
        t.boot.image = s.boot.image ∧ t.ctxs = [] ∧ t.conns = [] ∧ t.queues = [] ∧ t.chans = [] ∧ t.objs = [] ∧ t.mwins = [] ∧
        t.lease.holder = none ∧ t.boot.plane = 3 ∧ t.fuse = s.fuse)

/-! ## Power-up and power -/

/-- Step 3 has ended with an image: the image runs, the ports have given their DHCP addresses back, and the keys stand with the UDS fuses
locked until the next reset (R441, R451). -/
def StepThreeEnds (s t : State) (i : Image) : Prop :=
  t.boot.step = 3 ∧ t.boot.image = some i ∧ t.boot.udsLocked = true ∧ t.boot.offers = [] ∧
  t.boot.ident = (if s.boot.udsLocked = true then s.boot.ident else some (identOf s.fuse i)) ∧
  ∀ e ∈ s.boot.offers, .dhcpRelease e.1 e.2.addr ∈ t.out

/-- The power-up steps: the ROMs start and fetch; an offer that names a file, a retry, blocks and a file over EtherCAT move their
transfer; a received image that passes every check of R444 is the one that runs, one that fails leaves its AL status code; the second
controller's check decides whether it runs too; training gives every failing pseudo-channel of a stack a spare, up to four; the self-test
fails a dead wing, leaves a clean one ACTIVE and retires the one failed pair of another; then links train (every host port comes up unless
its optics are off: the model's choice, log entries 8 and 19), the dictionary comes online and reports the bridges that are lost where
they part no wing, and contexts may open. In a plane reset links train and wings are tested again before contexts may open (its steps as a
counter of their own: the model's choice, log entry 18). -/
def Obligations.PowerUpFollowsItsSteps : Prop :=
  ∀ s : State,
    let b := s.boot
    (s.power.on = true → s.power.resetN = true → b.step = 1 → b.stopped = false →
      (∀ m, ∃ t, exec (.romStart true m) s = .next t ∧ t.boot.step = 2 ∧ t.boot.mc1 = m ∧ t.boot.al = 0x8010 ∧ t.boot.stopped = false ∧
        ∀ n, n < 4 → .dhcpDiscover n (ascii "Stolnos-Leroa") s.fuse.product ∈ t.out) ∧
      (∀ m, exec (.romStart false m) s = .next (closeStep s { s with boot := { b with stopped := true } }))) ∧
    (fetching s = true →
      (∀ p, p < 4 →
        let x := transferOf s (p + 1)
        (∀ o : DhcpOffer, x.state = 0 → o.file ≠ [] → ∃ t, exec (.dhcpOffer p o) s = .next t ∧ offerOf t p = o ∧
          transferOf t (p + 1) = { state := 1, data := [], since := s.fclk } ∧ .tftpRead p o.server o.file 8192 16 ∈ t.out) ∧
        (∀ o : DhcpOffer, o.file = [] → exec (.dhcpOffer p o) s = .next (closeStep s s)) ∧
        (x.state = 0 → exec (.dhcpRetry p) s = .next (closeStep s (discover s p))) ∧
        (x.state ≠ 0 → exec (.tftpRetry p) s = .next (closeStep s (startTftp s p))) ∧
        (∀ d : List Byte, x.state = 1 → d.length ≤ 8192 →
          exec (.tftpBlock p d) s = .next (closeStep s (setTransfer s (p + 1) { x with data := x.data ++ d })))) ∧
      (∀ f, b.alState = .preop →
        exec (.foeWrite true f) s = .next (closeStep s (setTransfer s 0 { state := 1, data := f, since := s.fclk })) ∧
        exec (.foeWrite false f) s = .next (closeStep s (emit s (.fetchError 0)))) ∧
      (∀ path, path < 5 → (transferOf s path).state = 1 →
        let f := (transferOf s path).data
        (∀ a, imageRefused s f = some a → ∃ t, exec (.firmwareImageReceived path) s = .next t ∧ t.boot.al = a ∧ t.boot.step = 2 ∧
          t.boot.candidate = none ∧ t.boot.image = b.image ∧ (transferOf t path).state = 3) ∧
        (imageRefused s f = none → ∃ t, exec (.firmwareImageReceived path) s = .next t ∧ t.boot.candidate = some (f, imageOf s path f) ∧
          (b.mc1 = true → t.boot.step = 2 ∧ t.boot.image = b.image) ∧
          (b.mc1 = false → StepThreeEnds s t (imageOf s path f))))) ∧
    (∀ f i ok, b.step = 2 → b.candidate = some (f, i) → ∃ t, exec (.mc1ImageCheck ok) s = .next t ∧ StepThreeEnds s t i ∧
      (t.boot.mc1 = true ↔ b.mc1 = true ∧ ok = true ∧ imageRefused s f = none)) ∧
    (∀ l : List Nat, b.step = 3 → b.stopped = false →
      let bad (k : Nat) : List Nat := (List.range 64).filter fun p => l.contains (64 * k + p)
      (∀ k, k < numStacks s → 4 < (bad k).length → ∃ t, exec (.hbmTraining l) s = .next t ∧ t.boot.stopped = true ∧ t.boot.al = 0x8020 ∧
        t.boot.step = 3) ∧
      ((∀ k, k < numStacks s → (bad k).length ≤ 4) → ∃ t, exec (.hbmTraining l) s = .next t ∧ t.boot.step = 4 ∧
        ∀ k p, k < numStacks s → p ∈ bad k → ∃ n, n < 4 ∧ (sget PChan.good t.pchans (64 * k + p)).spare = some n)) ∧
    (∀ failing dead : List Nat, b.step = 4 → b.stopped = false → b.plane ≠ 4 → ∃ t, exec (.siteSelfTest failing dead) s = .next t ∧ t.boot.step = 5 ∧
      (∀ w, w < numWings s → w < s.wings.length →
        (dead.contains w = true → (wingOf t w).st = .failed ∧ (wingOf t w).cause = 0x8001) ∧
        (dead.contains w = false → (∀ p, p < 17 → 17 * w + p ∉ failing ∧ (w, p) ∉ s.fuse.pairs) → b.mc1 = true →
          (wingOf t w).st = .active ∧ (wingOf t w).retired = (wingOf s w).retired) ∧
        (∀ q, q < 17 → dead.contains w = false → (∀ p, p < 17 → (17 * w + p ∈ failing ∨ (w, p) ∈ s.fuse.pairs ↔ p = q)) →
          b.mc1 = true → (wingOf t w).st = .active ∧ (wingOf t w).retired = some q)) ∧
      (b.mc1 = false → t.health.split = 0xC)) ∧
    (∀ l : List Nat, b.step = 5 → b.plane ≠ 3 → ∃ t, exec (.linkTraining l) s = .next t ∧ t.boot.step = 6 ∧ t.hlink = 0xF &&& ~~~s.power.opticsOff ∧
      ∀ i, i < 4 → t.health.bridges.getLsbD i = l.contains i) ∧
    (b.step = 6 → ∃ t, exec .dictionaryOnline s = .next t ∧ t.boot.step = 7 ∧ t.boot.al = 0 ∧ t.health.errReg.toNat = errorRegister t ∧
      let lost := (List.range 4).filter fun i => s.health.bridges.getLsbD i
      (joined s 1 = 15 → lost ≠ [] → dget t 0x280001 = 0x8005 ∧
        (s.health.split = 0 → (∀ w, w < 4 → (wingOf s w).st ≠ .failed) → dget t 0x280002 = satAdd 32 (dget s 0x280002) lost.length))) ∧
    (b.plane = 3 → ∀ l : List Nat, ∃ t, exec (.linkTraining l) s = .next t ∧ t.boot = { b with plane := 4 } ∧
      ∀ i, i < 4 → t.health.bridges.getLsbD i = l.contains i) ∧
    (b.plane = 4 → ∀ failing dead : List Nat, ∃ t, exec (.siteSelfTest failing dead) s = .next t ∧ t.boot = { b with plane := 5 }) ∧
    (b.step = 7 → b.online = false → b.plane = 0 ∨ b.plane = 5 → ∃ t, exec .contextsMayOpen s = .next t ∧ t.boot.step = 8 ∧ t.boot.online = true ∧
      t.boot.candidate = none ∧ t.boot.plane = 0 ∧ t.boot.image = b.image ∧ (b.cause ≠ 3 → t.boot.time = min ((s.fclk - b.start) / ms 1) 0xFFFFFFFF) ∧
      (b.cause = 3 → t.boot.time = b.time))

/-- What a power-down leaves: no power, no boot, no context, no unit, no connection, no memory; fuses only as one-time memory may
change, and not at all when no commit was under way. -/
def PoweredDown (s t : State) : Prop :=
  t.power.on = false ∧ t.power.seq = false ∧ t.power.rails = 0 ∧ t.boot = Boot.off ∧ t.ctxs = [] ∧ t.cus = [] ∧ t.mus = [] ∧
  t.hbm = [] ∧ t.conns = [] ∧ t.queues = [] ∧ t.chans = [] ∧ FusesOneTime s.fuse t.fuse ∧ (s.boot.commit ≠ 1 → t.fuse = s.fuse)

/-- Power: PWR_EN with the input up starts step 1, or waits out the 100 ms after a short low; the rails come up in order, the seventh row
of R462 as VHBMC and then VHBMQ, and the tenth ends the step; loss of PWR_EN, of the input or of a shared rail, an overvoltage, and a
thermal or flow shutdown take the power away; RESET_n restarts the power-up; a rail of one wing takes only that wing's compute or optics;
link and voltage changes are recorded; ACLK follows the power cap and the temperatures, and VCMP follows ACLK. That a rail event and an
overvoltage do not latch (log entry 43), that the cap target falls from the lower of itself and ACLK (log entry 44), that VCMP moves in
the same step as ACLK and CAP_UNATTAINABLE comes with the step to 1,800 MHz (log entry 59), and that HBM reads zero once powered down (log
entry 9) are the model's choices. -/
def Obligations.PowerFollowsItsPinsAndSensors : Prop :=
  ∀ s : State,
    let p := s.power
    (p.pwrEn = false → powered s = false →
      (elapsed s p.fellAt (ms 100) = true → p.input = true → ∃ t, exec .pwrEnRise s = .next t ∧ t.power.seq = true ∧ t.power.rows = 0 ∧ t.power.pwrEn = true) ∧
      (elapsed s p.fellAt (ms 100) = false → p.latched = false →
        exec .pwrEnRise s = .next (closeStep s { s with power := { p with pwrEn := true, holdoff := true } })) ∧
      (elapsed s p.fellAt (ms 100) = true → p.input = false →
        exec .pwrEnRise s = .next (closeStep s { s with power := { p with pwrEn := true } })) ∧
      (elapsed s p.fellAt (ms 100) = false → p.latched = true →
        exec .pwrEnRise s = .next (closeStep s { s with power := { p with pwrEn := true } }))) ∧
    (p.holdoff = true → p.pwrEn = true → p.input = true →
      ∃ t, exec .powerUpHoldoffExpiry s = .next t ∧ t.power.seq = true ∧ t.power.rows = 0 ∧ t.power.holdoff = false) ∧
    (p.holdoff = true → p.input = false →
      exec .powerUpHoldoffExpiry s = .next (closeStep s { s with power := { p with holdoff := false } })) ∧
    (p.input = false → (p.latched = true ∨ p.holdoff = true) →
      exec .inputStartThreshold s = .next (closeStep s { s with power := { p with input := true } })) ∧
    (p.input = false → p.pwrEn = true → powered s = false → p.latched = false → p.holdoff = false →
      ∃ t, exec .inputStartThreshold s = .next t ∧ t.power.input = true ∧ t.power.seq = true ∧ t.power.rows = 0) ∧
    (p.seq = true → ∃ t, exec .railEnable s = .next t ∧ t.power.rows = p.rows + 1 ∧
      t.power.rails = p.rails ||| (rowBits (p.rows + 1) &&& railsOn s.fuse.product) ∧
      (p.rows + 1 < 10 → t.power.seq = true ∧ t.power.on = p.on) ∧
      (10 ≤ p.rows + 1 → t.power.seq = false ∧ pwrOk t = true ∧ t.boot.step = 1 ∧ t.boot.start = s.fclk)) ∧
    (powered s = true →
      (p.pwrEn = true → ∃ t, exec .pwrEnFall s = .next t ∧ PoweredDown s t ∧ t.power.pwrEn = false ∧ t.power.fellAt = s.fclk) ∧
      (∃ t, exec .inputUndervoltage s = .next t ∧ PoweredDown s t ∧ t.power.input = false ∧ t.power.latched = false) ∧
      (∃ t, exec .inputOvervoltage s = .next t ∧ PoweredDown s t ∧ t.power.latched = p.latched) ∧
      (∃ t, exec .railFault s = .next t ∧ PoweredDown s t ∧ t.power.latched = p.latched)) ∧
    (firmwareRuns s = true →
      (∃ t, exec .coolantFlowShutdown s = .next t ∧ PoweredDown s t ∧ t.power.latched = true) ∧
      (∀ (c d e o : List Int),
        let rows := thermal { s.clk with compute := readings 4 c, base := readings 4 d, stack := readings 16 e, optic := readings 4 o }
        let shut := rows.any fun r => r.1.any fun x => decide (r.2.2.2 ≤ x)
        let hot := rows.any fun r => r.1.any fun x => decide (r.2.1 < x)
        let cool := rows.all fun r => r.1.all fun x => decide (x ≤ r.2.2.1)
        (shut = true → ∃ t, exec (.thermalReading c d e o) s = .next t ∧ PoweredDown s t ∧ t.power.latched = true) ∧
        (shut = false → hot = true → ∃ t, exec (.thermalReading c d e o) s = .next t ∧
          t.clk.thermTarget = max 1800 (s.clk.thermTarget - 100) ∧ t.clk.cool = 0 ∧ t.clk.aclk ≤ s.clk.aclk) ∧
        (shut = false → hot = false → cool = true → s.clk.cool < 9 → ∃ t, exec (.thermalReading c d e o) s = .next t ∧
          t.clk.cool = s.clk.cool + 1 ∧ t.clk.thermTarget = s.clk.thermTarget ∧ t.clk.aclk = s.clk.aclk) ∧
        (shut = false → hot = false → cool = true → 9 ≤ s.clk.cool → ∃ t, exec (.thermalReading c d e o) s = .next t ∧
          t.clk.thermTarget = min 3600 (s.clk.thermTarget + 100) ∧ s.clk.aclk ≤ t.clk.aclk)) ∧
      (∀ mean, ∃ t, exec (.powerWindowEnd mean) s = .next t ∧ (s.clk.vcmp = vcmpAt s.clk.aclk → t.clk.vcmp = vcmpAt t.clk.aclk)) ∧
      (∀ mean, dget s 0x210001 < mean → ∃ t, exec (.powerWindowEnd mean) s = .next t ∧ t.clk.power = min mean 6000 ∧
        t.clk.capTarget = max 1800 (min s.clk.capTarget s.clk.aclk - 100) ∧ t.clk.below = 0 ∧ t.clk.aclk ≤ s.clk.aclk ∧
        (t.clk.unattain = true ↔ t.clk.aclk = 1800)) ∧
      (∀ mean, 100 * mean ≤ 97 * dget s 0x210001 → s.clk.below < 9 → ∃ t, exec (.powerWindowEnd mean) s = .next t ∧
        t.clk.below = s.clk.below + 1 ∧ t.clk.capTarget = s.clk.capTarget ∧ t.clk.aclk ≤ s.clk.aclk) ∧
      (∀ mean, 100 * mean ≤ 97 * dget s 0x210001 → 9 ≤ s.clk.below → ∃ t, exec (.powerWindowEnd mean) s = .next t ∧
        t.clk.below = 0 ∧ s.clk.capTarget ≤ t.clk.capTarget ∧ t.clk.aclk ≤ s.clk.aclk + 100) ∧
      (∀ flow inlet outlet glycol, exec (.coolantFlowLow flow inlet outlet glycol) s = .next (closeStep s { s with clk := { s.clk with
        flow := flow, inlet := inlet, outlet := outlet, coolStatus := BitVec.ofNat 8
          (b2n (decide (flow < if glycol then 450 else 400)) + 2 * b2n (decide ((400 : Int) < inlet)) + 4 * b2n (outletHigh s outlet)) } }))) ∧
    (p.resetN = true → p.on = true → ∃ t, exec .resetNAssert s = .next t ∧ t.boot.step = 1 ∧ t.boot.cause = 1 ∧ t.boot.online = false ∧
      t.power.resetN = false ∧ t.power.on = true ∧ t.ctxs = [] ∧ t.conns = []) ∧
    (∃ t, exec .resetNRelease s = .next t ∧ t.power.resetN = true ∧ (p.on = true → s.boot.step = 1 → t.boot.start = s.fclk) ∧
      t.boot.step = s.boot.step) ∧
    (∀ w, w < 4 → w < s.wings.length → p.on = true →
      (p.off.getLsbD w = false → (wingOf s w).st = .active → ¬ (isSmall s = true ∧ w = 3) →
        ∃ t, exec (.vcmpFault w) s = .next t ∧ (wingOf t w).st = .failed ∧ t.power.off.getLsbD w = true ∧ t.hbm = s.hbm ∧
          ∀ v, v ≠ w → (wingOf t v).st = (wingOf s v).st) ∧
      (∃ t, exec (.voptFault w) s = .next t ∧ t.power.opticsOff.getLsbD w = true ∧ t.hlink.getLsbD w = false ∧ t.ctxs = s.ctxs ∧
        ∀ j, j < 16 → 16 * w + j < numPorts s → (tportOf t (16 * w + j)).light = false ∧ (tportOf t (16 * w + j)).link ≠ .up)) ∧
    (∀ rail inside, rail < 32 → p.on = true → (railsDue s).testBit rail = true →
      ∃ t, exec (.voltageToleranceChange rail inside) s = .next t ∧ t.power.rails.getLsbD rail = inside ∧
        ∀ j, j ≠ rail → t.power.rails.getLsbD j = p.rails.getLsbD j) ∧
    (∀ inside, exec (.voltageToleranceChange 32 inside) s = .next (closeStep s { s with power := { p with inputHigh := !inside } })) ∧
    (∀ n up, n < 4 → 6 ≤ s.boot.step → dget s (hportObj n 1) = 1 → p.opticsOff.getLsbD n = false →
      ∃ t, exec (.hostLinkChange n up) s = .next t ∧ t.hlink.getLsbD n = up ∧ (∀ m, m ≠ n → t.hlink.getLsbD m = s.hlink.getLsbD m) ∧
        t.conns = s.conns)

/-! ## Failures of parts -/

/-- Failures: the pair with more corrected errors of a bad link, and the pair of a failed unit, fail; a first failed pair waits for its
retirement, a second one fails its wing, and a failed spare is only noted; a word that reads right again is forgotten. Retirement detains
the RUNNING users of the pair, and the remap moves the columns and is recorded. A lost bridge that splits nothing detains the runs that
use it; a split fences the wings without a path to MC0. After its window a twin fault fences the shadow or promotes it, and the promoted
wing is ACTIVE with the contexts' grants: their strips are its strips, and their addresses lie in its copy of their extents. That a loss
which splits leaves the contexts to SPLIT_FENCE is the model's choice (log entry 42), and so is the detention of the OPEN and LOADED ones
that the split spans (log entry 86). -/
def Obligations.FailuresTakeOnlyTheirPart : Prop :=
  (∀ (s : State) (w p : Nat) (cause : W16), w < 4 → w < s.wings.length → (wingOf s w).st ≠ .failed → ¬ (isSmall s = true ∧ w = 3) →
    let x := wingOf s w
    (x.retired = none → x.retiring = none → p < 16 → x.spareBad = false →
      failPair s w p cause = setWing s w { x with retiring := some (p, cause) }) ∧
    (x.retired = none → x.retiring = none → p = 16 → failPair s w p cause = setWing s w { x with spareBad := true }) ∧
    (∀ q e, x.retired = none → x.retiring = some (q, e) → q ≠ p → (wingOf (failPair s w p cause) w).st = .failed) ∧
    (∀ q, x.retired = some q → q ≠ p → (wingOf (failPair s w p cause) w).st = .failed)) ∧
  (∀ (s : State) (k port : Nat), k < 2048 → port < 8 →
    let far := if port < 4 then (neighbour k port).getD k else k
    let w := siteWing k
    ∃ c e, (c = siteCol k / 2 ∧ e = siteCol far / 2 ∨ c = siteCol far / 2 ∧ e = siteCol k / 2) ∧
      (pairErrors s w e < pairErrors s w c ∨ pairErrors s w e = pairErrors s w c ∧ c ≤ e) ∧
      exec (.linkErrorRate k port) s = .next (closeStep s (failPair s w (sitePair s (siteKey w 0 (2 * c))) 0x3004))) ∧
  (∀ (s : State) (k : Nat), k < 2048 →
    exec (.unitFailed k) s = .next (closeStep s (failPair (unitFault s k 0x8006) (siteWing k) (sitePair s k) 0x8006)) ∧
    (∀ store addr, siteHeld s k = false → s.sramErr.contains (k, store, addr) = true →
      ∃ t, exec (.sramRetest k store addr false) s = .next t ∧ (k, store, addr) ∉ t.sramErr ∧ t.ctxs = s.ctxs ∧ t.wings = s.wings) ∧
    (∀ store addr, siteHeld s k = false → s.sramErr.contains (k, store, addr) = false → siteWing k < s.wings.length →
      ∃ t, exec (.sramRetest k store addr false) s = .next t ∧
        (wingOf t (siteWing k)).uncorr = satAdd 32 (wingOf s (siteWing k)).uncorr 1 ∧ t.ctxs = s.ctxs)) ∧
  (∀ (s : State) (w p : Nat) (cause word : W16), w < 4 → w < s.wings.length → p < 16 →
    let x := wingOf s w
    x.st ≠ .failed → x.retired = none → x.retiring = some (p, word) → ¬ (isSmall s = true ∧ w = 3) →
    (x.remapDue = false → ∃ t, exec (.pairRetirement w p cause) s = .next t ∧ (wingOf t w).remapDue = true ∧
      (wingOf t w).retiring = some (p, word) ∧
      ∀ c, c < 64 → (ctxOf s c).st = .running → twinned s (ctxOf s c) = false → (ctxMask s (ctxOf s c)).testBit (16 * w + p) = true →
        (ctxOf t c).st = .detention) ∧
    (x.remapDue = true → (∀ e ∈ s.ctxs, e.2.holdSince = none ∧ e.2.teardown = none) →
      (∃ t, exec (.pairRemap w true) s = .next t ∧ (wingOf t w).retired = some p ∧ (wingOf t w).retiring = none ∧
        (wingOf t w).st = x.st ∧ (s.health.remaps.length < 64 → ∃ r, t.health.remaps = s.health.remaps ++ [r])) ∧
      (∃ t, exec (.pairRemap w false) s = .next t ∧ (wingOf t w).st = .failed))) ∧
  (∀ (s : State) (b : Nat), b < 4 → s.health.bridges.getLsbD b = false →
    ∃ t, exec (.bridgeLoss b) s = .next t ∧ t.health.bridges = s.health.bridges ||| BitVec.ofNat 4 (2 ^ b) ∧
      (joined t 1 = 15 → ∀ c, c < 64 → (ctxOf s c).st = .running → onBridge (ctxOf s c) b = true → (ctxOf t c).st = .detention) ∧
      (joined t 1 ≠ 15 → t.ctxs = s.ctxs) ∧ t.wings = s.wings) ∧
  (∀ s : State, s.wings.length = 4 → (∀ w, (wingOf s w).st ≠ .twinShadow) → s.health.split = 0 → joined s 1 ≠ 15 →
    ∃ t, exec .splitFence s = .next t ∧
      (∀ w, w < 4 → t.health.split.getLsbD w = !(joined s 1).testBit w) ∧
      (∀ w, w < 4 → (joined s 1).testBit w = false → (wingOf s w).st ≠ .failed → (wingOf t w).st = .fenced) ∧
      (∀ w, (joined s 1).testBit w = true → (wingOf t w).st = (wingOf s w).st) ∧
      (∀ c, c < 64 → (ctxOf s c).st ≠ .free → (ctxOf s c).st ≠ .closing → spansParts t (joined s 1) (ctxOf s c) = true →
        (ctxOf t c).st = .detention)) ∧
  (∀ (s : State) (c since : Nat) (word : W16) (w : Nat) (ws : List Nat), c < 64 → wingsIn (ctxOf s c).strips = w :: ws →
    ((ctxOf s c).twinFault = some (since, true, word) →
      exec (.twinFaultWindowClose c) s = .next (closeStep s (startPromotion s (wingPair w)))) ∧
    ((ctxOf s c).twinFault = some (since, false, word) →
      exec (.twinFaultWindowClose c) s = .next (closeStep s (fenceShadow s (wingPair w) word)))) ∧
  (∀ (s : State) (v : Nat), v < 4 → s.wings.length = 4 → (wingOf s v).st = .twinShadow → (wingOf s (partner v)).st = .twinPrimary →
    (sget none s.health.promoteAt (v / 2)).isSome = true →
    ∃ t, exec (.promotionComplete (v / 2)) s = .next t ∧ (wingOf t v).st = .active ∧ (wingOf t (partner v)).st = .fenced ∧
      sget none t.health.promoteAt (v / 2) = none ∧ dget t 0x281004 = satAdd 32 (dget s 0x281004) 1 ∧
      ∀ c, c < 64 → (ctxOf s c).st ≠ .free → fld (ctxOf s c).strips (16 * partner v) 16 ≠ 0 → (ctxOf s c).promoted = false →
        (ctxOf t c).strips = swapWings (ctxOf s c).strips ∧ (ctxOf t c).extents = (ctxOf s c).extents ∧
        ∀ a, hostAddr (ctxOf t c) a = shadowAddr (ctxOf s c) a)
end

