-- ==== Sys2Proof/Laws/Arms.lean ====
section
/-! SUPPORT. Each command's meaning by name: a proof about one command rewrites with its lemma and never unfolds the others. -/

namespace Sys2Proof.Machine

theorem exec_nop (conn : Nat) (msg : Send) (s : State) : exec (.nop conn msg) s = execNop conn msg s := rfl
theorem exec_queueCreate (conn : Nat) (msg : Send) (s : State) : exec (.queueCreate conn msg) s = execQueueCreate conn msg s := rfl
theorem exec_queueDestroy (conn : Nat) (msg : Send) (s : State) : exec (.queueDestroy conn msg) s = execQueueDestroy conn msg s := rfl
theorem exec_queueAck (conn : Nat) (msg : Send) (s : State) : exec (.queueAck conn msg) s = execQueueAck conn msg s := rfl
theorem exec_queueModify (conn : Nat) (msg : Send) (s : State) : exec (.queueModify conn msg) s = execQueueModify conn msg s := rfl
theorem exec_leaseAcquire (conn : Nat) (msg : Send) (s : State) : exec (.leaseAcquire conn msg) s = execLeaseAcquire conn msg s := rfl
theorem exec_leaseRenew (conn : Nat) (msg : Send) (s : State) : exec (.leaseRenew conn msg) s = execLeaseRenew conn msg s := rfl
theorem exec_leaseRelease (conn : Nat) (msg : Send) (s : State) : exec (.leaseRelease conn msg) s = execLeaseRelease conn msg s := rfl
theorem exec_openCtx (conn : Nat) (msg : Send) (s : State) : exec (.openCtx conn msg) s = execOpen conn msg s := rfl
theorem exec_extentAdd (conn : Nat) (msg : Send) (s : State) : exec (.extentAdd conn msg) s = execExtentAdd conn msg s := rfl
theorem exec_extentFree (conn : Nat) (msg : Send) (s : State) : exec (.extentFree conn msg) s = execExtentFree conn msg s := rfl
theorem exec_extentGrantComplete (ctx : Nat) (s : State) : exec (.extentGrantComplete ctx) s = execExtentGrantComplete ctx s := rfl
theorem exec_load (conn : Nat) (msg : Send) (s : State) : exec (.load conn msg) s = execLoad conn msg s := rfl
theorem exec_loadFetchComplete (ctx : Nat) (file : PktData) (s : State) : exec (.loadFetchComplete ctx file) s = execLoadFetchComplete ctx file s := rfl
theorem exec_unload (conn : Nat) (msg : Send) (s : State) : exec (.unload conn msg) s = execUnload conn msg s := rfl
theorem exec_launch (conn : Nat) (msg : Send) (s : State) : exec (.launch conn msg) s = execLaunch conn msg s := rfl
theorem exec_recess (conn : Nat) (msg : Send) (s : State) : exec (.recess conn msg) s = execRecess conn msg s := rfl
theorem exec_resume (conn : Nat) (msg : Send) (s : State) : exec (.resume conn msg) s = execResume conn msg s := rfl
theorem exec_release (conn : Nat) (msg : Send) (s : State) : exec (.release conn msg) s = execRelease conn msg s := rfl
theorem exec_close (conn : Nat) (msg : Send) (s : State) : exec (.close conn msg) s = execClose conn msg s := rfl
theorem exec_mwOpen (conn : Nat) (msg : Send) (s : State) : exec (.mwOpen conn msg) s = execMwOpen conn msg s := rfl
theorem exec_mwClose (conn : Nat) (msg : Send) (s : State) : exec (.mwClose conn msg) s = execMwClose conn msg s := rfl
theorem exec_mwCloseComplete (win : Nat) (s : State) : exec (.mwCloseComplete win) s = execMwCloseComplete win s := rfl
theorem exec_swOpen (conn : Nat) (msg : Send) (s : State) : exec (.swOpen conn msg) s = execSwOpen conn msg s := rfl
theorem exec_swClose (conn : Nat) (msg : Send) (s : State) : exec (.swClose conn msg) s = execSwClose conn msg s := rfl
theorem exec_objCreate (conn : Nat) (msg : Send) (s : State) : exec (.objCreate conn msg) s = execObjCreate conn msg s := rfl
theorem exec_objDestroy (conn : Nat) (msg : Send) (s : State) : exec (.objDestroy conn msg) s = execObjDestroy conn msg s := rfl
theorem exec_objGrant (conn : Nat) (msg : Send) (s : State) : exec (.objGrant conn msg) s = execObjGrant conn msg s := rfl
theorem exec_objSignal (conn : Nat) (msg : Send) (s : State) : exec (.objSignal conn msg) s = execObjSignal conn msg s := rfl
theorem exec_objWait (conn : Nat) (msg : Send) (s : State) : exec (.objWait conn msg) s = execObjWait conn msg s := rfl
theorem exec_rcRead (conn : Nat) (msg : Send) (s : State) : exec (.rcRead conn msg) s = execRcRead conn msg s := rfl
theorem exec_rcReset (conn : Nat) (msg : Send) (s : State) : exec (.rcReset conn msg) s = execRcReset conn msg s := rfl
theorem exec_rollCall (conn : Nat) (msg : Send) (s : State) : exec (.rollCall conn msg) s = execRollCall conn msg s := rfl
theorem exec_ctxRead (conn : Nat) (msg : Send) (s : State) : exec (.ctxRead conn msg) s = execCtxRead conn msg s := rfl
theorem exec_dbgRead (conn : Nat) (msg : Send) (s : State) : exec (.dbgRead conn msg) s = execDbgRead conn msg s := rfl
theorem exec_rdmaWriteAcked (pkt : ConnPkt) (s : State) : exec (.rdmaWriteAcked pkt) s = execRdmaWriteAcked pkt s := rfl
theorem exec_remoteAccessError (pkt : ConnPkt) (s : State) : exec (.remoteAccessError pkt) s = execRemoteAccessError pkt s := rfl
theorem exec_cmReq (port gid : Nat) (priv : PktData) (s : State) : exec (.cmReq port gid priv) s = execCmReq port gid priv s := rfl
theorem exec_cmDreq (pkt : ConnPkt) (s : State) : exec (.cmDreq pkt) s = execCmDreq pkt s := rfl
theorem exec_ackTimeout (lost : Unacked) (s : State) : exec (.ackTimeout lost) s = execAckTimeout lost s := rfl
theorem exec_livenessTimeout (conn : Nat) (s : State) : exec (.livenessTimeout conn) s = execLivenessTimeout conn s := rfl
theorem exec_hostGraceExpiry (host : Nat) (s : State) : exec (.hostGraceExpiry host) s = execHostGraceExpiry host s := rfl
theorem exec_rdmaWriteRequest (conn rkey off : Nat) (data : WriteData) (s : State) : exec (.rdmaWriteRequest conn rkey off data) s = execRdmaWriteRequest conn rkey off data s := rfl
theorem exec_rdmaReadRequest (conn rkey off : Nat) (ask : ReadAsk) (s : State) : exec (.rdmaReadRequest conn rkey off ask) s = execRdmaReadRequest conn rkey off ask s := rfl
theorem exec_unsupportedRequest (pkt : ConnPkt) (s : State) : exec (.unsupportedRequest pkt) s = execUnsupportedRequest pkt s := rfl
theorem exec_ecnMarkedPacket (pkt : ConnPkt) (s : State) : exec (.ecnMarkedPacket pkt) s = execEcnMarkedPacket pkt s := rfl
theorem exec_cnpReceived (pkt : ConnPkt) (s : State) : exec (.cnpReceived pkt) s = execCnpReceived pkt s := rfl
theorem exec_sendRateRaise (conn : Nat) (s : State) : exec (.sendRateRaise conn) s = execSendRateRaise conn s := rfl
theorem exec_leaseExpiry (s : State) : exec .leaseExpiry s = execLeaseExpiry s := rfl
theorem exec_ptpSync (port time : Nat) (offset : Int) (s : State) : exec (.ptpSync port time offset) s = execPtpSync port time offset s := rfl
theorem exec_ptpSyncLoss (port : Nat) (s : State) : exec (.ptpSyncLoss port) s = execPtpSyncLoss port s := rfl
theorem exec_sdoUdpDatagram (port src : Nat) (data : Datagram) (s : State) : exec (.sdoUdpDatagram port src data) s = execSdoUdpDatagram port src data s := rfl
theorem exec_coeSdoUpload (index sub : Nat) (complete : Bool) (s : State) : exec (.coeSdoUpload index sub complete) s = execCoeSdoUpload index sub complete s := rfl
theorem exec_coeSdoDownload (index sub : Nat) (data : SdoDown) (s : State) : exec (.coeSdoDownload index sub data) s = execCoeSdoDownload index sub data s := rfl
theorem exec_sdoInformation (s : State) : exec .sdoInformation s = execSdoInformation s := rfl
theorem exec_alStateRequest (target : AlState) (s : State) : exec (.alStateRequest target) s = execAlStateRequest target s := rfl
theorem exec_ecatSupervisionTimeout (s : State) : exec .ecatSupervisionTimeout s = execEcatSupervisionTimeout s := rfl
theorem exec_sync0Event (s : State) : exec .sync0Event s = execSync0Event s := rfl
theorem exec_inputRefresh (s : State) : exec .inputRefresh s = execInputRefresh s := rfl
theorem exec_dictWrite (req : Requester) (term : Nat) (index sub : Nat) (data : List Byte) (s : State) : exec (.dictWrite req term index sub data) s = execDictWrite req term index sub data s := rfl
theorem exec_powerCapWrite (req : Requester) (term : Nat) (value : Nat) (s : State) : exec (.powerCapWrite req term value) s = execPowerCapWrite req term value s := rfl
theorem exec_aclkCeilingWrite (req : Requester) (term : Nat) (value : Nat) (s : State) : exec (.aclkCeilingWrite req term value) s = execAclkCeilingWrite req term value s := rfl
theorem exec_reportCardReset (req : Requester) (term : Nat) (value : Nat) (s : State) : exec (.reportCardReset req term value) s = execReportCardReset req term value s := rfl
theorem exec_watchdogPeriodWrite (req : Requester) (term : Nat) (sub value : Nat) (s : State) : exec (.watchdogPeriodWrite req term sub value) s = execWatchdogPeriodWrite req term sub value s := rfl
theorem exec_rollCallTrigger (req : Requester) (term : Nat) (s : State) : exec (.rollCallTrigger req term) s = execRollCallTrigger req term s := rfl
theorem exec_rollCallDone (s : State) : exec .rollCallDone s = execRollCallDone s := rfl
theorem exec_rejoinThresholdWrite (req : Requester) (term : Nat) (value : Nat) (s : State) : exec (.rejoinThresholdWrite req term value) s = execRejoinThresholdWrite req term value s := rfl
theorem exec_forceClose (req : Requester) (term : Nat) (value : Nat) (s : State) : exec (.forceClose req term value) s = execForceClose req term value s := rfl
theorem exec_debugPermittedWrite (req : Requester) (term : Nat) (value : Nat) (s : State) : exec (.debugPermittedWrite req term value) s = execDebugPermittedWrite req term value s := rfl
theorem exec_timetableEntryWrite (req : Requester) (term : Nat) (entry : List Byte) (s : State) : exec (.timetableEntryWrite req term entry) s = execTimetableEntryWrite req term entry s := rfl
theorem exec_timetableEnable (req : Requester) (term : Nat) (tt : Nat) (s : State) : exec (.timetableEnable req term tt) s = execTimetableEnable req term tt s := rfl
theorem exec_timetableDisable (req : Requester) (term : Nat) (tt : Nat) (s : State) : exec (.timetableDisable req term tt) s = execTimetableDisable req term tt s := rfl
theorem exec_timetableRangeWrite (req : Requester) (term : Nat) (tt sub value : Nat) (s : State) : exec (.timetableRangeWrite req term tt sub value) s = execTimetableRangeWrite req term tt sub value s := rfl
theorem exec_timetableQuiesceTimeout (tt : Nat) (s : State) : exec (.timetableQuiesceTimeout tt) s = execTimetableQuiesceTimeout tt s := rfl
theorem exec_trienPortEnable (req : Requester) (term : Nat) (port : Nat) (s : State) : exec (.trienPortEnable req term port) s = execTrienPortEnable req term port s := rfl
theorem exec_trienPortDisable (req : Requester) (term : Nat) (port : Nat) (s : State) : exec (.trienPortDisable req term port) s = execTrienPortDisable req term port s := rfl
theorem exec_hostPortEnableWrite (req : Requester) (term : Nat) (port value : Nat) (s : State) : exec (.hostPortEnableWrite req term port value) s = execHostPortEnableWrite req term port value s := rfl
theorem exec_hostPortAddressWrite (req : Requester) (term : Nat) (port sub value : Nat) (s : State) : exec (.hostPortAddressWrite req term port sub value) s = execHostPortAddressWrite req term port sub value s := rfl
theorem exec_hostGidWrite (req : Requester) (term : Nat) (host value : Nat) (s : State) : exec (.hostGidWrite req term host value) s = execHostGidWrite req term host value s := rfl
theorem exec_hostEnableWrite (req : Requester) (term : Nat) (host value : Nat) (s : State) : exec (.hostEnableWrite req term host value) s = execHostEnableWrite req term host value s := rfl
theorem exec_leaseRevoke (req : Requester) (term : Nat) (s : State) : exec (.leaseRevoke req term) s = execLeaseRevoke req term s := rfl
theorem exec_serviceWrite (req : Requester) (term : Nat) (value : Nat) (s : State) : exec (.serviceWrite req term value) s = execServiceWrite req term value s := rfl
theorem exec_gateDisable (req : Requester) (term : Nat) (gate : Nat) (s : State) : exec (.gateDisable req term gate) s = execGateDisable req term gate s := rfl
theorem exec_gateEnable (req : Requester) (term : Nat) (gate : Nat) (s : State) : exec (.gateEnable req term gate) s = execGateEnable req term gate s := rfl
theorem exec_quiesceTimeout (gate : Nat) (s : State) : exec (.quiesceTimeout gate) s = execQuiesceTimeout gate s := rfl
theorem exec_errorHistoryClear (req : Requester) (term : Nat) (value : Nat) (s : State) : exec (.errorHistoryClear req term value) s = execErrorHistoryClear req term value s := rfl
theorem exec_sm3SyncModeWrite (req : Requester) (term : Nat) (value : Nat) (s : State) : exec (.sm3SyncModeWrite req term value) s = execSm3SyncModeWrite req term value s := rfl
theorem exec_twinModeWrite (req : Requester) (term : Nat) (pair value : Nat) (s : State) : exec (.twinModeWrite req term pair value) s = execTwinModeWrite req term pair value s := rfl
theorem exec_wingFence (req : Requester) (term : Nat) (wing : Nat) (s : State) : exec (.wingFence req term wing) s = execWingFence req term wing s := rfl
theorem exec_wingUnfence (req : Requester) (term : Nat) (wing : Nat) (s : State) : exec (.wingUnfence req term wing) s = execWingUnfence req term wing s := rfl
theorem exec_fullResetRequest (req : Requester) (term : Nat) (s : State) : exec (.fullResetRequest req term) s = execFullResetRequest req term s := rfl
theorem exec_planeResetRequest (req : Requester) (term : Nat) (s : State) : exec (.planeResetRequest req term) s = execPlaneResetRequest req term s := rfl
theorem exec_commit (req : Requester) (term : Nat) (s : State) : exec (.commit req term) s = execCommit req term s := rfl
theorem exec_commitComplete (readBack : Bool) (s : State) : exec (.commitComplete readBack) s = execCommitComplete readBack s := rfl
theorem exec_syllabusPolicyWrite (req : Requester) (term : Nat) (value : Nat) (s : State) : exec (.syllabusPolicyWrite req term value) s = execSyllabusPolicyWrite req term value s := rfl
theorem exec_syllabusKeyHashWrite (req : Requester) (term : Nat) (slot value : Nat) (s : State) : exec (.syllabusKeyHashWrite req term slot value) s = execSyllabusKeyHashWrite req term slot value s := rfl
theorem exec_attestationTrigger (req : Requester) (term : Nat) (s : State) : exec (.attestationTrigger req term) s = execAttestationTrigger req term s := rfl
theorem exec_attestationSigned (s : State) : exec .attestationSigned s = execAttestationSigned s := rfl
theorem exec_debugDataRead (req : Requester) (s : State) : exec (.debugDataRead req) s = execDebugDataRead req s := rfl
theorem exec_powerWindowEnd (mean : Nat) (s : State) : exec (.powerWindowEnd mean) s = execPowerWindowEnd mean s := rfl
theorem exec_thermalReading (compute base stack optic : List Int) (s : State) : exec (.thermalReading compute base stack optic) s = execThermalReading compute base stack optic s := rfl
theorem exec_coolantFlowLow (flow : Nat) (inlet outlet : Int) (glycol : Bool) (s : State) : exec (.coolantFlowLow flow inlet outlet glycol) s = execCoolantFlowLow flow inlet outlet glycol s := rfl
theorem exec_coolantFlowShutdown (s : State) : exec .coolantFlowShutdown s = execCoolantFlowShutdown s := rfl
theorem exec_pwrEnRise (s : State) : exec .pwrEnRise s = execPwrEnRise s := rfl
theorem exec_pwrEnFall (s : State) : exec .pwrEnFall s = execPwrEnFall s := rfl
theorem exec_resetNAssert (s : State) : exec .resetNAssert s = execResetNAssert s := rfl
theorem exec_resetNRelease (s : State) : exec .resetNRelease s = execResetNRelease s := rfl
theorem exec_inputUndervoltage (s : State) : exec .inputUndervoltage s = execInputUndervoltage s := rfl
theorem exec_inputOvervoltage (s : State) : exec .inputOvervoltage s = execInputOvervoltage s := rfl
theorem exec_railFault (s : State) : exec .railFault s = execRailFault s := rfl
theorem exec_vcmpFault (wing : Nat) (s : State) : exec (.vcmpFault wing) s = execVcmpFault wing s := rfl
theorem exec_voptFault (wing : Nat) (s : State) : exec (.voptFault wing) s = execVoptFault wing s := rfl
theorem exec_railEnable (s : State) : exec .railEnable s = execRailEnable s := rfl
theorem exec_romStart (mc0Ok mc1Ok : Bool) (s : State) : exec (.romStart mc0Ok mc1Ok) s = execRomStart mc0Ok mc1Ok s := rfl
theorem exec_dhcpOffer (port : Nat) (offer : DhcpOffer) (s : State) : exec (.dhcpOffer port offer) s = execDhcpOffer port offer s := rfl
theorem exec_dhcpRetry (port : Nat) (s : State) : exec (.dhcpRetry port) s = execDhcpRetry port s := rfl
theorem exec_tftpRetry (port : Nat) (s : State) : exec (.tftpRetry port) s = execTftpRetry port s := rfl
theorem exec_tftpBlock (port : Nat) (data : List Byte) (s : State) : exec (.tftpBlock port data) s = execTftpBlock port data s := rfl
theorem exec_foeWrite (named : Bool) (file : List Byte) (s : State) : exec (.foeWrite named file) s = execFoeWrite named file s := rfl
theorem exec_firmwareImageReceived (path : Nat) (s : State) : exec (.firmwareImageReceived path) s = execFirmwareImageReceived path s := rfl
theorem exec_mc1ImageCheck (pathOk : Bool) (s : State) : exec (.mc1ImageCheck pathOk) s = execMc1ImageCheck pathOk s := rfl
theorem exec_hbmTraining (failing : List Nat) (s : State) : exec (.hbmTraining failing) s = execHbmTraining failing s := rfl
theorem exec_siteSelfTest (failing : List Nat) (dead : List Nat) (s : State) : exec (.siteSelfTest failing dead) s = execSiteSelfTest failing dead s := rfl
theorem exec_linkTraining (bridges : List Nat) (s : State) : exec (.linkTraining bridges) s = execLinkTraining bridges s := rfl
theorem exec_dictionaryOnline (s : State) : exec .dictionaryOnline s = execDictionaryOnline s := rfl
theorem exec_contextsMayOpen (s : State) : exec .contextsMayOpen s = execContextsMayOpen s := rfl
theorem exec_bellEdge (a b : Bool) (s : State) : exec (.bellEdge a b) s = execBellEdge a b s := rfl
theorem exec_bellIndexEdge (forward : Bool) (s : State) : exec (.bellIndexEdge forward) s = execBellIndexEdge forward s := rfl
theorem exec_intervalTimeout (source : Nat) (s : State) : exec (.intervalTimeout source) s = execIntervalTimeout source s := rfl
theorem exec_sourceLossTimeout (source : Nat) (s : State) : exec (.sourceLossTimeout source) s = execSourceLossTimeout source s := rfl
theorem exec_timetableRelease (tt : Nat) (s : State) : exec (.timetableRelease tt) s = execTimetableRelease tt s := rfl
theorem exec_timetableSignal (tt : Nat) (s : State) : exec (.timetableSignal tt) s = execTimetableSignal tt s := rfl
theorem exec_timetableCheck (tt : Nat) (s : State) : exec (.timetableCheck tt) s = execTimetableCheck tt s := rfl
theorem exec_phaseDeadlinePass (tt : Nat) (s : State) : exec (.phaseDeadlinePass tt) s = execPhaseDeadlinePass tt s := rfl
theorem exec_timeDeadlineExpiry (tt : Nat) (s : State) : exec (.timeDeadlineExpiry tt) s = execTimeDeadlineExpiry tt s := rfl
theorem exec_stagingStart (ctx : Nat) (s : State) : exec (.stagingStart ctx) s = execStagingStart ctx s := rfl
theorem exec_stagingComplete (ctx : Nat) (s : State) : exec (.stagingComplete ctx) s = execStagingComplete ctx s := rfl
theorem exec_lendRecessRequest (ctx : Nat) (s : State) : exec (.lendRecessRequest ctx) s = execLendRecessRequest ctx s := rfl
theorem exec_beQuantumExpiry (ctx : Nat) (s : State) : exec (.beQuantumExpiry ctx) s = execBeQuantumExpiry ctx s := rfl
theorem exec_schedulerStart (s : State) : exec .schedulerStart s = execSchedulerStart s := rfl
theorem exec_recessPointReached (ctx : Nat) (s : State) : exec (.recessPointReached ctx) s = execRecessPointReached ctx s := rfl
theorem exec_saveComplete (ctx : Nat) (s : State) : exec (.saveComplete ctx) s = execSaveComplete ctx s := rfl
theorem exec_restoreComplete (ctx : Nat) (s : State) : exec (.restoreComplete ctx) s = execRestoreComplete ctx s := rfl
theorem exec_preemptTimeout (ctx : Nat) (s : State) : exec (.preemptTimeout ctx) s = execPreemptTimeout ctx s := rfl
theorem exec_recessPartnerSilence (chan : Nat) (s : State) : exec (.recessPartnerSilence chan) s = execRecessPartnerSilence chan s := rfl
theorem exec_teardownComplete (ctx : Nat) (s : State) : exec (.teardownComplete ctx) s = execTeardownComplete ctx s := rfl
theorem exec_closeTimeout (ctx : Nat) (s : State) : exec (.closeTimeout ctx) s = execCloseTimeout ctx s := rfl
theorem exec_closeComplete (ctx : Nat) (s : State) : exec (.closeComplete ctx) s = execCloseComplete ctx s := rfl
theorem exec_turnComplete (ctx : Nat) (s : State) : exec (.turnComplete ctx) s = execTurnComplete ctx s := rfl
theorem exec_zeroExtentComplete (ctx : Nat) (s : State) : exec (.zeroExtentComplete ctx) s = execZeroExtentComplete ctx s := rfl
theorem exec_termCooled (s : State) : exec .termCooled s = execTermCooled s := rfl
theorem exec_passDescriptor (unit : At) (s : State) : exec (.passDescriptor unit) s = execPassDescriptor unit s := rfl
theorem exec_columnTableLoad (unit : At) (s : State) : exec (.columnTableLoad unit) s = execColumnTableLoad unit s := rfl
theorem exec_freeHandle (unit : At) (s : State) : exec (.freeHandle unit) s = execFreeHandle unit s := rfl
theorem exec_drainHandle (unit : At) (s : State) : exec (.drainHandle unit) s = execDrainHandle unit s := rfl
theorem exec_cuGateRelease (unit : At) (s : State) : exec (.cuGateRelease unit) s = execCuGateRelease unit s := rfl
theorem exec_passFire (unit : At) (k : Nat) (s : State) : exec (.passFire unit k) s = execPassFire unit k s := rfl
theorem exec_weightTileComplete (site : Nat) (s : State) : exec (.weightTileComplete site) s = execWeightTileComplete site s := rfl
theorem exec_slotReady (site slot : Nat) (s : State) : exec (.slotReady site slot) s = execSlotReady site slot s := rfl
theorem exec_steeringToken (site word : Nat) (s : State) : exec (.steeringToken site word) s = execSteeringToken site word s := rfl
theorem exec_drainStart (site : Nat) (sram : Sram) (s : State) : exec (.drainStart site sram) s = execDrainStart site sram s := rfl
theorem exec_slotRelease (unit : At) (s : State) : exec (.slotRelease unit) s = execSlotRelease unit s := rfl
theorem exec_drainComplete (drain : DrainEnd) (s : State) : exec (.drainComplete drain) s = execDrainComplete drain s := rfl
theorem exec_tileIndexTake (unit : At) (s : State) : exec (.tileIndexTake unit) s = execTileIndexTake unit s := rfl
theorem exec_stepMerge (ctx card : Nat) (s : State) : exec (.stepMerge ctx card) s = execStepMerge ctx card s := rfl
theorem exec_heldStepRelease (ctx : Nat) (card : CardRead) (s : State) : exec (.heldStepRelease ctx card) s = execHeldStepRelease ctx card s := rfl
theorem exec_issueEntry (unit : At) (list : Nat) (s : State) : exec (.issueEntry unit list) s = execIssueEntry unit list s := rfl
theorem exec_tileDescriptor (site gen : Nat) (sram : Sram) (s : State) : exec (.tileDescriptor site gen sram) s = execTileDescriptor site gen sram s := rfl
theorem exec_gatherScatterDescriptor (unit : At) (gen : Nat) (s : State) : exec (.gatherScatterDescriptor unit gen) s = execGatherScatterDescriptor unit gen s := rfl
theorem exec_layoutCopyDescriptor (unit : At) (gen : Nat) (s : State) : exec (.layoutCopyDescriptor unit gen) s = execLayoutCopyDescriptor unit gen s := rfl
theorem exec_externalAccessDescriptor (unit : At) (queue : Nat) (s : State) : exec (.externalAccessDescriptor unit queue) s = execExternalAccessDescriptor unit queue s := rfl
theorem exec_accessUnblock (unit : At) (list : Nat) (s : State) : exec (.accessUnblock unit list) s = execAccessUnblock unit list s := rfl
theorem exec_narrowStarvation (site : Nat) (s : State) : exec (.narrowStarvation site) s = execNarrowStarvation site s := rfl
theorem exec_descriptorComplete (site gen : Nat) (s : State) : exec (.descriptorComplete site gen) s = execDescriptorComplete site gen s := rfl
theorem exec_eadComplete (site : Nat) (done : EadEnd) (s : State) : exec (.eadComplete site done) s = execEadComplete site done s := rfl
theorem exec_hbmEccRetry (site queue addr : Nat) (clean : Bool) (s : State) : exec (.hbmEccRetry site queue addr clean) s = execHbmEccRetry site queue addr clean s := rfl
theorem exec_scrubPatrol (addr : Nat) (ecc : Ecc) (s : State) : exec (.scrubPatrol addr ecc) s = execScrubPatrol addr ecc s := rfl
theorem exec_hbmRefresh (stack pc : Nat) (s : State) : exec (.hbmRefresh stack pc) s = execHbmRefresh stack pc s := rfl
theorem exec_pseudoChannelFailing (stack pc : Nat) (cause : W16) (s : State) : exec (.pseudoChannelFailing stack pc cause) s = execPseudoChannelFailing stack pc cause s := rfl
theorem exec_pseudoChannelSwitch (stack pc : Nat) (s : State) : exec (.pseudoChannelSwitch stack pc) s = execPseudoChannelSwitch stack pc s := rfl
theorem exec_tileRequest (site group : Nat) (s : State) : exec (.tileRequest site group) s = execTileRequest site group s := rfl
theorem exec_tileGrant (site : Nat) (s : State) : exec (.tileGrant site) s = execTileGrant site s := rfl
theorem exec_signalPacket (site route : Nat) (check : WordCheck) (s : State) : exec (.signalPacket site route check) s = execSignalPacket site route check s := rfl
theorem exec_watchdogExpiry (site wait : Nat) (s : State) : exec (.watchdogExpiry site wait) s = execWatchdogExpiry site wait s := rfl
theorem exec_fabricWord (site port : Nat) (check : WordCheck) (s : State) : exec (.fabricWord site port check) s = execFabricWord site port check s := rfl
theorem exec_creditReturn (site port : Nat) (s : State) : exec (.creditReturn site port) s = execCreditReturn site port s := rfl
theorem exec_forkSend (unit : At) (entry : Nat) (s : State) : exec (.forkSend unit entry) s = execForkSend unit entry s := rfl
theorem exec_reduceFire (unit : At) (entry : Nat) (s : State) : exec (.reduceFire unit entry) s = execReduceFire unit entry s := rfl
theorem exec_rejoinImbalance (site entry : Nat) (s : State) : exec (.rejoinImbalance site entry) s = execRejoinImbalance site entry s := rfl
theorem exec_linkErrorRate (site port : Nat) (s : State) : exec (.linkErrorRate site port) s = execLinkErrorRate site port s := rfl
theorem exec_unitFailed (site : Nat) (s : State) : exec (.unitFailed site) s = execUnitFailed site s := rfl
theorem exec_sramRetest (site store addr : Nat) (bad : Bool) (s : State) : exec (.sramRetest site store addr bad) s = execSramRetest site store addr bad s := rfl
theorem exec_pairRetirement (wing pair : Nat) (cause : W16) (s : State) : exec (.pairRetirement wing pair cause) s = execPairRetirement wing pair cause s := rfl
theorem exec_pairRemap (wing : Nat) (testOk : Bool) (s : State) : exec (.pairRemap wing testOk) s = execPairRemap wing testOk s := rfl
theorem exec_bridgeLoss (bridge : Nat) (s : State) : exec (.bridgeLoss bridge) s = execBridgeLoss bridge s := rfl
theorem exec_splitFence (s : State) : exec .splitFence s = execSplitFence s := rfl
theorem exec_twinFaultWindowClose (ctx : Nat) (s : State) : exec (.twinFaultWindowClose ctx) s = execTwinFaultWindowClose ctx s := rfl
theorem exec_twinEgressCompare (chan : Nat) (sram : Sram) (s : State) : exec (.twinEgressCompare chan sram) s = execTwinEgressCompare chan sram s := rfl
theorem exec_twinEgressTimeout (late : TwinValue) (s : State) : exec (.twinEgressTimeout late) s = execTwinEgressTimeout late s := rfl
theorem exec_promotionComplete (pair : Nat) (s : State) : exec (.promotionComplete pair) s = execPromotionComplete pair s := rfl
theorem exec_lightDetected (port lanes : Nat) (s : State) : exec (.lightDetected port lanes) s = execLightDetected port lanes s := rfl
theorem exec_lightLost (port : Nat) (s : State) : exec (.lightLost port) s = execLightLost port s := rfl
theorem exec_trainLock (port : Nat) (s : State) : exec (.trainLock port) s = execTrainLock port s := rfl
theorem exec_trainTimeout (port : Nat) (s : State) : exec (.trainTimeout port) s = execTrainTimeout port s := rfl
theorem exec_negotiateTimeout (port : Nat) (s : State) : exec (.negotiateTimeout port) s = execNegotiateTimeout port s := rfl
theorem exec_hello (port : Nat) (cw : Option Codeword) (word : Nat) (s : State) : exec (.hello port cw word) s = execHello port cw word s := rfl
theorem exec_echo (port : Nat) (cw : Option Codeword) (word : Nat) (s : State) : exec (.echo port cw word) s = execEcho port cw word s := rfl
theorem exec_echoReply (port : Nat) (cw : Option Codeword) (word : Nat) (s : State) : exec (.echoReply port cw word) s = execEchoReply port cw word s := rfl
theorem exec_linkIdleTimeout (port : Nat) (s : State) : exec (.linkIdleTimeout port) s = execLinkIdleTimeout port s := rfl
theorem exec_dataFrame (port : Nat) (fec : Bool) (idx : Nat) (frame : List Byte) (s : State) : exec (.dataFrame port fec idx frame) s = execDataFrame port fec idx frame s := rfl
theorem exec_idleFrame (port : Nat) (idx : Option Nat) (frame : List Byte) (s : State) : exec (.idleFrame port idx frame) s = execIdleFrame port idx frame s := rfl
theorem exec_replayBufferFullTimeout (port : Nat) (s : State) : exec (.replayBufferFullTimeout port) s = execReplayBufferFullTimeout port s := rfl
theorem exec_credit (port : Nat) (cw : Option Codeword) (word : Nat) (s : State) : exec (.credit port cw word) s = execCredit port cw word s := rfl
theorem exec_creditCoalesce (chan : Nat) (s : State) : exec (.creditCoalesce chan) s = execCreditCoalesce chan s := rfl
theorem exec_revoke (port : Nat) (cw : Option Codeword) (word : Nat) (s : State) : exec (.revoke port cw word) s = execRevoke port cw word s := rfl
theorem exec_rewind (port : Nat) (cw : Option Codeword) (word : Nat) (s : State) : exec (.rewind port cw word) s = execRewind port cw word s := rfl
theorem exec_wclosed (port : Nat) (cw : Option Codeword) (word : Nat) (s : State) : exec (.wclosed port cw word) s = execWclosed port cw word s := rfl
theorem exec_stepToken (port : Nat) (cw : Option Codeword) (word : Nat) (s : State) : exec (.stepToken port cw word) s = execStepToken port cw word s := rfl
theorem exec_windowOpenWord (port : Nat) (cw : Option Codeword) (word : Nat) (s : State) : exec (.windowOpenWord port cw word) s = execWindowOpenWord port cw word s := rfl
theorem exec_windowOpenTimeout (chan : Nat) (s : State) : exec (.windowOpenTimeout chan) s = execWindowOpenTimeout chan s := rfl
theorem exec_windowCloseWord (port : Nat) (cw : Option Codeword) (word : Nat) (s : State) : exec (.windowCloseWord port cw word) s = execWindowCloseWord port cw word s := rfl
theorem exec_windowCloseTimeout (chan : Nat) (s : State) : exec (.windowCloseTimeout chan) s = execWindowCloseTimeout chan s := rfl
theorem exec_laneMap (port : Nat) (cw : Option Codeword) (word : Nat) (s : State) : exec (.laneMap port cw word) s = execLaneMap port cw word s := rfl
theorem exec_laneMapAck (port : Nat) (cw : Option Codeword) (word : Nat) (s : State) : exec (.laneMapAck port cw word) s = execLaneMapAck port cw word s := rfl
theorem exec_laneErrorWindow (port : Nat) (errors : List Nat) (s : State) : exec (.laneErrorWindow port errors) s = execLaneErrorWindow port errors s := rfl
theorem exec_laneSwitch (turn : LaneTurn) (s : State) : exec (.laneSwitch turn) s = execLaneSwitch turn s := rfl
theorem exec_blockLand (chan : Nat) (s : State) : exec (.blockLand chan) s = execBlockLand chan s := rfl
theorem exec_hbmBlockLand (chan : Nat) (s : State) : exec (.hbmBlockLand chan) s = execHbmBlockLand chan s := rfl
theorem exec_egressBlockSend (block : BlockRead) (s : State) : exec (.egressBlockSend block) s = execEgressBlockSend block s := rfl
theorem exec_streamHoldExpiry (port : Nat) (s : State) : exec (.streamHoldExpiry port) s = execStreamHoldExpiry port s := rfl
theorem exec_trainRetryTimer (port : Nat) (s : State) : exec (.trainRetryTimer port) s = execTrainRetryTimer port s := rfl
theorem exec_laneMarkersLost (port lane : Nat) (s : State) : exec (.laneMarkersLost port lane) s = execLaneMarkersLost port lane s := rfl
theorem exec_inputStartThreshold (s : State) : exec .inputStartThreshold s = execInputStartThreshold s := rfl
theorem exec_powerUpHoldoffExpiry (s : State) : exec .powerUpHoldoffExpiry s = execPowerUpHoldoffExpiry s := rfl
theorem exec_voltageToleranceChange (rail : Nat) (inside : Bool) (s : State) : exec (.voltageToleranceChange rail inside) s = execVoltageToleranceChange rail inside s := rfl
theorem exec_hostLinkChange (port : Nat) (up : Bool) (s : State) : exec (.hostLinkChange port up) s = execHostLinkChange port up s := rfl
theorem exec_ecatLinkChange (port : Nat) (up : Bool) (s : State) : exec (.ecatLinkChange port up) s = execEcatLinkChange port up s := rfl

end Sys2Proof.Machine
end

