-- ==== Sys2Proof/Laws/Coding.lean ====
section
/-! SUPPORT. Frames of a Trien port: what a frame built from a header and a body reads as (R335), and what a codeword with a good
frame does (R337). -/

namespace Sys2Proof.Machine

@[simp] theorem length_leBytes (n w : Nat) : (leBytes n w).length = n := by
  induction n generalizing w with
  | zero => rfl
  | succ n ih => simp [leBytes, ih]

theorem leNat_leBytes (n w : Nat) : leNat (leBytes n w) = w % 256 ^ n := by
  induction n generalizing w with
  | zero => simp [leBytes, leNat, Nat.mod_one]
  | succ n ih =>
    have e : 256 ^ (n + 1) = 256 * 256 ^ n := Nat.pow_succ'
    rw [leBytes, leNat, ih, BitVec.toNat_ofNat, e, Nat.mod_mul]

@[simp] theorem length_padTo (n : Nat) (bs : List Byte) : (padTo n bs).length = n := by
  simp [padTo]; omega

/-- A frame has 640 bytes. -/
@[simp] theorem length_frameBytes (h : Nat) (b : List Byte) : (frameBytes h b).length = 640 := by simp [frameBytes]

theorem crc64_lt (bs : List Byte) : crc64 bs < 256 ^ 8 := (~~~(bs.foldl crcByte (BitVec.allOnes 64))).isLt

/-- The header of a frame is the one it was built with. -/
theorem frameHdr_frameBytes (h : Nat) (b : List Byte) (hh : h < 2 ^ 128) : frameHdr (frameBytes h b) = h := by
  have e : 16 - (16 + 616) = 0 := rfl
  simp only [frameHdr, leAt, frameBytes, List.drop_zero, List.take_append, length_leBytes, length_padTo, List.length_append, e,
    List.take_zero, List.append_nil]
  rw [List.take_of_length_le (by simp), leNat_leBytes]
  exact Nat.mod_eq_of_lt hh

/-- The CRC of a frame is good. -/
theorem crcGood_frameBytes (h : Nat) (b : List Byte) : crcGood (frameBytes h b) = true := by
  have hl : (leBytes 16 h ++ padTo 616 b).length = 0x278 := by simp
  have key (bs : List Byte) (hb : bs.length = 0x278) : crcGood (bs ++ leBytes 8 (crc64 bs)) = true := by
    refine decide_eq_true ?_
    rw [leAt, List.drop_left' hb, List.take_left' hb, List.take_of_length_le (by simp), leNat_leBytes]
    exact Nat.mod_eq_of_lt (crc64_lt bs)
  exact key _ hl

/-- A codeword that decodes, follows the one before it and has a good frame: only its type, SEQ and reserved bits decide. -/
theorem takeFrame_good {s : State} {p : Nat} {c : Codeword} (hf : c.fec = true) (hi : cwFollows (tportOf s p) c = true)
    (hc : crcGood c.frame = true) :
    takeFrame s p c =
      let u := setTport s p { tportOf s p with rxIdx := some (BitVec.ofNat 12 c.idx), ctlRest := [], lastFrame := s.fclk }
      let h := frameHdr c.frame
      if fhType h = 0 then (false, if fhOk h then takeAck u p h else retrain u p true)
      else if fhSeq h != (tportOf s p).expect.toNat then (false, softNak u p)
      else if !(fhOk h) then (false, retrain u p true)
      else (true, acceptFrame u p h) := by
  simp [takeFrame, hf, hi, hc]

end Sys2Proof.Machine
end

