-- ==== Sys2Proof/Laws/Sparse.lean ====
section
/-! SUPPORT. Sparse maps and memories: a read after a write, what a write leaves, and the canonical form that every memory
operation keeps. -/

namespace Sys2Proof.Machine

variable {α : Type} (d : α)

/-! ## Reads -/

/-- A key that no entry has reads as the default. -/
theorem sget_absent (m : Sparse α) (k : Nat) (h : ∀ e ∈ m, e.1 ≠ k) : sget d m k = d := by
  induction m with
  | nil => rfl
  | cons e r ih =>
    obtain ⟨j, v⟩ := e
    simp only [sget]
    rw [if_neg (h (j, v) (by simp)), ih fun e he => h e (by simp [he])]

/-- The first of two parts answers for a key that the second does not have. -/
theorem sget_append_left (m r : Sparse α) (k : Nat) (h : ∀ e ∈ r, e.1 ≠ k) : sget d (m ++ r) k = sget d m k := by
  induction m with
  | nil => simpa [sget] using sget_absent d r k h
  | cons e m ih =>
    obtain ⟨j, v⟩ := e
    simp only [List.cons_append, sget, ih]

/-- The second of two parts answers for a key that the first does not have. -/
theorem sget_append_right (m r : Sparse α) (k : Nat) (h : ∀ e ∈ m, e.1 ≠ k) : sget d (m ++ r) k = sget d r k := by
  induction m with
  | nil => rfl
  | cons e m ih =>
    obtain ⟨j, v⟩ := e
    simp only [List.cons_append, sget]
    rw [if_neg (h (j, v) (by simp)), ih fun e he => h e (by simp [he])]

/-- A filter on keys keeps the value at a key that it keeps. -/
theorem sget_filter (m : Sparse α) (p : Nat → Bool) (k : Nat) (h : p k = true) :
    sget d (m.filter fun e => p e.1) k = sget d m k := by
  induction m with
  | nil => rfl
  | cons e m ih =>
    obtain ⟨j, v⟩ := e
    by_cases hj : j = k
    · subst hj; simp [sget, h]
    · by_cases hp : p j = true <;> simp [sget, hj, hp, ih]

variable [DecidableEq α]

theorem cellsOf_keys (vs : List α) (k : Nat) : ∀ e ∈ cellsOf d k vs, k ≤ e.1 ∧ e.1 < k + vs.length := by
  induction vs generalizing k with
  | nil => simp [cellsOf]
  | cons v vs ih =>
    intro e he
    simp only [cellsOf] at he
    split at he
    · have := ih (k + 1) e he
      simp only [List.length_cons]; omega
    · rcases List.mem_cons.1 he with rfl | he
      · simp
      · have := ih (k + 1) e he
        simp only [List.length_cons]; omega

theorem sget_cellsOf (vs : List α) (k i : Nat) (h : i < vs.length) : sget d (cellsOf d k vs) (k + i) = vs[i] := by
  induction vs generalizing k i with
  | nil => simp at h
  | cons v vs ih =>
    cases i with
    | zero =>
      simp only [cellsOf]
      split
      next hv =>
        simp only [List.getElem_cons_zero, Nat.add_zero]
        rw [hv]
        exact sget_absent d _ _ fun e he => by have := cellsOf_keys d vs (k + 1) e he; omega
      next => simp [sget]
    | succ i =>
      have hi : i < vs.length := by simpa using h
      have := ih (k + 1) i hi
      rw [show k + 1 + i = k + (i + 1) by omega] at this
      simp only [cellsOf]
      split
      · simpa using this
      · simp only [sget]; rw [if_neg (by omega)]; simpa using this

/-- A write answers at the keys it covers. -/
theorem sget_splice_in (m : Sparse α) (k i : Nat) (vs : List α) (h : i < vs.length) : sget d (splice d m k vs) (k + i) = vs[i] := by
  unfold splice
  rw [sget_append_left, sget_append_right, sget_cellsOf d vs k i h]
  · intro e he; simp at he; omega
  · intro e he; simp at he; omega

/-- A write leaves every other key. -/
theorem sget_splice_out (m : Sparse α) (k j : Nat) (vs : List α) (h : j < k ∨ k + vs.length ≤ j) : sget d (splice d m k vs) j = sget d m j := by
  have hc : ∀ e ∈ cellsOf d k vs, e.1 ≠ j := fun e he => by have := cellsOf_keys d vs k e he; omega
  unfold splice
  rcases h with h | h
  · rw [sget_append_left, sget_append_left _ _ _ _ hc]
    · exact sget_filter d m (fun e => decide (e < k)) j (by simpa using h)
    · intro e he; simp at he; omega
  · rw [sget_append_right]
    · exact sget_filter d m (fun e => decide (k + vs.length ≤ e)) j (by simpa using h)
    · intro e he
      rcases List.mem_append.1 he with he | he
      · simp at he; omega
      · exact hc e he

theorem sget_sset_self (m : Sparse α) (k : Nat) (v : α) : sget d (sset d m k v) k = v := by
  simpa [sset] using sget_splice_in d m k 0 [v] (by simp)

/-- The later of two values set at one key stands. -/
theorem sset_sset (m : Sparse α) (k : Nat) (v w : α) : sset d (sset d m k v) k w = sset d m k w := by
  have h : ∀ (l : Sparse α) (p : Nat × α → Bool), (∀ e ∈ l, p e = false) → l.filter p = [] := fun l p h =>
    List.filter_eq_nil_iff.2 fun e he => by simp [h e he]
  have c : ∀ e ∈ cellsOf d k [v], e.1 = k := fun e he => by have := cellsOf_keys d [v] k e he; simp at this; omega
  unfold sset splice
  simp only [List.filter_append, List.filter_filter, List.length_singleton]
  rw [h (cellsOf d k [v]) _ fun e he => by simp [c e he], h (cellsOf d k [v]) (fun e => decide (k + 1 ≤ e.1)) fun e he => by simp [c e he]]
  congr 1
  · congr 1
    rw [h m (fun a => decide (a.1 < k) && decide (k + 1 ≤ a.1)) fun e _ => by simp; omega]
    simp
  · rw [h m (fun a => decide (k + 1 ≤ a.1) && decide (a.1 < k)) fun e _ => by simp; omega]
    simp

theorem sget_sset_ne (m : Sparse α) {j k : Nat} (v : α) (h : j ≠ k) : sget d (sset d m k v) j = sget d m j := by
  unfold sset
  exact sget_splice_out d m k j [v] (by simp only [List.length_singleton]; omega)

theorem sget_sset (m : Sparse α) (j k : Nat) (v : α) : sget d (sset d m k v) j = if j = k then v else sget d m j := by
  by_cases h : j = k
  · subst h; simp [sget_sset_self]
  · simp [h, sget_sset_ne d m v h]

/-! ## The canonical form -/

/-- The canonical form is: rising keys, and no default. -/
theorem sparseWf_iff (m : Sparse α) : sparseWf d m = true ↔ m.Pairwise (fun a b => a.1 < b.1) ∧ ∀ e ∈ m, e.2 ≠ d := by
  induction m with
  | nil => simp [sparseWf]
  | cons e m ih =>
    obtain ⟨k, v⟩ := e
    simp only [sparseWf, Bool.and_eq_true, bne_iff_ne, ne_eq, List.all_eq_true, decide_eq_true_eq, ih, List.pairwise_cons,
      List.mem_cons, forall_eq_or_imp]
    exact ⟨fun h => ⟨⟨h.1.2, h.2.1⟩, h.1.1, h.2.2⟩, fun h => ⟨⟨h.2.1, h.1.1⟩, h.1.2, h.2.2⟩⟩

theorem cellsOf_wf (vs : List α) (k : Nat) : sparseWf d (cellsOf d k vs) = true := by
  induction vs generalizing k with
  | nil => rfl
  | cons v vs ih =>
    simp only [cellsOf]
    split
    · exact ih (k + 1)
    next hv =>
      simp only [sparseWf, Bool.and_eq_true, bne_iff_ne, ne_eq, List.all_eq_true, decide_eq_true_eq]
      exact ⟨⟨hv, fun e he => by have := cellsOf_keys d vs (k + 1) e he; omega⟩, ih (k + 1)⟩

/-- A filter keeps the canonical form. -/
theorem sparseWf_filter (m : Sparse α) (p : Nat × α → Bool) (h : sparseWf d m = true) : sparseWf d (m.filter p) = true := by
  rw [sparseWf_iff] at *
  exact ⟨h.1.filter p, fun e he => h.2 e (List.mem_filter.1 he).1⟩

/-- A write keeps the canonical form. -/
theorem splice_wf (m : Sparse α) (k : Nat) (vs : List α) (h : sparseWf d m = true) : sparseWf d (splice d m k vs) = true := by
  have hc := (sparseWf_iff d _).1 (cellsOf_wf d vs k)
  have hm := (sparseWf_iff d _).1 h
  rw [sparseWf_iff]
  unfold splice
  refine ⟨List.pairwise_append.2 ⟨List.pairwise_append.2 ⟨hm.1.filter _, hc.1, ?_⟩, hm.1.filter _, ?_⟩, ?_⟩
  · intro a ha b hb
    have := cellsOf_keys d vs k b hb
    simp at ha; omega
  · intro a ha b hb
    simp only [List.mem_filter, decide_eq_true_eq] at hb
    rcases List.mem_append.1 ha with ha | ha
    · simp at ha; omega
    · have := cellsOf_keys d vs k a ha; omega
  · intro e he
    simp only [List.mem_append, List.mem_filter] at he
    rcases he with (he | he) | he
    · exact hm.2 e he.1
    · exact hc.2 e he
    · exact hm.2 e he.1

theorem sset_wf (m : Sparse α) (k : Nat) (v : α) (h : sparseWf d m = true) : sparseWf d (sset d m k v) = true := splice_wf d m k [v] h

/-- Two maps in canonical form that read alike are the same data. -/
theorem sparse_ext (m r : Sparse α) (hm : sparseWf d m = true) (hr : sparseWf d r = true) (h : ∀ k, sget d m k = sget d r k) : m = r := by
  induction m generalizing r with
  | nil =>
    cases r with
    | nil => rfl
    | cons e r =>
      obtain ⟨k, v⟩ := e
      have hv := ((sparseWf_iff d _).1 hr).2 (k, v) (by simp)
      have := h k
      simp [sget] at this
      exact absurd this.symm hv
  | cons e m ih =>
    obtain ⟨j, v⟩ := e
    have pm := (sparseWf_iff d _).1 hm
    have hv := pm.2 (j, v) (by simp)
    cases r with
    | nil =>
      have := h j
      simp [sget] at this
      exact absurd this hv
    | cons f r =>
      obtain ⟨k, u⟩ := f
      have pr := (sparseWf_iff d _).1 hr
      have hu := pr.2 (k, u) (by simp)
      have tm : sparseWf d m = true := by simp [sparseWf] at hm; exact hm.2
      have tr : sparseWf d r = true := by simp [sparseWf] at hr; exact hr.2
      have am := sget_absent d m j fun e he => by have := (List.pairwise_cons.1 pm.1).1 e he; omega
      have ar := sget_absent d r k fun e he => by have := (List.pairwise_cons.1 pr.1).1 e he; omega
      have hjk : j = k := by
        rcases Nat.lt_trichotomy j k with hlt | he | hlt
        · have h1 := h j
          simp only [sget, if_true] at h1
          rw [if_neg (by omega), sget_absent d r j fun e he => by have := (List.pairwise_cons.1 pr.1).1 e he; omega] at h1
          exact absurd h1 hv
        · exact he
        · have h1 := h k
          simp only [sget, if_true] at h1
          rw [if_neg (by omega), sget_absent d m k fun e he => by have := (List.pairwise_cons.1 pm.1).1 e he; omega] at h1
          exact absurd h1.symm hu
      subst hjk
      have hvu : v = u := by simpa [sget] using h j
      subst hvu
      congr 1
      apply ih r tm tr
      intro i
      by_cases hi : j = i
      · subst hi; rw [am, ar]
      · simpa [sget, hi] using h i

/-! ## Memories -/

/-- The byte at an address after a store. -/
theorem sget_mwrite_in (m : Mem) (a i : Nat) (bs : List Byte) (h : i < bs.length) : sget 0#8 (mwrite m a bs) (a + i) = bs[i] :=
  sget_splice_in _ m a i bs h

/-- A store leaves every byte outside it. -/
theorem sget_mwrite_out (m : Mem) (a j : Nat) (bs : List Byte) (h : j < a ∨ a + bs.length ≤ j) : sget 0#8 (mwrite m a bs) j = sget 0#8 m j :=
  sget_splice_out _ m a j bs h

/-- A read gives back what a store wrote. -/
theorem mread_mwrite (m : Mem) (a : Nat) (bs : List Byte) : mread (mwrite m a bs) a bs.length = bs := by
  apply List.ext_getElem
  · simp [mread]
  · intro i h1 h2
    simp [mread, sget_mwrite_in m a i bs h2]

/-- A read elsewhere is as before. -/
theorem mread_mwrite_out (m : Mem) (a b n : Nat) (bs : List Byte) (h : b + n ≤ a ∨ a + bs.length ≤ b) :
    mread (mwrite m a bs) b n = mread m b n := by
  simp only [mread]
  apply List.map_congr_left
  intro i hi
  exact sget_mwrite_out m a (b + i) bs (by have := List.mem_range.1 hi; omega)

theorem mwrite_wf (m : Mem) (a : Nat) (bs : List Byte) (h : memWf m = true) : memWf (mwrite m a bs) = true := splice_wf _ m a bs h

theorem mclear_wf (m : Mem) (a n : Nat) (h : memWf m = true) : memWf (mclear m a n) = true := sparseWf_filter _ m _ h

/-- Cleared bytes read zero, the others as before. -/
theorem sget_mclear (m : Mem) (a n j : Nat) : sget 0#8 (mclear m a n) j = if a ≤ j ∧ j < a + n then 0#8 else sget 0#8 m j := by
  unfold mclear
  split
  next h => exact sget_absent _ _ _ fun e he => by simp at he; omega
  next h =>
    exact sget_filter _ m (fun k => decide (k < a) || decide (a + n ≤ k)) j (by simp; omega)

end Sys2Proof.Machine
end

