-- ==== Sys2Proof/Laws/State.lean ====
section
/-! SUPPORT. Every update of the state beside every field: what it leaves, and what it sets. -/

namespace Sys2Proof.Machine

variable (s : State)

/-! ### setCtx -/

@[simp] theorem setCtx_pending (c : Nat) (x : Ctx) : (setCtx s c x).pending = s.pending := rfl
@[simp] theorem setCtx_fclk (c : Nat) (x : Ctx) : (setCtx s c x).fclk = s.fclk := rfl
@[simp] theorem setCtx_fuse (c : Nat) (x : Ctx) : (setCtx s c x).fuse = s.fuse := rfl
@[simp] theorem setCtx_free (c : Nat) (x : Ctx) : (setCtx s c x).free = s.free := rfl
@[simp] theorem setCtx_power (c : Nat) (x : Ctx) : (setCtx s c x).power = s.power := rfl
@[simp] theorem setCtx_boot (c : Nat) (x : Ctx) : (setCtx s c x).boot = s.boot := rfl
@[simp] theorem setCtx_clk (c : Nat) (x : Ctx) : (setCtx s c x).clk = s.clk := rfl
@[simp] theorem setCtx_health (c : Nat) (x : Ctx) : (setCtx s c x).health = s.health := rfl
@[simp] theorem setCtx_wings (c : Nat) (x : Ctx) : (setCtx s c x).wings = s.wings := rfl
@[simp] theorem setCtx_pchans (c : Nat) (x : Ctx) : (setCtx s c x).pchans = s.pchans := rfl
@[simp] theorem setCtx_hbm (c : Nat) (x : Ctx) : (setCtx s c x).hbm = s.hbm := rfl
@[simp] theorem setCtx_hbmBad (c : Nat) (x : Ctx) : (setCtx s c x).hbmBad = s.hbmBad := rfl
@[simp] theorem setCtx_dict (c : Nat) (x : Ctx) : (setCtx s c x).dict = s.dict := rfl
@[simp] theorem setCtx_cus (c : Nat) (x : Ctx) : (setCtx s c x).cus = s.cus := rfl
@[simp] theorem setCtx_mus (c : Nat) (x : Ctx) : (setCtx s c x).mus = s.mus := rfl
@[simp] theorem setCtx_sws (c : Nat) (x : Ctx) : (setCtx s c x).sws = s.sws := rfl
@[simp] theorem setCtx_wires (c : Nat) (x : Ctx) : (setCtx s c x).wires = s.wires := rfl
@[simp] theorem setCtx_credits (c : Nat) (x : Ctx) : (setCtx s c x).credits = s.credits := rfl
@[simp] theorem setCtx_ring (c : Nat) (x : Ctx) : (setCtx s c x).ring = s.ring := rfl
@[simp] theorem setCtx_gridIn (c : Nat) (x : Ctx) : (setCtx s c x).gridIn = s.gridIn := rfl
@[simp] theorem setCtx_ctl (c : Nat) (x : Ctx) : (setCtx s c x).ctl = s.ctl := rfl
@[simp] theorem setCtx_mesh (c : Nat) (x : Ctx) : (setCtx s c x).mesh = s.mesh := rfl
@[simp] theorem setCtx_flying (c : Nat) (x : Ctx) : (setCtx s c x).flying = s.flying := rfl
@[simp] theorem setCtx_terms (c : Nat) (x : Ctx) : (setCtx s c x).terms = s.terms := rfl
@[simp] theorem setCtx_hosts (c : Nat) (x : Ctx) : (setCtx s c x).hosts = s.hosts := rfl
@[simp] theorem setCtx_conns (c : Nat) (x : Ctx) : (setCtx s c x).conns = s.conns := rfl
@[simp] theorem setCtx_queues (c : Nat) (x : Ctx) : (setCtx s c x).queues = s.queues := rfl
@[simp] theorem setCtx_mwins (c : Nat) (x : Ctx) : (setCtx s c x).mwins = s.mwins := rfl
@[simp] theorem setCtx_objs (c : Nat) (x : Ctx) : (setCtx s c x).objs = s.objs := rfl
@[simp] theorem setCtx_rdmas (c : Nat) (x : Ctx) : (setCtx s c x).rdmas = s.rdmas := rfl
@[simp] theorem setCtx_lease (c : Nat) (x : Ctx) : (setCtx s c x).lease = s.lease := rfl
@[simp] theorem setCtx_hlink (c : Nat) (x : Ctx) : (setCtx s c x).hlink = s.hlink := rfl
@[simp] theorem setCtx_ptp (c : Nat) (x : Ctx) : (setCtx s c x).ptp = s.ptp := rfl
@[simp] theorem setCtx_ecatLink (c : Nat) (x : Ctx) : (setCtx s c x).ecatLink = s.ecatLink := rfl
@[simp] theorem setCtx_sampled (c : Nat) (x : Ctx) : (setCtx s c x).sampled = s.sampled := rfl
@[simp] theorem setCtx_gates (c : Nat) (x : Ctx) : (setCtx s c x).gates = s.gates := rfl
@[simp] theorem setCtx_srcs (c : Nat) (x : Ctx) : (setCtx s c x).srcs = s.srcs := rfl
@[simp] theorem setCtx_bell (c : Nat) (x : Ctx) : (setCtx s c x).bell = s.bell := rfl
@[simp] theorem setCtx_entries (c : Nat) (x : Ctx) : (setCtx s c x).entries = s.entries := rfl
@[simp] theorem setCtx_tts (c : Nat) (x : Ctx) : (setCtx s c x).tts = s.tts := rfl
@[simp] theorem setCtx_due (c : Nat) (x : Ctx) : (setCtx s c x).due = s.due := rfl
@[simp] theorem setCtx_tports (c : Nat) (x : Ctx) : (setCtx s c x).tports = s.tports := rfl
@[simp] theorem setCtx_chans (c : Nat) (x : Ctx) : (setCtx s c x).chans = s.chans := rfl
@[simp] theorem setCtx_roll (c : Nat) (x : Ctx) : (setCtx s c x).roll = s.roll := rfl
@[simp] theorem setCtx_attest (c : Nat) (x : Ctx) : (setCtx s c x).attest = s.attest := rfl
@[simp] theorem setCtx_sramErr (c : Nat) (x : Ctx) : (setCtx s c x).sramErr = s.sramErr := rfl
@[simp] theorem setCtx_linkCe (c : Nat) (x : Ctx) : (setCtx s c x).linkCe = s.linkCe := rfl
@[simp] theorem setCtx_scan (c : Nat) (x : Ctx) : (setCtx s c x).scan = s.scan := rfl
@[simp] theorem setCtx_out (c : Nat) (x : Ctx) : (setCtx s c x).out = s.out := rfl
@[simp] theorem setCtx_ctxs (c : Nat) (x : Ctx) : (setCtx s c x).ctxs = sset Ctx.free s.ctxs c x := rfl
@[simp] theorem ctxOf_setCtx (c : Nat) (x : Ctx) : ctxOf (setCtx s c x) c = x := sget_sset_self ..
theorem ctxOf_setCtx_ne {c j : Nat} (h : j ≠ c) (x : Ctx) : ctxOf (setCtx s c x) j = ctxOf s j := sget_sset_ne _ _ _ h

/-! ### setCu -/

@[simp] theorem setCu_pending (k : Nat) (x : CU) : (setCu s k x).pending = s.pending := rfl
@[simp] theorem setCu_fclk (k : Nat) (x : CU) : (setCu s k x).fclk = s.fclk := rfl
@[simp] theorem setCu_fuse (k : Nat) (x : CU) : (setCu s k x).fuse = s.fuse := rfl
@[simp] theorem setCu_free (k : Nat) (x : CU) : (setCu s k x).free = s.free := rfl
@[simp] theorem setCu_power (k : Nat) (x : CU) : (setCu s k x).power = s.power := rfl
@[simp] theorem setCu_boot (k : Nat) (x : CU) : (setCu s k x).boot = s.boot := rfl
@[simp] theorem setCu_clk (k : Nat) (x : CU) : (setCu s k x).clk = s.clk := rfl
@[simp] theorem setCu_health (k : Nat) (x : CU) : (setCu s k x).health = s.health := rfl
@[simp] theorem setCu_wings (k : Nat) (x : CU) : (setCu s k x).wings = s.wings := rfl
@[simp] theorem setCu_pchans (k : Nat) (x : CU) : (setCu s k x).pchans = s.pchans := rfl
@[simp] theorem setCu_hbm (k : Nat) (x : CU) : (setCu s k x).hbm = s.hbm := rfl
@[simp] theorem setCu_hbmBad (k : Nat) (x : CU) : (setCu s k x).hbmBad = s.hbmBad := rfl
@[simp] theorem setCu_dict (k : Nat) (x : CU) : (setCu s k x).dict = s.dict := rfl
@[simp] theorem setCu_ctxs (k : Nat) (x : CU) : (setCu s k x).ctxs = s.ctxs := rfl
@[simp] theorem setCu_mus (k : Nat) (x : CU) : (setCu s k x).mus = s.mus := rfl
@[simp] theorem setCu_sws (k : Nat) (x : CU) : (setCu s k x).sws = s.sws := rfl
@[simp] theorem setCu_wires (k : Nat) (x : CU) : (setCu s k x).wires = s.wires := rfl
@[simp] theorem setCu_credits (k : Nat) (x : CU) : (setCu s k x).credits = s.credits := rfl
@[simp] theorem setCu_ring (k : Nat) (x : CU) : (setCu s k x).ring = s.ring := rfl
@[simp] theorem setCu_gridIn (k : Nat) (x : CU) : (setCu s k x).gridIn = s.gridIn := rfl
@[simp] theorem setCu_ctl (k : Nat) (x : CU) : (setCu s k x).ctl = s.ctl := rfl
@[simp] theorem setCu_mesh (k : Nat) (x : CU) : (setCu s k x).mesh = s.mesh := rfl
@[simp] theorem setCu_flying (k : Nat) (x : CU) : (setCu s k x).flying = s.flying := rfl
@[simp] theorem setCu_terms (k : Nat) (x : CU) : (setCu s k x).terms = s.terms := rfl
@[simp] theorem setCu_hosts (k : Nat) (x : CU) : (setCu s k x).hosts = s.hosts := rfl
@[simp] theorem setCu_conns (k : Nat) (x : CU) : (setCu s k x).conns = s.conns := rfl
@[simp] theorem setCu_queues (k : Nat) (x : CU) : (setCu s k x).queues = s.queues := rfl
@[simp] theorem setCu_mwins (k : Nat) (x : CU) : (setCu s k x).mwins = s.mwins := rfl
@[simp] theorem setCu_objs (k : Nat) (x : CU) : (setCu s k x).objs = s.objs := rfl
@[simp] theorem setCu_rdmas (k : Nat) (x : CU) : (setCu s k x).rdmas = s.rdmas := rfl
@[simp] theorem setCu_lease (k : Nat) (x : CU) : (setCu s k x).lease = s.lease := rfl
@[simp] theorem setCu_hlink (k : Nat) (x : CU) : (setCu s k x).hlink = s.hlink := rfl
@[simp] theorem setCu_ptp (k : Nat) (x : CU) : (setCu s k x).ptp = s.ptp := rfl
@[simp] theorem setCu_ecatLink (k : Nat) (x : CU) : (setCu s k x).ecatLink = s.ecatLink := rfl
@[simp] theorem setCu_sampled (k : Nat) (x : CU) : (setCu s k x).sampled = s.sampled := rfl
@[simp] theorem setCu_gates (k : Nat) (x : CU) : (setCu s k x).gates = s.gates := rfl
@[simp] theorem setCu_srcs (k : Nat) (x : CU) : (setCu s k x).srcs = s.srcs := rfl
@[simp] theorem setCu_bell (k : Nat) (x : CU) : (setCu s k x).bell = s.bell := rfl
@[simp] theorem setCu_entries (k : Nat) (x : CU) : (setCu s k x).entries = s.entries := rfl
@[simp] theorem setCu_tts (k : Nat) (x : CU) : (setCu s k x).tts = s.tts := rfl
@[simp] theorem setCu_due (k : Nat) (x : CU) : (setCu s k x).due = s.due := rfl
@[simp] theorem setCu_tports (k : Nat) (x : CU) : (setCu s k x).tports = s.tports := rfl
@[simp] theorem setCu_chans (k : Nat) (x : CU) : (setCu s k x).chans = s.chans := rfl
@[simp] theorem setCu_roll (k : Nat) (x : CU) : (setCu s k x).roll = s.roll := rfl
@[simp] theorem setCu_attest (k : Nat) (x : CU) : (setCu s k x).attest = s.attest := rfl
@[simp] theorem setCu_sramErr (k : Nat) (x : CU) : (setCu s k x).sramErr = s.sramErr := rfl
@[simp] theorem setCu_linkCe (k : Nat) (x : CU) : (setCu s k x).linkCe = s.linkCe := rfl
@[simp] theorem setCu_scan (k : Nat) (x : CU) : (setCu s k x).scan = s.scan := rfl
@[simp] theorem setCu_out (k : Nat) (x : CU) : (setCu s k x).out = s.out := rfl
@[simp] theorem setCu_cus (k : Nat) (x : CU) : (setCu s k x).cus = sset CU.idle s.cus k x := rfl
@[simp] theorem cuOf_setCu (k : Nat) (x : CU) : cuOf (setCu s k x) k = x := sget_sset_self ..
theorem cuOf_setCu_ne {k j : Nat} (h : j ≠ k) (x : CU) : cuOf (setCu s k x) j = cuOf s j := sget_sset_ne _ _ _ h

/-! ### setMu -/

@[simp] theorem setMu_pending (k : Nat) (x : MU) : (setMu s k x).pending = s.pending := rfl
@[simp] theorem setMu_fclk (k : Nat) (x : MU) : (setMu s k x).fclk = s.fclk := rfl
@[simp] theorem setMu_fuse (k : Nat) (x : MU) : (setMu s k x).fuse = s.fuse := rfl
@[simp] theorem setMu_free (k : Nat) (x : MU) : (setMu s k x).free = s.free := rfl
@[simp] theorem setMu_power (k : Nat) (x : MU) : (setMu s k x).power = s.power := rfl
@[simp] theorem setMu_boot (k : Nat) (x : MU) : (setMu s k x).boot = s.boot := rfl
@[simp] theorem setMu_clk (k : Nat) (x : MU) : (setMu s k x).clk = s.clk := rfl
@[simp] theorem setMu_health (k : Nat) (x : MU) : (setMu s k x).health = s.health := rfl
@[simp] theorem setMu_wings (k : Nat) (x : MU) : (setMu s k x).wings = s.wings := rfl
@[simp] theorem setMu_pchans (k : Nat) (x : MU) : (setMu s k x).pchans = s.pchans := rfl
@[simp] theorem setMu_hbm (k : Nat) (x : MU) : (setMu s k x).hbm = s.hbm := rfl
@[simp] theorem setMu_hbmBad (k : Nat) (x : MU) : (setMu s k x).hbmBad = s.hbmBad := rfl
@[simp] theorem setMu_dict (k : Nat) (x : MU) : (setMu s k x).dict = s.dict := rfl
@[simp] theorem setMu_ctxs (k : Nat) (x : MU) : (setMu s k x).ctxs = s.ctxs := rfl
@[simp] theorem setMu_cus (k : Nat) (x : MU) : (setMu s k x).cus = s.cus := rfl
@[simp] theorem setMu_sws (k : Nat) (x : MU) : (setMu s k x).sws = s.sws := rfl
@[simp] theorem setMu_wires (k : Nat) (x : MU) : (setMu s k x).wires = s.wires := rfl
@[simp] theorem setMu_credits (k : Nat) (x : MU) : (setMu s k x).credits = s.credits := rfl
@[simp] theorem setMu_ring (k : Nat) (x : MU) : (setMu s k x).ring = s.ring := rfl
@[simp] theorem setMu_gridIn (k : Nat) (x : MU) : (setMu s k x).gridIn = s.gridIn := rfl
@[simp] theorem setMu_ctl (k : Nat) (x : MU) : (setMu s k x).ctl = s.ctl := rfl
@[simp] theorem setMu_mesh (k : Nat) (x : MU) : (setMu s k x).mesh = s.mesh := rfl
@[simp] theorem setMu_flying (k : Nat) (x : MU) : (setMu s k x).flying = s.flying := rfl
@[simp] theorem setMu_terms (k : Nat) (x : MU) : (setMu s k x).terms = s.terms := rfl
@[simp] theorem setMu_hosts (k : Nat) (x : MU) : (setMu s k x).hosts = s.hosts := rfl
@[simp] theorem setMu_conns (k : Nat) (x : MU) : (setMu s k x).conns = s.conns := rfl
@[simp] theorem setMu_queues (k : Nat) (x : MU) : (setMu s k x).queues = s.queues := rfl
@[simp] theorem setMu_mwins (k : Nat) (x : MU) : (setMu s k x).mwins = s.mwins := rfl
@[simp] theorem setMu_objs (k : Nat) (x : MU) : (setMu s k x).objs = s.objs := rfl
@[simp] theorem setMu_rdmas (k : Nat) (x : MU) : (setMu s k x).rdmas = s.rdmas := rfl
@[simp] theorem setMu_lease (k : Nat) (x : MU) : (setMu s k x).lease = s.lease := rfl
@[simp] theorem setMu_hlink (k : Nat) (x : MU) : (setMu s k x).hlink = s.hlink := rfl
@[simp] theorem setMu_ptp (k : Nat) (x : MU) : (setMu s k x).ptp = s.ptp := rfl
@[simp] theorem setMu_ecatLink (k : Nat) (x : MU) : (setMu s k x).ecatLink = s.ecatLink := rfl
@[simp] theorem setMu_sampled (k : Nat) (x : MU) : (setMu s k x).sampled = s.sampled := rfl
@[simp] theorem setMu_gates (k : Nat) (x : MU) : (setMu s k x).gates = s.gates := rfl
@[simp] theorem setMu_srcs (k : Nat) (x : MU) : (setMu s k x).srcs = s.srcs := rfl
@[simp] theorem setMu_bell (k : Nat) (x : MU) : (setMu s k x).bell = s.bell := rfl
@[simp] theorem setMu_entries (k : Nat) (x : MU) : (setMu s k x).entries = s.entries := rfl
@[simp] theorem setMu_tts (k : Nat) (x : MU) : (setMu s k x).tts = s.tts := rfl
@[simp] theorem setMu_due (k : Nat) (x : MU) : (setMu s k x).due = s.due := rfl
@[simp] theorem setMu_tports (k : Nat) (x : MU) : (setMu s k x).tports = s.tports := rfl
@[simp] theorem setMu_chans (k : Nat) (x : MU) : (setMu s k x).chans = s.chans := rfl
@[simp] theorem setMu_roll (k : Nat) (x : MU) : (setMu s k x).roll = s.roll := rfl
@[simp] theorem setMu_attest (k : Nat) (x : MU) : (setMu s k x).attest = s.attest := rfl
@[simp] theorem setMu_sramErr (k : Nat) (x : MU) : (setMu s k x).sramErr = s.sramErr := rfl
@[simp] theorem setMu_linkCe (k : Nat) (x : MU) : (setMu s k x).linkCe = s.linkCe := rfl
@[simp] theorem setMu_scan (k : Nat) (x : MU) : (setMu s k x).scan = s.scan := rfl
@[simp] theorem setMu_out (k : Nat) (x : MU) : (setMu s k x).out = s.out := rfl
@[simp] theorem setMu_mus (k : Nat) (x : MU) : (setMu s k x).mus = sset MU.idle s.mus k x := rfl
@[simp] theorem muOf_setMu (k : Nat) (x : MU) : muOf (setMu s k x) k = x := sget_sset_self ..
theorem muOf_setMu_ne {k j : Nat} (h : j ≠ k) (x : MU) : muOf (setMu s k x) j = muOf s j := sget_sset_ne _ _ _ h

/-! ### setSw -/

@[simp] theorem setSw_pending (k : Nat) (x : Switch) : (setSw s k x).pending = s.pending := rfl
@[simp] theorem setSw_fclk (k : Nat) (x : Switch) : (setSw s k x).fclk = s.fclk := rfl
@[simp] theorem setSw_fuse (k : Nat) (x : Switch) : (setSw s k x).fuse = s.fuse := rfl
@[simp] theorem setSw_free (k : Nat) (x : Switch) : (setSw s k x).free = s.free := rfl
@[simp] theorem setSw_power (k : Nat) (x : Switch) : (setSw s k x).power = s.power := rfl
@[simp] theorem setSw_boot (k : Nat) (x : Switch) : (setSw s k x).boot = s.boot := rfl
@[simp] theorem setSw_clk (k : Nat) (x : Switch) : (setSw s k x).clk = s.clk := rfl
@[simp] theorem setSw_health (k : Nat) (x : Switch) : (setSw s k x).health = s.health := rfl
@[simp] theorem setSw_wings (k : Nat) (x : Switch) : (setSw s k x).wings = s.wings := rfl
@[simp] theorem setSw_pchans (k : Nat) (x : Switch) : (setSw s k x).pchans = s.pchans := rfl
@[simp] theorem setSw_hbm (k : Nat) (x : Switch) : (setSw s k x).hbm = s.hbm := rfl
@[simp] theorem setSw_hbmBad (k : Nat) (x : Switch) : (setSw s k x).hbmBad = s.hbmBad := rfl
@[simp] theorem setSw_dict (k : Nat) (x : Switch) : (setSw s k x).dict = s.dict := rfl
@[simp] theorem setSw_ctxs (k : Nat) (x : Switch) : (setSw s k x).ctxs = s.ctxs := rfl
@[simp] theorem setSw_cus (k : Nat) (x : Switch) : (setSw s k x).cus = s.cus := rfl
@[simp] theorem setSw_mus (k : Nat) (x : Switch) : (setSw s k x).mus = s.mus := rfl
@[simp] theorem setSw_wires (k : Nat) (x : Switch) : (setSw s k x).wires = s.wires := rfl
@[simp] theorem setSw_credits (k : Nat) (x : Switch) : (setSw s k x).credits = s.credits := rfl
@[simp] theorem setSw_ring (k : Nat) (x : Switch) : (setSw s k x).ring = s.ring := rfl
@[simp] theorem setSw_gridIn (k : Nat) (x : Switch) : (setSw s k x).gridIn = s.gridIn := rfl
@[simp] theorem setSw_ctl (k : Nat) (x : Switch) : (setSw s k x).ctl = s.ctl := rfl
@[simp] theorem setSw_mesh (k : Nat) (x : Switch) : (setSw s k x).mesh = s.mesh := rfl
@[simp] theorem setSw_flying (k : Nat) (x : Switch) : (setSw s k x).flying = s.flying := rfl
@[simp] theorem setSw_terms (k : Nat) (x : Switch) : (setSw s k x).terms = s.terms := rfl
@[simp] theorem setSw_hosts (k : Nat) (x : Switch) : (setSw s k x).hosts = s.hosts := rfl
@[simp] theorem setSw_conns (k : Nat) (x : Switch) : (setSw s k x).conns = s.conns := rfl
@[simp] theorem setSw_queues (k : Nat) (x : Switch) : (setSw s k x).queues = s.queues := rfl
@[simp] theorem setSw_mwins (k : Nat) (x : Switch) : (setSw s k x).mwins = s.mwins := rfl
@[simp] theorem setSw_objs (k : Nat) (x : Switch) : (setSw s k x).objs = s.objs := rfl
@[simp] theorem setSw_rdmas (k : Nat) (x : Switch) : (setSw s k x).rdmas = s.rdmas := rfl
@[simp] theorem setSw_lease (k : Nat) (x : Switch) : (setSw s k x).lease = s.lease := rfl
@[simp] theorem setSw_hlink (k : Nat) (x : Switch) : (setSw s k x).hlink = s.hlink := rfl
@[simp] theorem setSw_ptp (k : Nat) (x : Switch) : (setSw s k x).ptp = s.ptp := rfl
@[simp] theorem setSw_ecatLink (k : Nat) (x : Switch) : (setSw s k x).ecatLink = s.ecatLink := rfl
@[simp] theorem setSw_sampled (k : Nat) (x : Switch) : (setSw s k x).sampled = s.sampled := rfl
@[simp] theorem setSw_gates (k : Nat) (x : Switch) : (setSw s k x).gates = s.gates := rfl
@[simp] theorem setSw_srcs (k : Nat) (x : Switch) : (setSw s k x).srcs = s.srcs := rfl
@[simp] theorem setSw_bell (k : Nat) (x : Switch) : (setSw s k x).bell = s.bell := rfl
@[simp] theorem setSw_entries (k : Nat) (x : Switch) : (setSw s k x).entries = s.entries := rfl
@[simp] theorem setSw_tts (k : Nat) (x : Switch) : (setSw s k x).tts = s.tts := rfl
@[simp] theorem setSw_due (k : Nat) (x : Switch) : (setSw s k x).due = s.due := rfl
@[simp] theorem setSw_tports (k : Nat) (x : Switch) : (setSw s k x).tports = s.tports := rfl
@[simp] theorem setSw_chans (k : Nat) (x : Switch) : (setSw s k x).chans = s.chans := rfl
@[simp] theorem setSw_roll (k : Nat) (x : Switch) : (setSw s k x).roll = s.roll := rfl
@[simp] theorem setSw_attest (k : Nat) (x : Switch) : (setSw s k x).attest = s.attest := rfl
@[simp] theorem setSw_sramErr (k : Nat) (x : Switch) : (setSw s k x).sramErr = s.sramErr := rfl
@[simp] theorem setSw_linkCe (k : Nat) (x : Switch) : (setSw s k x).linkCe = s.linkCe := rfl
@[simp] theorem setSw_scan (k : Nat) (x : Switch) : (setSw s k x).scan = s.scan := rfl
@[simp] theorem setSw_out (k : Nat) (x : Switch) : (setSw s k x).out = s.out := rfl
@[simp] theorem setSw_sws (k : Nat) (x : Switch) : (setSw s k x).sws = sset Switch.idle s.sws k x := rfl
@[simp] theorem swOf_setSw (k : Nat) (x : Switch) : swOf (setSw s k x) k = x := sget_sset_self ..
theorem swOf_setSw_ne {k j : Nat} (h : j ≠ k) (x : Switch) : swOf (setSw s k x) j = swOf s j := sget_sset_ne _ _ _ h

/-! ### setObj -/

@[simp] theorem setObj_pending (o : Nat) (x : Obj) : (setObj s o x).pending = s.pending := rfl
@[simp] theorem setObj_fclk (o : Nat) (x : Obj) : (setObj s o x).fclk = s.fclk := rfl
@[simp] theorem setObj_fuse (o : Nat) (x : Obj) : (setObj s o x).fuse = s.fuse := rfl
@[simp] theorem setObj_free (o : Nat) (x : Obj) : (setObj s o x).free = s.free := rfl
@[simp] theorem setObj_power (o : Nat) (x : Obj) : (setObj s o x).power = s.power := rfl
@[simp] theorem setObj_boot (o : Nat) (x : Obj) : (setObj s o x).boot = s.boot := rfl
@[simp] theorem setObj_clk (o : Nat) (x : Obj) : (setObj s o x).clk = s.clk := rfl
@[simp] theorem setObj_health (o : Nat) (x : Obj) : (setObj s o x).health = s.health := rfl
@[simp] theorem setObj_wings (o : Nat) (x : Obj) : (setObj s o x).wings = s.wings := rfl
@[simp] theorem setObj_pchans (o : Nat) (x : Obj) : (setObj s o x).pchans = s.pchans := rfl
@[simp] theorem setObj_hbm (o : Nat) (x : Obj) : (setObj s o x).hbm = s.hbm := rfl
@[simp] theorem setObj_hbmBad (o : Nat) (x : Obj) : (setObj s o x).hbmBad = s.hbmBad := rfl
@[simp] theorem setObj_dict (o : Nat) (x : Obj) : (setObj s o x).dict = s.dict := rfl
@[simp] theorem setObj_ctxs (o : Nat) (x : Obj) : (setObj s o x).ctxs = s.ctxs := rfl
@[simp] theorem setObj_cus (o : Nat) (x : Obj) : (setObj s o x).cus = s.cus := rfl
@[simp] theorem setObj_mus (o : Nat) (x : Obj) : (setObj s o x).mus = s.mus := rfl
@[simp] theorem setObj_sws (o : Nat) (x : Obj) : (setObj s o x).sws = s.sws := rfl
@[simp] theorem setObj_wires (o : Nat) (x : Obj) : (setObj s o x).wires = s.wires := rfl
@[simp] theorem setObj_credits (o : Nat) (x : Obj) : (setObj s o x).credits = s.credits := rfl
@[simp] theorem setObj_ring (o : Nat) (x : Obj) : (setObj s o x).ring = s.ring := rfl
@[simp] theorem setObj_gridIn (o : Nat) (x : Obj) : (setObj s o x).gridIn = s.gridIn := rfl
@[simp] theorem setObj_ctl (o : Nat) (x : Obj) : (setObj s o x).ctl = s.ctl := rfl
@[simp] theorem setObj_mesh (o : Nat) (x : Obj) : (setObj s o x).mesh = s.mesh := rfl
@[simp] theorem setObj_flying (o : Nat) (x : Obj) : (setObj s o x).flying = s.flying := rfl
@[simp] theorem setObj_terms (o : Nat) (x : Obj) : (setObj s o x).terms = s.terms := rfl
@[simp] theorem setObj_hosts (o : Nat) (x : Obj) : (setObj s o x).hosts = s.hosts := rfl
@[simp] theorem setObj_conns (o : Nat) (x : Obj) : (setObj s o x).conns = s.conns := rfl
@[simp] theorem setObj_queues (o : Nat) (x : Obj) : (setObj s o x).queues = s.queues := rfl
@[simp] theorem setObj_mwins (o : Nat) (x : Obj) : (setObj s o x).mwins = s.mwins := rfl
@[simp] theorem setObj_rdmas (o : Nat) (x : Obj) : (setObj s o x).rdmas = s.rdmas := rfl
@[simp] theorem setObj_lease (o : Nat) (x : Obj) : (setObj s o x).lease = s.lease := rfl
@[simp] theorem setObj_hlink (o : Nat) (x : Obj) : (setObj s o x).hlink = s.hlink := rfl
@[simp] theorem setObj_ptp (o : Nat) (x : Obj) : (setObj s o x).ptp = s.ptp := rfl
@[simp] theorem setObj_ecatLink (o : Nat) (x : Obj) : (setObj s o x).ecatLink = s.ecatLink := rfl
@[simp] theorem setObj_sampled (o : Nat) (x : Obj) : (setObj s o x).sampled = s.sampled := rfl
@[simp] theorem setObj_gates (o : Nat) (x : Obj) : (setObj s o x).gates = s.gates := rfl
@[simp] theorem setObj_srcs (o : Nat) (x : Obj) : (setObj s o x).srcs = s.srcs := rfl
@[simp] theorem setObj_bell (o : Nat) (x : Obj) : (setObj s o x).bell = s.bell := rfl
@[simp] theorem setObj_entries (o : Nat) (x : Obj) : (setObj s o x).entries = s.entries := rfl
@[simp] theorem setObj_tts (o : Nat) (x : Obj) : (setObj s o x).tts = s.tts := rfl
@[simp] theorem setObj_due (o : Nat) (x : Obj) : (setObj s o x).due = s.due := rfl
@[simp] theorem setObj_tports (o : Nat) (x : Obj) : (setObj s o x).tports = s.tports := rfl
@[simp] theorem setObj_chans (o : Nat) (x : Obj) : (setObj s o x).chans = s.chans := rfl
@[simp] theorem setObj_roll (o : Nat) (x : Obj) : (setObj s o x).roll = s.roll := rfl
@[simp] theorem setObj_attest (o : Nat) (x : Obj) : (setObj s o x).attest = s.attest := rfl
@[simp] theorem setObj_sramErr (o : Nat) (x : Obj) : (setObj s o x).sramErr = s.sramErr := rfl
@[simp] theorem setObj_linkCe (o : Nat) (x : Obj) : (setObj s o x).linkCe = s.linkCe := rfl
@[simp] theorem setObj_scan (o : Nat) (x : Obj) : (setObj s o x).scan = s.scan := rfl
@[simp] theorem setObj_out (o : Nat) (x : Obj) : (setObj s o x).out = s.out := rfl
@[simp] theorem setObj_objs (o : Nat) (x : Obj) : (setObj s o x).objs = sset Obj.none s.objs o x := rfl
@[simp] theorem objOf_setObj (o : Nat) (x : Obj) : objOf (setObj s o x) o = x := sget_sset_self ..
theorem objOf_setObj_ne {o j : Nat} (h : j ≠ o) (x : Obj) : objOf (setObj s o x) j = objOf s j := sget_sset_ne _ _ _ h

/-! ### setQueue -/

@[simp] theorem setQueue_pending (q : Nat) (x : Queue) : (setQueue s q x).pending = s.pending := rfl
@[simp] theorem setQueue_fclk (q : Nat) (x : Queue) : (setQueue s q x).fclk = s.fclk := rfl
@[simp] theorem setQueue_fuse (q : Nat) (x : Queue) : (setQueue s q x).fuse = s.fuse := rfl
@[simp] theorem setQueue_free (q : Nat) (x : Queue) : (setQueue s q x).free = s.free := rfl
@[simp] theorem setQueue_power (q : Nat) (x : Queue) : (setQueue s q x).power = s.power := rfl
@[simp] theorem setQueue_boot (q : Nat) (x : Queue) : (setQueue s q x).boot = s.boot := rfl
@[simp] theorem setQueue_clk (q : Nat) (x : Queue) : (setQueue s q x).clk = s.clk := rfl
@[simp] theorem setQueue_health (q : Nat) (x : Queue) : (setQueue s q x).health = s.health := rfl
@[simp] theorem setQueue_wings (q : Nat) (x : Queue) : (setQueue s q x).wings = s.wings := rfl
@[simp] theorem setQueue_pchans (q : Nat) (x : Queue) : (setQueue s q x).pchans = s.pchans := rfl
@[simp] theorem setQueue_hbm (q : Nat) (x : Queue) : (setQueue s q x).hbm = s.hbm := rfl
@[simp] theorem setQueue_hbmBad (q : Nat) (x : Queue) : (setQueue s q x).hbmBad = s.hbmBad := rfl
@[simp] theorem setQueue_dict (q : Nat) (x : Queue) : (setQueue s q x).dict = s.dict := rfl
@[simp] theorem setQueue_ctxs (q : Nat) (x : Queue) : (setQueue s q x).ctxs = s.ctxs := rfl
@[simp] theorem setQueue_cus (q : Nat) (x : Queue) : (setQueue s q x).cus = s.cus := rfl
@[simp] theorem setQueue_mus (q : Nat) (x : Queue) : (setQueue s q x).mus = s.mus := rfl
@[simp] theorem setQueue_sws (q : Nat) (x : Queue) : (setQueue s q x).sws = s.sws := rfl
@[simp] theorem setQueue_wires (q : Nat) (x : Queue) : (setQueue s q x).wires = s.wires := rfl
@[simp] theorem setQueue_credits (q : Nat) (x : Queue) : (setQueue s q x).credits = s.credits := rfl
@[simp] theorem setQueue_ring (q : Nat) (x : Queue) : (setQueue s q x).ring = s.ring := rfl
@[simp] theorem setQueue_gridIn (q : Nat) (x : Queue) : (setQueue s q x).gridIn = s.gridIn := rfl
@[simp] theorem setQueue_ctl (q : Nat) (x : Queue) : (setQueue s q x).ctl = s.ctl := rfl
@[simp] theorem setQueue_mesh (q : Nat) (x : Queue) : (setQueue s q x).mesh = s.mesh := rfl
@[simp] theorem setQueue_flying (q : Nat) (x : Queue) : (setQueue s q x).flying = s.flying := rfl
@[simp] theorem setQueue_terms (q : Nat) (x : Queue) : (setQueue s q x).terms = s.terms := rfl
@[simp] theorem setQueue_hosts (q : Nat) (x : Queue) : (setQueue s q x).hosts = s.hosts := rfl
@[simp] theorem setQueue_conns (q : Nat) (x : Queue) : (setQueue s q x).conns = s.conns := rfl
@[simp] theorem setQueue_mwins (q : Nat) (x : Queue) : (setQueue s q x).mwins = s.mwins := rfl
@[simp] theorem setQueue_objs (q : Nat) (x : Queue) : (setQueue s q x).objs = s.objs := rfl
@[simp] theorem setQueue_rdmas (q : Nat) (x : Queue) : (setQueue s q x).rdmas = s.rdmas := rfl
@[simp] theorem setQueue_lease (q : Nat) (x : Queue) : (setQueue s q x).lease = s.lease := rfl
@[simp] theorem setQueue_hlink (q : Nat) (x : Queue) : (setQueue s q x).hlink = s.hlink := rfl
@[simp] theorem setQueue_ptp (q : Nat) (x : Queue) : (setQueue s q x).ptp = s.ptp := rfl
@[simp] theorem setQueue_ecatLink (q : Nat) (x : Queue) : (setQueue s q x).ecatLink = s.ecatLink := rfl
@[simp] theorem setQueue_sampled (q : Nat) (x : Queue) : (setQueue s q x).sampled = s.sampled := rfl
@[simp] theorem setQueue_gates (q : Nat) (x : Queue) : (setQueue s q x).gates = s.gates := rfl
@[simp] theorem setQueue_srcs (q : Nat) (x : Queue) : (setQueue s q x).srcs = s.srcs := rfl
@[simp] theorem setQueue_bell (q : Nat) (x : Queue) : (setQueue s q x).bell = s.bell := rfl
@[simp] theorem setQueue_entries (q : Nat) (x : Queue) : (setQueue s q x).entries = s.entries := rfl
@[simp] theorem setQueue_tts (q : Nat) (x : Queue) : (setQueue s q x).tts = s.tts := rfl
@[simp] theorem setQueue_due (q : Nat) (x : Queue) : (setQueue s q x).due = s.due := rfl
@[simp] theorem setQueue_tports (q : Nat) (x : Queue) : (setQueue s q x).tports = s.tports := rfl
@[simp] theorem setQueue_chans (q : Nat) (x : Queue) : (setQueue s q x).chans = s.chans := rfl
@[simp] theorem setQueue_roll (q : Nat) (x : Queue) : (setQueue s q x).roll = s.roll := rfl
@[simp] theorem setQueue_attest (q : Nat) (x : Queue) : (setQueue s q x).attest = s.attest := rfl
@[simp] theorem setQueue_sramErr (q : Nat) (x : Queue) : (setQueue s q x).sramErr = s.sramErr := rfl
@[simp] theorem setQueue_linkCe (q : Nat) (x : Queue) : (setQueue s q x).linkCe = s.linkCe := rfl
@[simp] theorem setQueue_scan (q : Nat) (x : Queue) : (setQueue s q x).scan = s.scan := rfl
@[simp] theorem setQueue_out (q : Nat) (x : Queue) : (setQueue s q x).out = s.out := rfl
@[simp] theorem setQueue_queues (q : Nat) (x : Queue) : (setQueue s q x).queues = sset Queue.none s.queues q x := rfl
@[simp] theorem queueOf_setQueue (q : Nat) (x : Queue) : queueOf (setQueue s q x) q = x := sget_sset_self ..
theorem queueOf_setQueue_ne {q j : Nat} (h : j ≠ q) (x : Queue) : queueOf (setQueue s q x) j = queueOf s j := sget_sset_ne _ _ _ h

/-! ### setConn -/

@[simp] theorem setConn_pending (n : Nat) (x : Conn) : (setConn s n x).pending = s.pending := rfl
@[simp] theorem setConn_fclk (n : Nat) (x : Conn) : (setConn s n x).fclk = s.fclk := rfl
@[simp] theorem setConn_fuse (n : Nat) (x : Conn) : (setConn s n x).fuse = s.fuse := rfl
@[simp] theorem setConn_free (n : Nat) (x : Conn) : (setConn s n x).free = s.free := rfl
@[simp] theorem setConn_power (n : Nat) (x : Conn) : (setConn s n x).power = s.power := rfl
@[simp] theorem setConn_boot (n : Nat) (x : Conn) : (setConn s n x).boot = s.boot := rfl
@[simp] theorem setConn_clk (n : Nat) (x : Conn) : (setConn s n x).clk = s.clk := rfl
@[simp] theorem setConn_health (n : Nat) (x : Conn) : (setConn s n x).health = s.health := rfl
@[simp] theorem setConn_wings (n : Nat) (x : Conn) : (setConn s n x).wings = s.wings := rfl
@[simp] theorem setConn_pchans (n : Nat) (x : Conn) : (setConn s n x).pchans = s.pchans := rfl
@[simp] theorem setConn_hbm (n : Nat) (x : Conn) : (setConn s n x).hbm = s.hbm := rfl
@[simp] theorem setConn_hbmBad (n : Nat) (x : Conn) : (setConn s n x).hbmBad = s.hbmBad := rfl
@[simp] theorem setConn_dict (n : Nat) (x : Conn) : (setConn s n x).dict = s.dict := rfl
@[simp] theorem setConn_ctxs (n : Nat) (x : Conn) : (setConn s n x).ctxs = s.ctxs := rfl
@[simp] theorem setConn_cus (n : Nat) (x : Conn) : (setConn s n x).cus = s.cus := rfl
@[simp] theorem setConn_mus (n : Nat) (x : Conn) : (setConn s n x).mus = s.mus := rfl
@[simp] theorem setConn_sws (n : Nat) (x : Conn) : (setConn s n x).sws = s.sws := rfl
@[simp] theorem setConn_wires (n : Nat) (x : Conn) : (setConn s n x).wires = s.wires := rfl
@[simp] theorem setConn_credits (n : Nat) (x : Conn) : (setConn s n x).credits = s.credits := rfl
@[simp] theorem setConn_ring (n : Nat) (x : Conn) : (setConn s n x).ring = s.ring := rfl
@[simp] theorem setConn_gridIn (n : Nat) (x : Conn) : (setConn s n x).gridIn = s.gridIn := rfl
@[simp] theorem setConn_ctl (n : Nat) (x : Conn) : (setConn s n x).ctl = s.ctl := rfl
@[simp] theorem setConn_mesh (n : Nat) (x : Conn) : (setConn s n x).mesh = s.mesh := rfl
@[simp] theorem setConn_flying (n : Nat) (x : Conn) : (setConn s n x).flying = s.flying := rfl
@[simp] theorem setConn_terms (n : Nat) (x : Conn) : (setConn s n x).terms = s.terms := rfl
@[simp] theorem setConn_hosts (n : Nat) (x : Conn) : (setConn s n x).hosts = s.hosts := rfl
@[simp] theorem setConn_queues (n : Nat) (x : Conn) : (setConn s n x).queues = s.queues := rfl
@[simp] theorem setConn_mwins (n : Nat) (x : Conn) : (setConn s n x).mwins = s.mwins := rfl
@[simp] theorem setConn_objs (n : Nat) (x : Conn) : (setConn s n x).objs = s.objs := rfl
@[simp] theorem setConn_rdmas (n : Nat) (x : Conn) : (setConn s n x).rdmas = s.rdmas := rfl
@[simp] theorem setConn_lease (n : Nat) (x : Conn) : (setConn s n x).lease = s.lease := rfl
@[simp] theorem setConn_hlink (n : Nat) (x : Conn) : (setConn s n x).hlink = s.hlink := rfl
@[simp] theorem setConn_ptp (n : Nat) (x : Conn) : (setConn s n x).ptp = s.ptp := rfl
@[simp] theorem setConn_ecatLink (n : Nat) (x : Conn) : (setConn s n x).ecatLink = s.ecatLink := rfl
@[simp] theorem setConn_sampled (n : Nat) (x : Conn) : (setConn s n x).sampled = s.sampled := rfl
@[simp] theorem setConn_gates (n : Nat) (x : Conn) : (setConn s n x).gates = s.gates := rfl
@[simp] theorem setConn_srcs (n : Nat) (x : Conn) : (setConn s n x).srcs = s.srcs := rfl
@[simp] theorem setConn_bell (n : Nat) (x : Conn) : (setConn s n x).bell = s.bell := rfl
@[simp] theorem setConn_entries (n : Nat) (x : Conn) : (setConn s n x).entries = s.entries := rfl
@[simp] theorem setConn_tts (n : Nat) (x : Conn) : (setConn s n x).tts = s.tts := rfl
@[simp] theorem setConn_due (n : Nat) (x : Conn) : (setConn s n x).due = s.due := rfl
@[simp] theorem setConn_tports (n : Nat) (x : Conn) : (setConn s n x).tports = s.tports := rfl
@[simp] theorem setConn_chans (n : Nat) (x : Conn) : (setConn s n x).chans = s.chans := rfl
@[simp] theorem setConn_roll (n : Nat) (x : Conn) : (setConn s n x).roll = s.roll := rfl
@[simp] theorem setConn_attest (n : Nat) (x : Conn) : (setConn s n x).attest = s.attest := rfl
@[simp] theorem setConn_sramErr (n : Nat) (x : Conn) : (setConn s n x).sramErr = s.sramErr := rfl
@[simp] theorem setConn_linkCe (n : Nat) (x : Conn) : (setConn s n x).linkCe = s.linkCe := rfl
@[simp] theorem setConn_scan (n : Nat) (x : Conn) : (setConn s n x).scan = s.scan := rfl
@[simp] theorem setConn_out (n : Nat) (x : Conn) : (setConn s n x).out = s.out := rfl
@[simp] theorem setConn_conns (n : Nat) (x : Conn) : (setConn s n x).conns = sset Conn.none s.conns n x := rfl
@[simp] theorem connOf_setConn (n : Nat) (x : Conn) : connOf (setConn s n x) n = x := sget_sset_self ..
theorem connOf_setConn_ne {n j : Nat} (h : j ≠ n) (x : Conn) : connOf (setConn s n x) j = connOf s j := sget_sset_ne _ _ _ h

/-! ### setHost -/

@[simp] theorem setHost_pending (k : Nat) (x : HostSt) : (setHost s k x).pending = s.pending := rfl
@[simp] theorem setHost_fclk (k : Nat) (x : HostSt) : (setHost s k x).fclk = s.fclk := rfl
@[simp] theorem setHost_fuse (k : Nat) (x : HostSt) : (setHost s k x).fuse = s.fuse := rfl
@[simp] theorem setHost_free (k : Nat) (x : HostSt) : (setHost s k x).free = s.free := rfl
@[simp] theorem setHost_power (k : Nat) (x : HostSt) : (setHost s k x).power = s.power := rfl
@[simp] theorem setHost_boot (k : Nat) (x : HostSt) : (setHost s k x).boot = s.boot := rfl
@[simp] theorem setHost_clk (k : Nat) (x : HostSt) : (setHost s k x).clk = s.clk := rfl
@[simp] theorem setHost_health (k : Nat) (x : HostSt) : (setHost s k x).health = s.health := rfl
@[simp] theorem setHost_wings (k : Nat) (x : HostSt) : (setHost s k x).wings = s.wings := rfl
@[simp] theorem setHost_pchans (k : Nat) (x : HostSt) : (setHost s k x).pchans = s.pchans := rfl
@[simp] theorem setHost_hbm (k : Nat) (x : HostSt) : (setHost s k x).hbm = s.hbm := rfl
@[simp] theorem setHost_hbmBad (k : Nat) (x : HostSt) : (setHost s k x).hbmBad = s.hbmBad := rfl
@[simp] theorem setHost_dict (k : Nat) (x : HostSt) : (setHost s k x).dict = s.dict := rfl
@[simp] theorem setHost_ctxs (k : Nat) (x : HostSt) : (setHost s k x).ctxs = s.ctxs := rfl
@[simp] theorem setHost_cus (k : Nat) (x : HostSt) : (setHost s k x).cus = s.cus := rfl
@[simp] theorem setHost_mus (k : Nat) (x : HostSt) : (setHost s k x).mus = s.mus := rfl
@[simp] theorem setHost_sws (k : Nat) (x : HostSt) : (setHost s k x).sws = s.sws := rfl
@[simp] theorem setHost_wires (k : Nat) (x : HostSt) : (setHost s k x).wires = s.wires := rfl
@[simp] theorem setHost_credits (k : Nat) (x : HostSt) : (setHost s k x).credits = s.credits := rfl
@[simp] theorem setHost_ring (k : Nat) (x : HostSt) : (setHost s k x).ring = s.ring := rfl
@[simp] theorem setHost_gridIn (k : Nat) (x : HostSt) : (setHost s k x).gridIn = s.gridIn := rfl
@[simp] theorem setHost_ctl (k : Nat) (x : HostSt) : (setHost s k x).ctl = s.ctl := rfl
@[simp] theorem setHost_mesh (k : Nat) (x : HostSt) : (setHost s k x).mesh = s.mesh := rfl
@[simp] theorem setHost_flying (k : Nat) (x : HostSt) : (setHost s k x).flying = s.flying := rfl
@[simp] theorem setHost_terms (k : Nat) (x : HostSt) : (setHost s k x).terms = s.terms := rfl
@[simp] theorem setHost_conns (k : Nat) (x : HostSt) : (setHost s k x).conns = s.conns := rfl
@[simp] theorem setHost_queues (k : Nat) (x : HostSt) : (setHost s k x).queues = s.queues := rfl
@[simp] theorem setHost_mwins (k : Nat) (x : HostSt) : (setHost s k x).mwins = s.mwins := rfl
@[simp] theorem setHost_objs (k : Nat) (x : HostSt) : (setHost s k x).objs = s.objs := rfl
@[simp] theorem setHost_rdmas (k : Nat) (x : HostSt) : (setHost s k x).rdmas = s.rdmas := rfl
@[simp] theorem setHost_lease (k : Nat) (x : HostSt) : (setHost s k x).lease = s.lease := rfl
@[simp] theorem setHost_hlink (k : Nat) (x : HostSt) : (setHost s k x).hlink = s.hlink := rfl
@[simp] theorem setHost_ptp (k : Nat) (x : HostSt) : (setHost s k x).ptp = s.ptp := rfl
@[simp] theorem setHost_ecatLink (k : Nat) (x : HostSt) : (setHost s k x).ecatLink = s.ecatLink := rfl
@[simp] theorem setHost_sampled (k : Nat) (x : HostSt) : (setHost s k x).sampled = s.sampled := rfl
@[simp] theorem setHost_gates (k : Nat) (x : HostSt) : (setHost s k x).gates = s.gates := rfl
@[simp] theorem setHost_srcs (k : Nat) (x : HostSt) : (setHost s k x).srcs = s.srcs := rfl
@[simp] theorem setHost_bell (k : Nat) (x : HostSt) : (setHost s k x).bell = s.bell := rfl
@[simp] theorem setHost_entries (k : Nat) (x : HostSt) : (setHost s k x).entries = s.entries := rfl
@[simp] theorem setHost_tts (k : Nat) (x : HostSt) : (setHost s k x).tts = s.tts := rfl
@[simp] theorem setHost_due (k : Nat) (x : HostSt) : (setHost s k x).due = s.due := rfl
@[simp] theorem setHost_tports (k : Nat) (x : HostSt) : (setHost s k x).tports = s.tports := rfl
@[simp] theorem setHost_chans (k : Nat) (x : HostSt) : (setHost s k x).chans = s.chans := rfl
@[simp] theorem setHost_roll (k : Nat) (x : HostSt) : (setHost s k x).roll = s.roll := rfl
@[simp] theorem setHost_attest (k : Nat) (x : HostSt) : (setHost s k x).attest = s.attest := rfl
@[simp] theorem setHost_sramErr (k : Nat) (x : HostSt) : (setHost s k x).sramErr = s.sramErr := rfl
@[simp] theorem setHost_linkCe (k : Nat) (x : HostSt) : (setHost s k x).linkCe = s.linkCe := rfl
@[simp] theorem setHost_scan (k : Nat) (x : HostSt) : (setHost s k x).scan = s.scan := rfl
@[simp] theorem setHost_out (k : Nat) (x : HostSt) : (setHost s k x).out = s.out := rfl
@[simp] theorem setHost_hosts (k : Nat) (x : HostSt) : (setHost s k x).hosts = sset HostSt.absent s.hosts k x := rfl
@[simp] theorem hostOf_setHost (k : Nat) (x : HostSt) : hostOf (setHost s k x) k = x := sget_sset_self ..
theorem hostOf_setHost_ne {k j : Nat} (h : j ≠ k) (x : HostSt) : hostOf (setHost s k x) j = hostOf s j := sget_sset_ne _ _ _ h

/-! ### setMwin -/

@[simp] theorem setMwin_pending (w : Nat) (x : MWin) : (setMwin s w x).pending = s.pending := rfl
@[simp] theorem setMwin_fclk (w : Nat) (x : MWin) : (setMwin s w x).fclk = s.fclk := rfl
@[simp] theorem setMwin_fuse (w : Nat) (x : MWin) : (setMwin s w x).fuse = s.fuse := rfl
@[simp] theorem setMwin_free (w : Nat) (x : MWin) : (setMwin s w x).free = s.free := rfl
@[simp] theorem setMwin_power (w : Nat) (x : MWin) : (setMwin s w x).power = s.power := rfl
@[simp] theorem setMwin_boot (w : Nat) (x : MWin) : (setMwin s w x).boot = s.boot := rfl
@[simp] theorem setMwin_clk (w : Nat) (x : MWin) : (setMwin s w x).clk = s.clk := rfl
@[simp] theorem setMwin_health (w : Nat) (x : MWin) : (setMwin s w x).health = s.health := rfl
@[simp] theorem setMwin_wings (w : Nat) (x : MWin) : (setMwin s w x).wings = s.wings := rfl
@[simp] theorem setMwin_pchans (w : Nat) (x : MWin) : (setMwin s w x).pchans = s.pchans := rfl
@[simp] theorem setMwin_hbm (w : Nat) (x : MWin) : (setMwin s w x).hbm = s.hbm := rfl
@[simp] theorem setMwin_hbmBad (w : Nat) (x : MWin) : (setMwin s w x).hbmBad = s.hbmBad := rfl
@[simp] theorem setMwin_dict (w : Nat) (x : MWin) : (setMwin s w x).dict = s.dict := rfl
@[simp] theorem setMwin_ctxs (w : Nat) (x : MWin) : (setMwin s w x).ctxs = s.ctxs := rfl
@[simp] theorem setMwin_cus (w : Nat) (x : MWin) : (setMwin s w x).cus = s.cus := rfl
@[simp] theorem setMwin_mus (w : Nat) (x : MWin) : (setMwin s w x).mus = s.mus := rfl
@[simp] theorem setMwin_sws (w : Nat) (x : MWin) : (setMwin s w x).sws = s.sws := rfl
@[simp] theorem setMwin_wires (w : Nat) (x : MWin) : (setMwin s w x).wires = s.wires := rfl
@[simp] theorem setMwin_credits (w : Nat) (x : MWin) : (setMwin s w x).credits = s.credits := rfl
@[simp] theorem setMwin_ring (w : Nat) (x : MWin) : (setMwin s w x).ring = s.ring := rfl
@[simp] theorem setMwin_gridIn (w : Nat) (x : MWin) : (setMwin s w x).gridIn = s.gridIn := rfl
@[simp] theorem setMwin_ctl (w : Nat) (x : MWin) : (setMwin s w x).ctl = s.ctl := rfl
@[simp] theorem setMwin_mesh (w : Nat) (x : MWin) : (setMwin s w x).mesh = s.mesh := rfl
@[simp] theorem setMwin_flying (w : Nat) (x : MWin) : (setMwin s w x).flying = s.flying := rfl
@[simp] theorem setMwin_terms (w : Nat) (x : MWin) : (setMwin s w x).terms = s.terms := rfl
@[simp] theorem setMwin_hosts (w : Nat) (x : MWin) : (setMwin s w x).hosts = s.hosts := rfl
@[simp] theorem setMwin_conns (w : Nat) (x : MWin) : (setMwin s w x).conns = s.conns := rfl
@[simp] theorem setMwin_queues (w : Nat) (x : MWin) : (setMwin s w x).queues = s.queues := rfl
@[simp] theorem setMwin_objs (w : Nat) (x : MWin) : (setMwin s w x).objs = s.objs := rfl
@[simp] theorem setMwin_rdmas (w : Nat) (x : MWin) : (setMwin s w x).rdmas = s.rdmas := rfl
@[simp] theorem setMwin_lease (w : Nat) (x : MWin) : (setMwin s w x).lease = s.lease := rfl
@[simp] theorem setMwin_hlink (w : Nat) (x : MWin) : (setMwin s w x).hlink = s.hlink := rfl
@[simp] theorem setMwin_ptp (w : Nat) (x : MWin) : (setMwin s w x).ptp = s.ptp := rfl
@[simp] theorem setMwin_ecatLink (w : Nat) (x : MWin) : (setMwin s w x).ecatLink = s.ecatLink := rfl
@[simp] theorem setMwin_sampled (w : Nat) (x : MWin) : (setMwin s w x).sampled = s.sampled := rfl
@[simp] theorem setMwin_gates (w : Nat) (x : MWin) : (setMwin s w x).gates = s.gates := rfl
@[simp] theorem setMwin_srcs (w : Nat) (x : MWin) : (setMwin s w x).srcs = s.srcs := rfl
@[simp] theorem setMwin_bell (w : Nat) (x : MWin) : (setMwin s w x).bell = s.bell := rfl
@[simp] theorem setMwin_entries (w : Nat) (x : MWin) : (setMwin s w x).entries = s.entries := rfl
@[simp] theorem setMwin_tts (w : Nat) (x : MWin) : (setMwin s w x).tts = s.tts := rfl
@[simp] theorem setMwin_due (w : Nat) (x : MWin) : (setMwin s w x).due = s.due := rfl
@[simp] theorem setMwin_tports (w : Nat) (x : MWin) : (setMwin s w x).tports = s.tports := rfl
@[simp] theorem setMwin_chans (w : Nat) (x : MWin) : (setMwin s w x).chans = s.chans := rfl
@[simp] theorem setMwin_roll (w : Nat) (x : MWin) : (setMwin s w x).roll = s.roll := rfl
@[simp] theorem setMwin_attest (w : Nat) (x : MWin) : (setMwin s w x).attest = s.attest := rfl
@[simp] theorem setMwin_sramErr (w : Nat) (x : MWin) : (setMwin s w x).sramErr = s.sramErr := rfl
@[simp] theorem setMwin_linkCe (w : Nat) (x : MWin) : (setMwin s w x).linkCe = s.linkCe := rfl
@[simp] theorem setMwin_scan (w : Nat) (x : MWin) : (setMwin s w x).scan = s.scan := rfl
@[simp] theorem setMwin_out (w : Nat) (x : MWin) : (setMwin s w x).out = s.out := rfl
@[simp] theorem setMwin_mwins (w : Nat) (x : MWin) : (setMwin s w x).mwins = sset MWin.closed s.mwins w x := rfl
@[simp] theorem mwinOf_setMwin (w : Nat) (x : MWin) : mwinOf (setMwin s w x) w = x := sget_sset_self ..
theorem mwinOf_setMwin_ne {w j : Nat} (h : j ≠ w) (x : MWin) : mwinOf (setMwin s w x) j = mwinOf s j := sget_sset_ne _ _ _ h

/-! ### setSrc -/

@[simp] theorem setSrc_pending (i : Nat) (x : Source) : (setSrc s i x).pending = s.pending := rfl
@[simp] theorem setSrc_fclk (i : Nat) (x : Source) : (setSrc s i x).fclk = s.fclk := rfl
@[simp] theorem setSrc_fuse (i : Nat) (x : Source) : (setSrc s i x).fuse = s.fuse := rfl
@[simp] theorem setSrc_free (i : Nat) (x : Source) : (setSrc s i x).free = s.free := rfl
@[simp] theorem setSrc_power (i : Nat) (x : Source) : (setSrc s i x).power = s.power := rfl
@[simp] theorem setSrc_boot (i : Nat) (x : Source) : (setSrc s i x).boot = s.boot := rfl
@[simp] theorem setSrc_clk (i : Nat) (x : Source) : (setSrc s i x).clk = s.clk := rfl
@[simp] theorem setSrc_health (i : Nat) (x : Source) : (setSrc s i x).health = s.health := rfl
@[simp] theorem setSrc_wings (i : Nat) (x : Source) : (setSrc s i x).wings = s.wings := rfl
@[simp] theorem setSrc_pchans (i : Nat) (x : Source) : (setSrc s i x).pchans = s.pchans := rfl
@[simp] theorem setSrc_hbm (i : Nat) (x : Source) : (setSrc s i x).hbm = s.hbm := rfl
@[simp] theorem setSrc_hbmBad (i : Nat) (x : Source) : (setSrc s i x).hbmBad = s.hbmBad := rfl
@[simp] theorem setSrc_dict (i : Nat) (x : Source) : (setSrc s i x).dict = s.dict := rfl
@[simp] theorem setSrc_ctxs (i : Nat) (x : Source) : (setSrc s i x).ctxs = s.ctxs := rfl
@[simp] theorem setSrc_cus (i : Nat) (x : Source) : (setSrc s i x).cus = s.cus := rfl
@[simp] theorem setSrc_mus (i : Nat) (x : Source) : (setSrc s i x).mus = s.mus := rfl
@[simp] theorem setSrc_sws (i : Nat) (x : Source) : (setSrc s i x).sws = s.sws := rfl
@[simp] theorem setSrc_wires (i : Nat) (x : Source) : (setSrc s i x).wires = s.wires := rfl
@[simp] theorem setSrc_credits (i : Nat) (x : Source) : (setSrc s i x).credits = s.credits := rfl
@[simp] theorem setSrc_ring (i : Nat) (x : Source) : (setSrc s i x).ring = s.ring := rfl
@[simp] theorem setSrc_gridIn (i : Nat) (x : Source) : (setSrc s i x).gridIn = s.gridIn := rfl
@[simp] theorem setSrc_ctl (i : Nat) (x : Source) : (setSrc s i x).ctl = s.ctl := rfl
@[simp] theorem setSrc_mesh (i : Nat) (x : Source) : (setSrc s i x).mesh = s.mesh := rfl
@[simp] theorem setSrc_flying (i : Nat) (x : Source) : (setSrc s i x).flying = s.flying := rfl
@[simp] theorem setSrc_terms (i : Nat) (x : Source) : (setSrc s i x).terms = s.terms := rfl
@[simp] theorem setSrc_hosts (i : Nat) (x : Source) : (setSrc s i x).hosts = s.hosts := rfl
@[simp] theorem setSrc_conns (i : Nat) (x : Source) : (setSrc s i x).conns = s.conns := rfl
@[simp] theorem setSrc_queues (i : Nat) (x : Source) : (setSrc s i x).queues = s.queues := rfl
@[simp] theorem setSrc_mwins (i : Nat) (x : Source) : (setSrc s i x).mwins = s.mwins := rfl
@[simp] theorem setSrc_objs (i : Nat) (x : Source) : (setSrc s i x).objs = s.objs := rfl
@[simp] theorem setSrc_rdmas (i : Nat) (x : Source) : (setSrc s i x).rdmas = s.rdmas := rfl
@[simp] theorem setSrc_lease (i : Nat) (x : Source) : (setSrc s i x).lease = s.lease := rfl
@[simp] theorem setSrc_hlink (i : Nat) (x : Source) : (setSrc s i x).hlink = s.hlink := rfl
@[simp] theorem setSrc_ptp (i : Nat) (x : Source) : (setSrc s i x).ptp = s.ptp := rfl
@[simp] theorem setSrc_ecatLink (i : Nat) (x : Source) : (setSrc s i x).ecatLink = s.ecatLink := rfl
@[simp] theorem setSrc_sampled (i : Nat) (x : Source) : (setSrc s i x).sampled = s.sampled := rfl
@[simp] theorem setSrc_gates (i : Nat) (x : Source) : (setSrc s i x).gates = s.gates := rfl
@[simp] theorem setSrc_bell (i : Nat) (x : Source) : (setSrc s i x).bell = s.bell := rfl
@[simp] theorem setSrc_entries (i : Nat) (x : Source) : (setSrc s i x).entries = s.entries := rfl
@[simp] theorem setSrc_tts (i : Nat) (x : Source) : (setSrc s i x).tts = s.tts := rfl
@[simp] theorem setSrc_due (i : Nat) (x : Source) : (setSrc s i x).due = s.due := rfl
@[simp] theorem setSrc_tports (i : Nat) (x : Source) : (setSrc s i x).tports = s.tports := rfl
@[simp] theorem setSrc_chans (i : Nat) (x : Source) : (setSrc s i x).chans = s.chans := rfl
@[simp] theorem setSrc_roll (i : Nat) (x : Source) : (setSrc s i x).roll = s.roll := rfl
@[simp] theorem setSrc_attest (i : Nat) (x : Source) : (setSrc s i x).attest = s.attest := rfl
@[simp] theorem setSrc_sramErr (i : Nat) (x : Source) : (setSrc s i x).sramErr = s.sramErr := rfl
@[simp] theorem setSrc_linkCe (i : Nat) (x : Source) : (setSrc s i x).linkCe = s.linkCe := rfl
@[simp] theorem setSrc_scan (i : Nat) (x : Source) : (setSrc s i x).scan = s.scan := rfl
@[simp] theorem setSrc_out (i : Nat) (x : Source) : (setSrc s i x).out = s.out := rfl
@[simp] theorem setSrc_srcs (i : Nat) (x : Source) : (setSrc s i x).srcs = sset Source.off s.srcs i x := rfl
@[simp] theorem srcOf_setSrc (i : Nat) (x : Source) : srcOf (setSrc s i x) i = x := sget_sset_self ..
theorem srcOf_setSrc_ne {i j : Nat} (h : j ≠ i) (x : Source) : srcOf (setSrc s i x) j = srcOf s j := sget_sset_ne _ _ _ h

/-! ### setTt -/

@[simp] theorem setTt_pending (k : Nat) (x : Timetable) : (setTt s k x).pending = s.pending := rfl
@[simp] theorem setTt_fclk (k : Nat) (x : Timetable) : (setTt s k x).fclk = s.fclk := rfl
@[simp] theorem setTt_fuse (k : Nat) (x : Timetable) : (setTt s k x).fuse = s.fuse := rfl
@[simp] theorem setTt_free (k : Nat) (x : Timetable) : (setTt s k x).free = s.free := rfl
@[simp] theorem setTt_power (k : Nat) (x : Timetable) : (setTt s k x).power = s.power := rfl
@[simp] theorem setTt_boot (k : Nat) (x : Timetable) : (setTt s k x).boot = s.boot := rfl
@[simp] theorem setTt_clk (k : Nat) (x : Timetable) : (setTt s k x).clk = s.clk := rfl
@[simp] theorem setTt_health (k : Nat) (x : Timetable) : (setTt s k x).health = s.health := rfl
@[simp] theorem setTt_wings (k : Nat) (x : Timetable) : (setTt s k x).wings = s.wings := rfl
@[simp] theorem setTt_pchans (k : Nat) (x : Timetable) : (setTt s k x).pchans = s.pchans := rfl
@[simp] theorem setTt_hbm (k : Nat) (x : Timetable) : (setTt s k x).hbm = s.hbm := rfl
@[simp] theorem setTt_hbmBad (k : Nat) (x : Timetable) : (setTt s k x).hbmBad = s.hbmBad := rfl
@[simp] theorem setTt_dict (k : Nat) (x : Timetable) : (setTt s k x).dict = s.dict := rfl
@[simp] theorem setTt_ctxs (k : Nat) (x : Timetable) : (setTt s k x).ctxs = s.ctxs := rfl
@[simp] theorem setTt_cus (k : Nat) (x : Timetable) : (setTt s k x).cus = s.cus := rfl
@[simp] theorem setTt_mus (k : Nat) (x : Timetable) : (setTt s k x).mus = s.mus := rfl
@[simp] theorem setTt_sws (k : Nat) (x : Timetable) : (setTt s k x).sws = s.sws := rfl
@[simp] theorem setTt_wires (k : Nat) (x : Timetable) : (setTt s k x).wires = s.wires := rfl
@[simp] theorem setTt_credits (k : Nat) (x : Timetable) : (setTt s k x).credits = s.credits := rfl
@[simp] theorem setTt_ring (k : Nat) (x : Timetable) : (setTt s k x).ring = s.ring := rfl
@[simp] theorem setTt_gridIn (k : Nat) (x : Timetable) : (setTt s k x).gridIn = s.gridIn := rfl
@[simp] theorem setTt_ctl (k : Nat) (x : Timetable) : (setTt s k x).ctl = s.ctl := rfl
@[simp] theorem setTt_mesh (k : Nat) (x : Timetable) : (setTt s k x).mesh = s.mesh := rfl
@[simp] theorem setTt_flying (k : Nat) (x : Timetable) : (setTt s k x).flying = s.flying := rfl
@[simp] theorem setTt_terms (k : Nat) (x : Timetable) : (setTt s k x).terms = s.terms := rfl
@[simp] theorem setTt_hosts (k : Nat) (x : Timetable) : (setTt s k x).hosts = s.hosts := rfl
@[simp] theorem setTt_conns (k : Nat) (x : Timetable) : (setTt s k x).conns = s.conns := rfl
@[simp] theorem setTt_queues (k : Nat) (x : Timetable) : (setTt s k x).queues = s.queues := rfl
@[simp] theorem setTt_mwins (k : Nat) (x : Timetable) : (setTt s k x).mwins = s.mwins := rfl
@[simp] theorem setTt_objs (k : Nat) (x : Timetable) : (setTt s k x).objs = s.objs := rfl
@[simp] theorem setTt_rdmas (k : Nat) (x : Timetable) : (setTt s k x).rdmas = s.rdmas := rfl
@[simp] theorem setTt_lease (k : Nat) (x : Timetable) : (setTt s k x).lease = s.lease := rfl
@[simp] theorem setTt_hlink (k : Nat) (x : Timetable) : (setTt s k x).hlink = s.hlink := rfl
@[simp] theorem setTt_ptp (k : Nat) (x : Timetable) : (setTt s k x).ptp = s.ptp := rfl
@[simp] theorem setTt_ecatLink (k : Nat) (x : Timetable) : (setTt s k x).ecatLink = s.ecatLink := rfl
@[simp] theorem setTt_sampled (k : Nat) (x : Timetable) : (setTt s k x).sampled = s.sampled := rfl
@[simp] theorem setTt_gates (k : Nat) (x : Timetable) : (setTt s k x).gates = s.gates := rfl
@[simp] theorem setTt_srcs (k : Nat) (x : Timetable) : (setTt s k x).srcs = s.srcs := rfl
@[simp] theorem setTt_bell (k : Nat) (x : Timetable) : (setTt s k x).bell = s.bell := rfl
@[simp] theorem setTt_entries (k : Nat) (x : Timetable) : (setTt s k x).entries = s.entries := rfl
@[simp] theorem setTt_due (k : Nat) (x : Timetable) : (setTt s k x).due = s.due := rfl
@[simp] theorem setTt_tports (k : Nat) (x : Timetable) : (setTt s k x).tports = s.tports := rfl
@[simp] theorem setTt_chans (k : Nat) (x : Timetable) : (setTt s k x).chans = s.chans := rfl
@[simp] theorem setTt_roll (k : Nat) (x : Timetable) : (setTt s k x).roll = s.roll := rfl
@[simp] theorem setTt_attest (k : Nat) (x : Timetable) : (setTt s k x).attest = s.attest := rfl
@[simp] theorem setTt_sramErr (k : Nat) (x : Timetable) : (setTt s k x).sramErr = s.sramErr := rfl
@[simp] theorem setTt_linkCe (k : Nat) (x : Timetable) : (setTt s k x).linkCe = s.linkCe := rfl
@[simp] theorem setTt_scan (k : Nat) (x : Timetable) : (setTt s k x).scan = s.scan := rfl
@[simp] theorem setTt_out (k : Nat) (x : Timetable) : (setTt s k x).out = s.out := rfl
@[simp] theorem setTt_tts (k : Nat) (x : Timetable) : (setTt s k x).tts = sset Timetable.disabled s.tts k x := rfl
@[simp] theorem ttOf_setTt (k : Nat) (x : Timetable) : ttOf (setTt s k x) k = x := sget_sset_self ..
theorem ttOf_setTt_ne {k j : Nat} (h : j ≠ k) (x : Timetable) : ttOf (setTt s k x) j = ttOf s j := sget_sset_ne _ _ _ h

/-! ### setTport -/

@[simp] theorem setTport_pending (p : Nat) (x : TPort) : (setTport s p x).pending = s.pending := rfl
@[simp] theorem setTport_fclk (p : Nat) (x : TPort) : (setTport s p x).fclk = s.fclk := rfl
@[simp] theorem setTport_fuse (p : Nat) (x : TPort) : (setTport s p x).fuse = s.fuse := rfl
@[simp] theorem setTport_free (p : Nat) (x : TPort) : (setTport s p x).free = s.free := rfl
@[simp] theorem setTport_power (p : Nat) (x : TPort) : (setTport s p x).power = s.power := rfl
@[simp] theorem setTport_boot (p : Nat) (x : TPort) : (setTport s p x).boot = s.boot := rfl
@[simp] theorem setTport_clk (p : Nat) (x : TPort) : (setTport s p x).clk = s.clk := rfl
@[simp] theorem setTport_health (p : Nat) (x : TPort) : (setTport s p x).health = s.health := rfl
@[simp] theorem setTport_wings (p : Nat) (x : TPort) : (setTport s p x).wings = s.wings := rfl
@[simp] theorem setTport_pchans (p : Nat) (x : TPort) : (setTport s p x).pchans = s.pchans := rfl
@[simp] theorem setTport_hbm (p : Nat) (x : TPort) : (setTport s p x).hbm = s.hbm := rfl
@[simp] theorem setTport_hbmBad (p : Nat) (x : TPort) : (setTport s p x).hbmBad = s.hbmBad := rfl
@[simp] theorem setTport_dict (p : Nat) (x : TPort) : (setTport s p x).dict = s.dict := rfl
@[simp] theorem setTport_ctxs (p : Nat) (x : TPort) : (setTport s p x).ctxs = s.ctxs := rfl
@[simp] theorem setTport_cus (p : Nat) (x : TPort) : (setTport s p x).cus = s.cus := rfl
@[simp] theorem setTport_mus (p : Nat) (x : TPort) : (setTport s p x).mus = s.mus := rfl
@[simp] theorem setTport_sws (p : Nat) (x : TPort) : (setTport s p x).sws = s.sws := rfl
@[simp] theorem setTport_wires (p : Nat) (x : TPort) : (setTport s p x).wires = s.wires := rfl
@[simp] theorem setTport_credits (p : Nat) (x : TPort) : (setTport s p x).credits = s.credits := rfl
@[simp] theorem setTport_ring (p : Nat) (x : TPort) : (setTport s p x).ring = s.ring := rfl
@[simp] theorem setTport_gridIn (p : Nat) (x : TPort) : (setTport s p x).gridIn = s.gridIn := rfl
@[simp] theorem setTport_ctl (p : Nat) (x : TPort) : (setTport s p x).ctl = s.ctl := rfl
@[simp] theorem setTport_mesh (p : Nat) (x : TPort) : (setTport s p x).mesh = s.mesh := rfl
@[simp] theorem setTport_flying (p : Nat) (x : TPort) : (setTport s p x).flying = s.flying := rfl
@[simp] theorem setTport_terms (p : Nat) (x : TPort) : (setTport s p x).terms = s.terms := rfl
@[simp] theorem setTport_hosts (p : Nat) (x : TPort) : (setTport s p x).hosts = s.hosts := rfl
@[simp] theorem setTport_conns (p : Nat) (x : TPort) : (setTport s p x).conns = s.conns := rfl
@[simp] theorem setTport_queues (p : Nat) (x : TPort) : (setTport s p x).queues = s.queues := rfl
@[simp] theorem setTport_mwins (p : Nat) (x : TPort) : (setTport s p x).mwins = s.mwins := rfl
@[simp] theorem setTport_objs (p : Nat) (x : TPort) : (setTport s p x).objs = s.objs := rfl
@[simp] theorem setTport_rdmas (p : Nat) (x : TPort) : (setTport s p x).rdmas = s.rdmas := rfl
@[simp] theorem setTport_lease (p : Nat) (x : TPort) : (setTport s p x).lease = s.lease := rfl
@[simp] theorem setTport_hlink (p : Nat) (x : TPort) : (setTport s p x).hlink = s.hlink := rfl
@[simp] theorem setTport_ptp (p : Nat) (x : TPort) : (setTport s p x).ptp = s.ptp := rfl
@[simp] theorem setTport_ecatLink (p : Nat) (x : TPort) : (setTport s p x).ecatLink = s.ecatLink := rfl
@[simp] theorem setTport_sampled (p : Nat) (x : TPort) : (setTport s p x).sampled = s.sampled := rfl
@[simp] theorem setTport_gates (p : Nat) (x : TPort) : (setTport s p x).gates = s.gates := rfl
@[simp] theorem setTport_srcs (p : Nat) (x : TPort) : (setTport s p x).srcs = s.srcs := rfl
@[simp] theorem setTport_bell (p : Nat) (x : TPort) : (setTport s p x).bell = s.bell := rfl
@[simp] theorem setTport_entries (p : Nat) (x : TPort) : (setTport s p x).entries = s.entries := rfl
@[simp] theorem setTport_tts (p : Nat) (x : TPort) : (setTport s p x).tts = s.tts := rfl
@[simp] theorem setTport_due (p : Nat) (x : TPort) : (setTport s p x).due = s.due := rfl
@[simp] theorem setTport_chans (p : Nat) (x : TPort) : (setTport s p x).chans = s.chans := rfl
@[simp] theorem setTport_roll (p : Nat) (x : TPort) : (setTport s p x).roll = s.roll := rfl
@[simp] theorem setTport_attest (p : Nat) (x : TPort) : (setTport s p x).attest = s.attest := rfl
@[simp] theorem setTport_sramErr (p : Nat) (x : TPort) : (setTport s p x).sramErr = s.sramErr := rfl
@[simp] theorem setTport_linkCe (p : Nat) (x : TPort) : (setTport s p x).linkCe = s.linkCe := rfl
@[simp] theorem setTport_scan (p : Nat) (x : TPort) : (setTport s p x).scan = s.scan := rfl
@[simp] theorem setTport_out (p : Nat) (x : TPort) : (setTport s p x).out = s.out := rfl
@[simp] theorem setTport_tports (p : Nat) (x : TPort) : (setTport s p x).tports = sset TPort.down s.tports p x := rfl
@[simp] theorem tportOf_setTport (p : Nat) (x : TPort) : tportOf (setTport s p x) p = x := sget_sset_self ..
theorem tportOf_setTport_ne {p j : Nat} (h : j ≠ p) (x : TPort) : tportOf (setTport s p x) j = tportOf s j := sget_sset_ne _ _ _ h

/-! ### setChan -/

@[simp] theorem setChan_pending (c : Nat) (x : Chan) : (setChan s c x).pending = s.pending := rfl
@[simp] theorem setChan_fclk (c : Nat) (x : Chan) : (setChan s c x).fclk = s.fclk := rfl
@[simp] theorem setChan_fuse (c : Nat) (x : Chan) : (setChan s c x).fuse = s.fuse := rfl
@[simp] theorem setChan_free (c : Nat) (x : Chan) : (setChan s c x).free = s.free := rfl
@[simp] theorem setChan_power (c : Nat) (x : Chan) : (setChan s c x).power = s.power := rfl
@[simp] theorem setChan_boot (c : Nat) (x : Chan) : (setChan s c x).boot = s.boot := rfl
@[simp] theorem setChan_clk (c : Nat) (x : Chan) : (setChan s c x).clk = s.clk := rfl
@[simp] theorem setChan_health (c : Nat) (x : Chan) : (setChan s c x).health = s.health := rfl
@[simp] theorem setChan_wings (c : Nat) (x : Chan) : (setChan s c x).wings = s.wings := rfl
@[simp] theorem setChan_pchans (c : Nat) (x : Chan) : (setChan s c x).pchans = s.pchans := rfl
@[simp] theorem setChan_hbm (c : Nat) (x : Chan) : (setChan s c x).hbm = s.hbm := rfl
@[simp] theorem setChan_hbmBad (c : Nat) (x : Chan) : (setChan s c x).hbmBad = s.hbmBad := rfl
@[simp] theorem setChan_dict (c : Nat) (x : Chan) : (setChan s c x).dict = s.dict := rfl
@[simp] theorem setChan_ctxs (c : Nat) (x : Chan) : (setChan s c x).ctxs = s.ctxs := rfl
@[simp] theorem setChan_cus (c : Nat) (x : Chan) : (setChan s c x).cus = s.cus := rfl
@[simp] theorem setChan_mus (c : Nat) (x : Chan) : (setChan s c x).mus = s.mus := rfl
@[simp] theorem setChan_sws (c : Nat) (x : Chan) : (setChan s c x).sws = s.sws := rfl
@[simp] theorem setChan_wires (c : Nat) (x : Chan) : (setChan s c x).wires = s.wires := rfl
@[simp] theorem setChan_credits (c : Nat) (x : Chan) : (setChan s c x).credits = s.credits := rfl
@[simp] theorem setChan_ring (c : Nat) (x : Chan) : (setChan s c x).ring = s.ring := rfl
@[simp] theorem setChan_gridIn (c : Nat) (x : Chan) : (setChan s c x).gridIn = s.gridIn := rfl
@[simp] theorem setChan_ctl (c : Nat) (x : Chan) : (setChan s c x).ctl = s.ctl := rfl
@[simp] theorem setChan_mesh (c : Nat) (x : Chan) : (setChan s c x).mesh = s.mesh := rfl
@[simp] theorem setChan_flying (c : Nat) (x : Chan) : (setChan s c x).flying = s.flying := rfl
@[simp] theorem setChan_terms (c : Nat) (x : Chan) : (setChan s c x).terms = s.terms := rfl
@[simp] theorem setChan_hosts (c : Nat) (x : Chan) : (setChan s c x).hosts = s.hosts := rfl
@[simp] theorem setChan_conns (c : Nat) (x : Chan) : (setChan s c x).conns = s.conns := rfl
@[simp] theorem setChan_queues (c : Nat) (x : Chan) : (setChan s c x).queues = s.queues := rfl
@[simp] theorem setChan_mwins (c : Nat) (x : Chan) : (setChan s c x).mwins = s.mwins := rfl
@[simp] theorem setChan_objs (c : Nat) (x : Chan) : (setChan s c x).objs = s.objs := rfl
@[simp] theorem setChan_rdmas (c : Nat) (x : Chan) : (setChan s c x).rdmas = s.rdmas := rfl
@[simp] theorem setChan_lease (c : Nat) (x : Chan) : (setChan s c x).lease = s.lease := rfl
@[simp] theorem setChan_hlink (c : Nat) (x : Chan) : (setChan s c x).hlink = s.hlink := rfl
@[simp] theorem setChan_ptp (c : Nat) (x : Chan) : (setChan s c x).ptp = s.ptp := rfl
@[simp] theorem setChan_ecatLink (c : Nat) (x : Chan) : (setChan s c x).ecatLink = s.ecatLink := rfl
@[simp] theorem setChan_sampled (c : Nat) (x : Chan) : (setChan s c x).sampled = s.sampled := rfl
@[simp] theorem setChan_gates (c : Nat) (x : Chan) : (setChan s c x).gates = s.gates := rfl
@[simp] theorem setChan_srcs (c : Nat) (x : Chan) : (setChan s c x).srcs = s.srcs := rfl
@[simp] theorem setChan_bell (c : Nat) (x : Chan) : (setChan s c x).bell = s.bell := rfl
@[simp] theorem setChan_entries (c : Nat) (x : Chan) : (setChan s c x).entries = s.entries := rfl
@[simp] theorem setChan_tts (c : Nat) (x : Chan) : (setChan s c x).tts = s.tts := rfl
@[simp] theorem setChan_due (c : Nat) (x : Chan) : (setChan s c x).due = s.due := rfl
@[simp] theorem setChan_tports (c : Nat) (x : Chan) : (setChan s c x).tports = s.tports := rfl
@[simp] theorem setChan_roll (c : Nat) (x : Chan) : (setChan s c x).roll = s.roll := rfl
@[simp] theorem setChan_attest (c : Nat) (x : Chan) : (setChan s c x).attest = s.attest := rfl
@[simp] theorem setChan_sramErr (c : Nat) (x : Chan) : (setChan s c x).sramErr = s.sramErr := rfl
@[simp] theorem setChan_linkCe (c : Nat) (x : Chan) : (setChan s c x).linkCe = s.linkCe := rfl
@[simp] theorem setChan_scan (c : Nat) (x : Chan) : (setChan s c x).scan = s.scan := rfl
@[simp] theorem setChan_out (c : Nat) (x : Chan) : (setChan s c x).out = s.out := rfl
@[simp] theorem setChan_chans (c : Nat) (x : Chan) : (setChan s c x).chans = sset Chan.closed s.chans c x := rfl
@[simp] theorem chanOf_setChan (c : Nat) (x : Chan) : chanOf (setChan s c x) c = x := sget_sset_self ..
theorem chanOf_setChan_ne {c j : Nat} (h : j ≠ c) (x : Chan) : chanOf (setChan s c x) j = chanOf s j := sget_sset_ne _ _ _ h

/-! ### setPtp -/

@[simp] theorem setPtp_pending (n : Nat) (x : Ptp) : (setPtp s n x).pending = s.pending := rfl
@[simp] theorem setPtp_fclk (n : Nat) (x : Ptp) : (setPtp s n x).fclk = s.fclk := rfl
@[simp] theorem setPtp_fuse (n : Nat) (x : Ptp) : (setPtp s n x).fuse = s.fuse := rfl
@[simp] theorem setPtp_free (n : Nat) (x : Ptp) : (setPtp s n x).free = s.free := rfl
@[simp] theorem setPtp_power (n : Nat) (x : Ptp) : (setPtp s n x).power = s.power := rfl
@[simp] theorem setPtp_boot (n : Nat) (x : Ptp) : (setPtp s n x).boot = s.boot := rfl
@[simp] theorem setPtp_clk (n : Nat) (x : Ptp) : (setPtp s n x).clk = s.clk := rfl
@[simp] theorem setPtp_health (n : Nat) (x : Ptp) : (setPtp s n x).health = s.health := rfl
@[simp] theorem setPtp_wings (n : Nat) (x : Ptp) : (setPtp s n x).wings = s.wings := rfl
@[simp] theorem setPtp_pchans (n : Nat) (x : Ptp) : (setPtp s n x).pchans = s.pchans := rfl
@[simp] theorem setPtp_hbm (n : Nat) (x : Ptp) : (setPtp s n x).hbm = s.hbm := rfl
@[simp] theorem setPtp_hbmBad (n : Nat) (x : Ptp) : (setPtp s n x).hbmBad = s.hbmBad := rfl
@[simp] theorem setPtp_dict (n : Nat) (x : Ptp) : (setPtp s n x).dict = s.dict := rfl
@[simp] theorem setPtp_ctxs (n : Nat) (x : Ptp) : (setPtp s n x).ctxs = s.ctxs := rfl
@[simp] theorem setPtp_cus (n : Nat) (x : Ptp) : (setPtp s n x).cus = s.cus := rfl
@[simp] theorem setPtp_mus (n : Nat) (x : Ptp) : (setPtp s n x).mus = s.mus := rfl
@[simp] theorem setPtp_sws (n : Nat) (x : Ptp) : (setPtp s n x).sws = s.sws := rfl
@[simp] theorem setPtp_wires (n : Nat) (x : Ptp) : (setPtp s n x).wires = s.wires := rfl
@[simp] theorem setPtp_credits (n : Nat) (x : Ptp) : (setPtp s n x).credits = s.credits := rfl
@[simp] theorem setPtp_ring (n : Nat) (x : Ptp) : (setPtp s n x).ring = s.ring := rfl
@[simp] theorem setPtp_gridIn (n : Nat) (x : Ptp) : (setPtp s n x).gridIn = s.gridIn := rfl
@[simp] theorem setPtp_ctl (n : Nat) (x : Ptp) : (setPtp s n x).ctl = s.ctl := rfl
@[simp] theorem setPtp_mesh (n : Nat) (x : Ptp) : (setPtp s n x).mesh = s.mesh := rfl
@[simp] theorem setPtp_flying (n : Nat) (x : Ptp) : (setPtp s n x).flying = s.flying := rfl
@[simp] theorem setPtp_terms (n : Nat) (x : Ptp) : (setPtp s n x).terms = s.terms := rfl
@[simp] theorem setPtp_hosts (n : Nat) (x : Ptp) : (setPtp s n x).hosts = s.hosts := rfl
@[simp] theorem setPtp_conns (n : Nat) (x : Ptp) : (setPtp s n x).conns = s.conns := rfl
@[simp] theorem setPtp_queues (n : Nat) (x : Ptp) : (setPtp s n x).queues = s.queues := rfl
@[simp] theorem setPtp_mwins (n : Nat) (x : Ptp) : (setPtp s n x).mwins = s.mwins := rfl
@[simp] theorem setPtp_objs (n : Nat) (x : Ptp) : (setPtp s n x).objs = s.objs := rfl
@[simp] theorem setPtp_rdmas (n : Nat) (x : Ptp) : (setPtp s n x).rdmas = s.rdmas := rfl
@[simp] theorem setPtp_lease (n : Nat) (x : Ptp) : (setPtp s n x).lease = s.lease := rfl
@[simp] theorem setPtp_hlink (n : Nat) (x : Ptp) : (setPtp s n x).hlink = s.hlink := rfl
@[simp] theorem setPtp_ecatLink (n : Nat) (x : Ptp) : (setPtp s n x).ecatLink = s.ecatLink := rfl
@[simp] theorem setPtp_sampled (n : Nat) (x : Ptp) : (setPtp s n x).sampled = s.sampled := rfl
@[simp] theorem setPtp_gates (n : Nat) (x : Ptp) : (setPtp s n x).gates = s.gates := rfl
@[simp] theorem setPtp_srcs (n : Nat) (x : Ptp) : (setPtp s n x).srcs = s.srcs := rfl
@[simp] theorem setPtp_bell (n : Nat) (x : Ptp) : (setPtp s n x).bell = s.bell := rfl
@[simp] theorem setPtp_entries (n : Nat) (x : Ptp) : (setPtp s n x).entries = s.entries := rfl
@[simp] theorem setPtp_tts (n : Nat) (x : Ptp) : (setPtp s n x).tts = s.tts := rfl
@[simp] theorem setPtp_due (n : Nat) (x : Ptp) : (setPtp s n x).due = s.due := rfl
@[simp] theorem setPtp_tports (n : Nat) (x : Ptp) : (setPtp s n x).tports = s.tports := rfl
@[simp] theorem setPtp_chans (n : Nat) (x : Ptp) : (setPtp s n x).chans = s.chans := rfl
@[simp] theorem setPtp_roll (n : Nat) (x : Ptp) : (setPtp s n x).roll = s.roll := rfl
@[simp] theorem setPtp_attest (n : Nat) (x : Ptp) : (setPtp s n x).attest = s.attest := rfl
@[simp] theorem setPtp_sramErr (n : Nat) (x : Ptp) : (setPtp s n x).sramErr = s.sramErr := rfl
@[simp] theorem setPtp_linkCe (n : Nat) (x : Ptp) : (setPtp s n x).linkCe = s.linkCe := rfl
@[simp] theorem setPtp_scan (n : Nat) (x : Ptp) : (setPtp s n x).scan = s.scan := rfl
@[simp] theorem setPtp_out (n : Nat) (x : Ptp) : (setPtp s n x).out = s.out := rfl
@[simp] theorem setPtp_ptp (n : Nat) (x : Ptp) : (setPtp s n x).ptp = sset Ptp.idle s.ptp n x := rfl
@[simp] theorem ptpOf_setPtp (n : Nat) (x : Ptp) : ptpOf (setPtp s n x) n = x := sget_sset_self ..
theorem ptpOf_setPtp_ne {n j : Nat} (h : j ≠ n) (x : Ptp) : ptpOf (setPtp s n x) j = ptpOf s j := sget_sset_ne _ _ _ h

/-! ### setWing -/

@[simp] theorem setWing_pending (w : Nat) (x : Wing) : (setWing s w x).pending = s.pending := rfl
@[simp] theorem setWing_fclk (w : Nat) (x : Wing) : (setWing s w x).fclk = s.fclk := rfl
@[simp] theorem setWing_fuse (w : Nat) (x : Wing) : (setWing s w x).fuse = s.fuse := rfl
@[simp] theorem setWing_free (w : Nat) (x : Wing) : (setWing s w x).free = s.free := rfl
@[simp] theorem setWing_power (w : Nat) (x : Wing) : (setWing s w x).power = s.power := rfl
@[simp] theorem setWing_boot (w : Nat) (x : Wing) : (setWing s w x).boot = s.boot := rfl
@[simp] theorem setWing_clk (w : Nat) (x : Wing) : (setWing s w x).clk = s.clk := rfl
@[simp] theorem setWing_health (w : Nat) (x : Wing) : (setWing s w x).health = s.health := rfl
@[simp] theorem setWing_pchans (w : Nat) (x : Wing) : (setWing s w x).pchans = s.pchans := rfl
@[simp] theorem setWing_hbm (w : Nat) (x : Wing) : (setWing s w x).hbm = s.hbm := rfl
@[simp] theorem setWing_hbmBad (w : Nat) (x : Wing) : (setWing s w x).hbmBad = s.hbmBad := rfl
@[simp] theorem setWing_dict (w : Nat) (x : Wing) : (setWing s w x).dict = s.dict := rfl
@[simp] theorem setWing_ctxs (w : Nat) (x : Wing) : (setWing s w x).ctxs = s.ctxs := rfl
@[simp] theorem setWing_cus (w : Nat) (x : Wing) : (setWing s w x).cus = s.cus := rfl
@[simp] theorem setWing_mus (w : Nat) (x : Wing) : (setWing s w x).mus = s.mus := rfl
@[simp] theorem setWing_sws (w : Nat) (x : Wing) : (setWing s w x).sws = s.sws := rfl
@[simp] theorem setWing_wires (w : Nat) (x : Wing) : (setWing s w x).wires = s.wires := rfl
@[simp] theorem setWing_credits (w : Nat) (x : Wing) : (setWing s w x).credits = s.credits := rfl
@[simp] theorem setWing_ring (w : Nat) (x : Wing) : (setWing s w x).ring = s.ring := rfl
@[simp] theorem setWing_gridIn (w : Nat) (x : Wing) : (setWing s w x).gridIn = s.gridIn := rfl
@[simp] theorem setWing_ctl (w : Nat) (x : Wing) : (setWing s w x).ctl = s.ctl := rfl
@[simp] theorem setWing_mesh (w : Nat) (x : Wing) : (setWing s w x).mesh = s.mesh := rfl
@[simp] theorem setWing_flying (w : Nat) (x : Wing) : (setWing s w x).flying = s.flying := rfl
@[simp] theorem setWing_terms (w : Nat) (x : Wing) : (setWing s w x).terms = s.terms := rfl
@[simp] theorem setWing_hosts (w : Nat) (x : Wing) : (setWing s w x).hosts = s.hosts := rfl
@[simp] theorem setWing_conns (w : Nat) (x : Wing) : (setWing s w x).conns = s.conns := rfl
@[simp] theorem setWing_queues (w : Nat) (x : Wing) : (setWing s w x).queues = s.queues := rfl
@[simp] theorem setWing_mwins (w : Nat) (x : Wing) : (setWing s w x).mwins = s.mwins := rfl
@[simp] theorem setWing_objs (w : Nat) (x : Wing) : (setWing s w x).objs = s.objs := rfl
@[simp] theorem setWing_rdmas (w : Nat) (x : Wing) : (setWing s w x).rdmas = s.rdmas := rfl
@[simp] theorem setWing_lease (w : Nat) (x : Wing) : (setWing s w x).lease = s.lease := rfl
@[simp] theorem setWing_hlink (w : Nat) (x : Wing) : (setWing s w x).hlink = s.hlink := rfl
@[simp] theorem setWing_ptp (w : Nat) (x : Wing) : (setWing s w x).ptp = s.ptp := rfl
@[simp] theorem setWing_ecatLink (w : Nat) (x : Wing) : (setWing s w x).ecatLink = s.ecatLink := rfl
@[simp] theorem setWing_sampled (w : Nat) (x : Wing) : (setWing s w x).sampled = s.sampled := rfl
@[simp] theorem setWing_gates (w : Nat) (x : Wing) : (setWing s w x).gates = s.gates := rfl
@[simp] theorem setWing_srcs (w : Nat) (x : Wing) : (setWing s w x).srcs = s.srcs := rfl
@[simp] theorem setWing_bell (w : Nat) (x : Wing) : (setWing s w x).bell = s.bell := rfl
@[simp] theorem setWing_entries (w : Nat) (x : Wing) : (setWing s w x).entries = s.entries := rfl
@[simp] theorem setWing_tts (w : Nat) (x : Wing) : (setWing s w x).tts = s.tts := rfl
@[simp] theorem setWing_due (w : Nat) (x : Wing) : (setWing s w x).due = s.due := rfl
@[simp] theorem setWing_tports (w : Nat) (x : Wing) : (setWing s w x).tports = s.tports := rfl
@[simp] theorem setWing_chans (w : Nat) (x : Wing) : (setWing s w x).chans = s.chans := rfl
@[simp] theorem setWing_roll (w : Nat) (x : Wing) : (setWing s w x).roll = s.roll := rfl
@[simp] theorem setWing_attest (w : Nat) (x : Wing) : (setWing s w x).attest = s.attest := rfl
@[simp] theorem setWing_sramErr (w : Nat) (x : Wing) : (setWing s w x).sramErr = s.sramErr := rfl
@[simp] theorem setWing_linkCe (w : Nat) (x : Wing) : (setWing s w x).linkCe = s.linkCe := rfl
@[simp] theorem setWing_scan (w : Nat) (x : Wing) : (setWing s w x).scan = s.scan := rfl
@[simp] theorem setWing_out (w : Nat) (x : Wing) : (setWing s w x).out = s.out := rfl
@[simp] theorem setWing_wings (w : Nat) (x : Wing) : (setWing s w x).wings = s.wings.set w x := rfl

/-! ### dset -/

@[simp] theorem dset_pending (k v : Nat) : (dset s k v).pending = s.pending := rfl
@[simp] theorem dset_fclk (k v : Nat) : (dset s k v).fclk = s.fclk := rfl
@[simp] theorem dset_fuse (k v : Nat) : (dset s k v).fuse = s.fuse := rfl
@[simp] theorem dset_free (k v : Nat) : (dset s k v).free = s.free := rfl
@[simp] theorem dset_power (k v : Nat) : (dset s k v).power = s.power := rfl
@[simp] theorem dset_boot (k v : Nat) : (dset s k v).boot = s.boot := rfl
@[simp] theorem dset_clk (k v : Nat) : (dset s k v).clk = s.clk := rfl
@[simp] theorem dset_health (k v : Nat) : (dset s k v).health = s.health := rfl
@[simp] theorem dset_wings (k v : Nat) : (dset s k v).wings = s.wings := rfl
@[simp] theorem dset_pchans (k v : Nat) : (dset s k v).pchans = s.pchans := rfl
@[simp] theorem dset_hbm (k v : Nat) : (dset s k v).hbm = s.hbm := rfl
@[simp] theorem dset_hbmBad (k v : Nat) : (dset s k v).hbmBad = s.hbmBad := rfl
@[simp] theorem dset_ctxs (k v : Nat) : (dset s k v).ctxs = s.ctxs := rfl
@[simp] theorem dset_cus (k v : Nat) : (dset s k v).cus = s.cus := rfl
@[simp] theorem dset_mus (k v : Nat) : (dset s k v).mus = s.mus := rfl
@[simp] theorem dset_sws (k v : Nat) : (dset s k v).sws = s.sws := rfl
@[simp] theorem dset_wires (k v : Nat) : (dset s k v).wires = s.wires := rfl
@[simp] theorem dset_credits (k v : Nat) : (dset s k v).credits = s.credits := rfl
@[simp] theorem dset_ring (k v : Nat) : (dset s k v).ring = s.ring := rfl
@[simp] theorem dset_gridIn (k v : Nat) : (dset s k v).gridIn = s.gridIn := rfl
@[simp] theorem dset_ctl (k v : Nat) : (dset s k v).ctl = s.ctl := rfl
@[simp] theorem dset_mesh (k v : Nat) : (dset s k v).mesh = s.mesh := rfl
@[simp] theorem dset_flying (k v : Nat) : (dset s k v).flying = s.flying := rfl
@[simp] theorem dset_terms (k v : Nat) : (dset s k v).terms = s.terms := rfl
@[simp] theorem dset_hosts (k v : Nat) : (dset s k v).hosts = s.hosts := rfl
@[simp] theorem dset_conns (k v : Nat) : (dset s k v).conns = s.conns := rfl
@[simp] theorem dset_queues (k v : Nat) : (dset s k v).queues = s.queues := rfl
@[simp] theorem dset_mwins (k v : Nat) : (dset s k v).mwins = s.mwins := rfl
@[simp] theorem dset_objs (k v : Nat) : (dset s k v).objs = s.objs := rfl
@[simp] theorem dset_rdmas (k v : Nat) : (dset s k v).rdmas = s.rdmas := rfl
@[simp] theorem dset_lease (k v : Nat) : (dset s k v).lease = s.lease := rfl
@[simp] theorem dset_hlink (k v : Nat) : (dset s k v).hlink = s.hlink := rfl
@[simp] theorem dset_ptp (k v : Nat) : (dset s k v).ptp = s.ptp := rfl
@[simp] theorem dset_ecatLink (k v : Nat) : (dset s k v).ecatLink = s.ecatLink := rfl
@[simp] theorem dset_sampled (k v : Nat) : (dset s k v).sampled = s.sampled := rfl
@[simp] theorem dset_gates (k v : Nat) : (dset s k v).gates = s.gates := rfl
@[simp] theorem dset_srcs (k v : Nat) : (dset s k v).srcs = s.srcs := rfl
@[simp] theorem dset_bell (k v : Nat) : (dset s k v).bell = s.bell := rfl
@[simp] theorem dset_entries (k v : Nat) : (dset s k v).entries = s.entries := rfl
@[simp] theorem dset_tts (k v : Nat) : (dset s k v).tts = s.tts := rfl
@[simp] theorem dset_due (k v : Nat) : (dset s k v).due = s.due := rfl
@[simp] theorem dset_tports (k v : Nat) : (dset s k v).tports = s.tports := rfl
@[simp] theorem dset_chans (k v : Nat) : (dset s k v).chans = s.chans := rfl
@[simp] theorem dset_roll (k v : Nat) : (dset s k v).roll = s.roll := rfl
@[simp] theorem dset_attest (k v : Nat) : (dset s k v).attest = s.attest := rfl
@[simp] theorem dset_sramErr (k v : Nat) : (dset s k v).sramErr = s.sramErr := rfl
@[simp] theorem dset_linkCe (k v : Nat) : (dset s k v).linkCe = s.linkCe := rfl
@[simp] theorem dset_scan (k v : Nat) : (dset s k v).scan = s.scan := rfl
@[simp] theorem dset_out (k v : Nat) : (dset s k v).out = s.out := rfl
@[simp] theorem dset_dict (k v : Nat) : (dset s k v).dict = sset 0 s.dict k v := rfl

/-! ### emit -/

@[simp] theorem emit_pending (o : Out) : (emit s o).pending = s.pending := rfl
@[simp] theorem emit_fclk (o : Out) : (emit s o).fclk = s.fclk := rfl
@[simp] theorem emit_fuse (o : Out) : (emit s o).fuse = s.fuse := rfl
@[simp] theorem emit_free (o : Out) : (emit s o).free = s.free := rfl
@[simp] theorem emit_power (o : Out) : (emit s o).power = s.power := rfl
@[simp] theorem emit_boot (o : Out) : (emit s o).boot = s.boot := rfl
@[simp] theorem emit_clk (o : Out) : (emit s o).clk = s.clk := rfl
@[simp] theorem emit_health (o : Out) : (emit s o).health = s.health := rfl
@[simp] theorem emit_wings (o : Out) : (emit s o).wings = s.wings := rfl
@[simp] theorem emit_pchans (o : Out) : (emit s o).pchans = s.pchans := rfl
@[simp] theorem emit_hbm (o : Out) : (emit s o).hbm = s.hbm := rfl
@[simp] theorem emit_hbmBad (o : Out) : (emit s o).hbmBad = s.hbmBad := rfl
@[simp] theorem emit_dict (o : Out) : (emit s o).dict = s.dict := rfl
@[simp] theorem emit_ctxs (o : Out) : (emit s o).ctxs = s.ctxs := rfl
@[simp] theorem emit_cus (o : Out) : (emit s o).cus = s.cus := rfl
@[simp] theorem emit_mus (o : Out) : (emit s o).mus = s.mus := rfl
@[simp] theorem emit_sws (o : Out) : (emit s o).sws = s.sws := rfl
@[simp] theorem emit_wires (o : Out) : (emit s o).wires = s.wires := rfl
@[simp] theorem emit_credits (o : Out) : (emit s o).credits = s.credits := rfl
@[simp] theorem emit_ring (o : Out) : (emit s o).ring = s.ring := rfl
@[simp] theorem emit_gridIn (o : Out) : (emit s o).gridIn = s.gridIn := rfl
@[simp] theorem emit_ctl (o : Out) : (emit s o).ctl = s.ctl := rfl
@[simp] theorem emit_mesh (o : Out) : (emit s o).mesh = s.mesh := rfl
@[simp] theorem emit_flying (o : Out) : (emit s o).flying = s.flying := rfl
@[simp] theorem emit_terms (o : Out) : (emit s o).terms = s.terms := rfl
@[simp] theorem emit_hosts (o : Out) : (emit s o).hosts = s.hosts := rfl
@[simp] theorem emit_conns (o : Out) : (emit s o).conns = s.conns := rfl
@[simp] theorem emit_queues (o : Out) : (emit s o).queues = s.queues := rfl
@[simp] theorem emit_mwins (o : Out) : (emit s o).mwins = s.mwins := rfl
@[simp] theorem emit_objs (o : Out) : (emit s o).objs = s.objs := rfl
@[simp] theorem emit_rdmas (o : Out) : (emit s o).rdmas = s.rdmas := rfl
@[simp] theorem emit_lease (o : Out) : (emit s o).lease = s.lease := rfl
@[simp] theorem emit_hlink (o : Out) : (emit s o).hlink = s.hlink := rfl
@[simp] theorem emit_ptp (o : Out) : (emit s o).ptp = s.ptp := rfl
@[simp] theorem emit_ecatLink (o : Out) : (emit s o).ecatLink = s.ecatLink := rfl
@[simp] theorem emit_sampled (o : Out) : (emit s o).sampled = s.sampled := rfl
@[simp] theorem emit_gates (o : Out) : (emit s o).gates = s.gates := rfl
@[simp] theorem emit_srcs (o : Out) : (emit s o).srcs = s.srcs := rfl
@[simp] theorem emit_bell (o : Out) : (emit s o).bell = s.bell := rfl
@[simp] theorem emit_entries (o : Out) : (emit s o).entries = s.entries := rfl
@[simp] theorem emit_tts (o : Out) : (emit s o).tts = s.tts := rfl
@[simp] theorem emit_due (o : Out) : (emit s o).due = s.due := rfl
@[simp] theorem emit_tports (o : Out) : (emit s o).tports = s.tports := rfl
@[simp] theorem emit_chans (o : Out) : (emit s o).chans = s.chans := rfl
@[simp] theorem emit_roll (o : Out) : (emit s o).roll = s.roll := rfl
@[simp] theorem emit_attest (o : Out) : (emit s o).attest = s.attest := rfl
@[simp] theorem emit_sramErr (o : Out) : (emit s o).sramErr = s.sramErr := rfl
@[simp] theorem emit_linkCe (o : Out) : (emit s o).linkCe = s.linkCe := rfl
@[simp] theorem emit_scan (o : Out) : (emit s o).scan = s.scan := rfl
@[simp] theorem emit_out (o : Out) : (emit s o).out = o :: s.out := rfl

/-! ### bump -/

@[simp] theorem bump_pending (k n : Nat) : (bump s k n).pending = s.pending := rfl
@[simp] theorem bump_fclk (k n : Nat) : (bump s k n).fclk = s.fclk := rfl
@[simp] theorem bump_fuse (k n : Nat) : (bump s k n).fuse = s.fuse := rfl
@[simp] theorem bump_free (k n : Nat) : (bump s k n).free = s.free := rfl
@[simp] theorem bump_power (k n : Nat) : (bump s k n).power = s.power := rfl
@[simp] theorem bump_boot (k n : Nat) : (bump s k n).boot = s.boot := rfl
@[simp] theorem bump_clk (k n : Nat) : (bump s k n).clk = s.clk := rfl
@[simp] theorem bump_health (k n : Nat) : (bump s k n).health = s.health := rfl
@[simp] theorem bump_wings (k n : Nat) : (bump s k n).wings = s.wings := rfl
@[simp] theorem bump_pchans (k n : Nat) : (bump s k n).pchans = s.pchans := rfl
@[simp] theorem bump_hbm (k n : Nat) : (bump s k n).hbm = s.hbm := rfl
@[simp] theorem bump_hbmBad (k n : Nat) : (bump s k n).hbmBad = s.hbmBad := rfl
@[simp] theorem bump_ctxs (k n : Nat) : (bump s k n).ctxs = s.ctxs := rfl
@[simp] theorem bump_cus (k n : Nat) : (bump s k n).cus = s.cus := rfl
@[simp] theorem bump_mus (k n : Nat) : (bump s k n).mus = s.mus := rfl
@[simp] theorem bump_sws (k n : Nat) : (bump s k n).sws = s.sws := rfl
@[simp] theorem bump_wires (k n : Nat) : (bump s k n).wires = s.wires := rfl
@[simp] theorem bump_credits (k n : Nat) : (bump s k n).credits = s.credits := rfl
@[simp] theorem bump_ring (k n : Nat) : (bump s k n).ring = s.ring := rfl
@[simp] theorem bump_gridIn (k n : Nat) : (bump s k n).gridIn = s.gridIn := rfl
@[simp] theorem bump_ctl (k n : Nat) : (bump s k n).ctl = s.ctl := rfl
@[simp] theorem bump_mesh (k n : Nat) : (bump s k n).mesh = s.mesh := rfl
@[simp] theorem bump_flying (k n : Nat) : (bump s k n).flying = s.flying := rfl
@[simp] theorem bump_terms (k n : Nat) : (bump s k n).terms = s.terms := rfl
@[simp] theorem bump_hosts (k n : Nat) : (bump s k n).hosts = s.hosts := rfl
@[simp] theorem bump_conns (k n : Nat) : (bump s k n).conns = s.conns := rfl
@[simp] theorem bump_queues (k n : Nat) : (bump s k n).queues = s.queues := rfl
@[simp] theorem bump_mwins (k n : Nat) : (bump s k n).mwins = s.mwins := rfl
@[simp] theorem bump_objs (k n : Nat) : (bump s k n).objs = s.objs := rfl
@[simp] theorem bump_rdmas (k n : Nat) : (bump s k n).rdmas = s.rdmas := rfl
@[simp] theorem bump_lease (k n : Nat) : (bump s k n).lease = s.lease := rfl
@[simp] theorem bump_hlink (k n : Nat) : (bump s k n).hlink = s.hlink := rfl
@[simp] theorem bump_ptp (k n : Nat) : (bump s k n).ptp = s.ptp := rfl
@[simp] theorem bump_ecatLink (k n : Nat) : (bump s k n).ecatLink = s.ecatLink := rfl
@[simp] theorem bump_sampled (k n : Nat) : (bump s k n).sampled = s.sampled := rfl
@[simp] theorem bump_gates (k n : Nat) : (bump s k n).gates = s.gates := rfl
@[simp] theorem bump_srcs (k n : Nat) : (bump s k n).srcs = s.srcs := rfl
@[simp] theorem bump_bell (k n : Nat) : (bump s k n).bell = s.bell := rfl
@[simp] theorem bump_entries (k n : Nat) : (bump s k n).entries = s.entries := rfl
@[simp] theorem bump_tts (k n : Nat) : (bump s k n).tts = s.tts := rfl
@[simp] theorem bump_due (k n : Nat) : (bump s k n).due = s.due := rfl
@[simp] theorem bump_tports (k n : Nat) : (bump s k n).tports = s.tports := rfl
@[simp] theorem bump_chans (k n : Nat) : (bump s k n).chans = s.chans := rfl
@[simp] theorem bump_roll (k n : Nat) : (bump s k n).roll = s.roll := rfl
@[simp] theorem bump_attest (k n : Nat) : (bump s k n).attest = s.attest := rfl
@[simp] theorem bump_sramErr (k n : Nat) : (bump s k n).sramErr = s.sramErr := rfl
@[simp] theorem bump_linkCe (k n : Nat) : (bump s k n).linkCe = s.linkCe := rfl
@[simp] theorem bump_scan (k n : Nat) : (bump s k n).scan = s.scan := rfl
@[simp] theorem bump_out (k n : Nat) : (bump s k n).out = s.out := rfl
@[simp] theorem bump_dict (k n : Nat) : (bump s k n).dict = sset 0 s.dict k (satAdd 32 (dget s k) n) := rfl

@[simp] theorem dget_dset (k v : Nat) : dget (dset s k v) k = v := sget_sset_self ..
theorem dget_dset_ne {k j : Nat} (h : j ≠ k) (v : Nat) : dget (dset s k v) j = dget s j := sget_sset_ne _ _ _ h
@[simp] theorem dget_bump (k n : Nat) : dget (bump s k n) k = satAdd 32 (dget s k) n := sget_sset_self ..
theorem dget_bump_ne {k j : Nat} (h : j ≠ k) (n : Nat) : dget (bump s k n) j = dget s j := sget_sset_ne _ _ _ h

/-- An item that a wing list of four holds. -/
theorem wingOf_setWing {w : Nat} (x : Wing) (h : w < s.wings.length) : wingOf (setWing s w x) w = x := by
  simp [wingOf, List.getD, h]
theorem wingOf_setWing_ne {w v : Nat} (x : Wing) (h : v ≠ w) : wingOf (setWing s w x) v = wingOf s v := by
  simp [wingOf, List.getD, List.getElem?_set_ne (Ne.symm h)]

/-! ### Lookups look at one field -/

theorem ctxOf_congr {s t : State} (h : t.ctxs = s.ctxs) (c : Nat) : ctxOf t c = ctxOf s c := by simp [ctxOf, h]
theorem cuOf_congr {s t : State} (h : t.cus = s.cus) (k : Nat) : cuOf t k = cuOf s k := by simp [cuOf, h]
theorem muOf_congr {s t : State} (h : t.mus = s.mus) (k : Nat) : muOf t k = muOf s k := by simp [muOf, h]
theorem swOf_congr {s t : State} (h : t.sws = s.sws) (k : Nat) : swOf t k = swOf s k := by simp [swOf, h]
theorem objOf_congr {s t : State} (h : t.objs = s.objs) (o : Nat) : objOf t o = objOf s o := by simp [objOf, h]
theorem queueOf_congr {s t : State} (h : t.queues = s.queues) (q : Nat) : queueOf t q = queueOf s q := by simp [queueOf, h]
theorem connOf_congr {s t : State} (h : t.conns = s.conns) (n : Nat) : connOf t n = connOf s n := by simp [connOf, h]
theorem hostOf_congr {s t : State} (h : t.hosts = s.hosts) (k : Nat) : hostOf t k = hostOf s k := by simp [hostOf, h]
theorem mwinOf_congr {s t : State} (h : t.mwins = s.mwins) (w : Nat) : mwinOf t w = mwinOf s w := by simp [mwinOf, h]
theorem srcOf_congr {s t : State} (h : t.srcs = s.srcs) (i : Nat) : srcOf t i = srcOf s i := by simp [srcOf, h]
theorem ttOf_congr {s t : State} (h : t.tts = s.tts) (k : Nat) : ttOf t k = ttOf s k := by simp [ttOf, h]
theorem tportOf_congr {s t : State} (h : t.tports = s.tports) (p : Nat) : tportOf t p = tportOf s p := by simp [tportOf, h]
theorem chanOf_congr {s t : State} (h : t.chans = s.chans) (c : Nat) : chanOf t c = chanOf s c := by simp [chanOf, h]
theorem ptpOf_congr {s t : State} (h : t.ptp = s.ptp) (n : Nat) : ptpOf t n = ptpOf s n := by simp [ptpOf, h]
theorem dget_congr {s t : State} (h : t.dict = s.dict) (k : Nat) : dget t k = dget s k := by simp [dget, h]
theorem wingOf_congr {s t : State} (h : t.wings = s.wings) (w : Nat) : wingOf t w = wingOf s w := by simp [wingOf, h]

end Sys2Proof.Machine
end

