-- ==== Sys2Proof/Laws/Ops.lean ====
section
/-! SUPPORT. What the shared operations do: events on queues touch only queues and what leaves the block; an emergency and what
follows from the state after a command touch only health, gates, timetables and the dictionary. -/

namespace Sys2Proof.Machine

/-! ## Events (R380 to R382) -/

/-- Writing held events changes queues and what leaves the block. -/
theorem qPump_form (k n : Nat) (s : State) : ∃ q o, qPump k n s = { s with queues := q, out := o } := by
  induction k generalizing s with
  | zero => exact ⟨s.queues, s.out, rfl⟩
  | succ k ih =>
    unfold qPump
    simp only
    split
    · exact ⟨s.queues, s.out, rfl⟩
    · split
      · obtain ⟨q, o, h⟩ := ih (qWrite s n _ _)
        exact ⟨q, o, by rw [h]; rfl⟩
      · exact ⟨s.queues, s.out, rfl⟩

/-- Posting an event changes queues and what leaves the block. -/
theorem post_form (s : State) (n : Nat) (e : EvRec) : ∃ q o, post s n e = { s with queues := q, out := o } := by
  unfold post
  simp only
  split
  · exact ⟨s.queues, s.out, rfl⟩
  · split
    · obtain ⟨q, o, h⟩ := qPump_form ((queueOf s n).held.length + 2) n (setQueue s n _)
      exact ⟨q, o, by rw [h]; rfl⟩
    · exact ⟨_, s.out, rfl⟩

theorem completeF_form (s : State) (c : CmdRef) (x st : Nat) (w : W16) (fl d : Nat) :
    ∃ q o, completeF s c x st w fl d = { s with queues := q, out := o } := by
  unfold completeF
  split
  · exact ⟨s.queues, s.out, rfl⟩
  · exact post_form ..

/-- A completion changes queues and what leaves the block. -/
theorem complete_form (s : State) (c : CmdRef) (x st d : Nat) : ∃ q o, complete s c x st d = { s with queues := q, out := o } :=
  completeF_form ..

/-- An event of a host on its own queue changes queues and what leaves the block. -/
theorem postOwn_form (s : State) (n h : Nat) (e : EvRec) : ∃ q o, postOwn s n h e = { s with queues := q, out := o } := by
  unfold postOwn
  split
  · exact post_form ..
  · exact ⟨s.queues, s.out, rfl⟩

theorem ctxEvent_form (s : State) (c k : Nat) (w : W16) (fl d : Nat) :
    ∃ q o, ctxEvent s c k w fl d = { s with queues := q, out := o } := postOwn_form ..


/-! ### qPump -/

@[simp] theorem qPump_pending (k n : Nat) (s : State) : (qPump k n s).pending = s.pending := by
  obtain ⟨q, o, h⟩ := qPump_form k n s; rw [h]
@[simp] theorem qPump_fclk (k n : Nat) (s : State) : (qPump k n s).fclk = s.fclk := by
  obtain ⟨q, o, h⟩ := qPump_form k n s; rw [h]
@[simp] theorem qPump_fuse (k n : Nat) (s : State) : (qPump k n s).fuse = s.fuse := by
  obtain ⟨q, o, h⟩ := qPump_form k n s; rw [h]
@[simp] theorem qPump_free (k n : Nat) (s : State) : (qPump k n s).free = s.free := by
  obtain ⟨q, o, h⟩ := qPump_form k n s; rw [h]
@[simp] theorem qPump_power (k n : Nat) (s : State) : (qPump k n s).power = s.power := by
  obtain ⟨q, o, h⟩ := qPump_form k n s; rw [h]
@[simp] theorem qPump_boot (k n : Nat) (s : State) : (qPump k n s).boot = s.boot := by
  obtain ⟨q, o, h⟩ := qPump_form k n s; rw [h]
@[simp] theorem qPump_clk (k n : Nat) (s : State) : (qPump k n s).clk = s.clk := by
  obtain ⟨q, o, h⟩ := qPump_form k n s; rw [h]
@[simp] theorem qPump_health (k n : Nat) (s : State) : (qPump k n s).health = s.health := by
  obtain ⟨q, o, h⟩ := qPump_form k n s; rw [h]
@[simp] theorem qPump_wings (k n : Nat) (s : State) : (qPump k n s).wings = s.wings := by
  obtain ⟨q, o, h⟩ := qPump_form k n s; rw [h]
@[simp] theorem qPump_pchans (k n : Nat) (s : State) : (qPump k n s).pchans = s.pchans := by
  obtain ⟨q, o, h⟩ := qPump_form k n s; rw [h]
@[simp] theorem qPump_hbm (k n : Nat) (s : State) : (qPump k n s).hbm = s.hbm := by
  obtain ⟨q, o, h⟩ := qPump_form k n s; rw [h]
@[simp] theorem qPump_hbmBad (k n : Nat) (s : State) : (qPump k n s).hbmBad = s.hbmBad := by
  obtain ⟨q, o, h⟩ := qPump_form k n s; rw [h]
@[simp] theorem qPump_dict (k n : Nat) (s : State) : (qPump k n s).dict = s.dict := by
  obtain ⟨q, o, h⟩ := qPump_form k n s; rw [h]
@[simp] theorem qPump_ctxs (k n : Nat) (s : State) : (qPump k n s).ctxs = s.ctxs := by
  obtain ⟨q, o, h⟩ := qPump_form k n s; rw [h]
@[simp] theorem qPump_cus (k n : Nat) (s : State) : (qPump k n s).cus = s.cus := by
  obtain ⟨q, o, h⟩ := qPump_form k n s; rw [h]
@[simp] theorem qPump_mus (k n : Nat) (s : State) : (qPump k n s).mus = s.mus := by
  obtain ⟨q, o, h⟩ := qPump_form k n s; rw [h]
@[simp] theorem qPump_sws (k n : Nat) (s : State) : (qPump k n s).sws = s.sws := by
  obtain ⟨q, o, h⟩ := qPump_form k n s; rw [h]
@[simp] theorem qPump_wires (k n : Nat) (s : State) : (qPump k n s).wires = s.wires := by
  obtain ⟨q, o, h⟩ := qPump_form k n s; rw [h]
@[simp] theorem qPump_credits (k n : Nat) (s : State) : (qPump k n s).credits = s.credits := by
  obtain ⟨q, o, h⟩ := qPump_form k n s; rw [h]
@[simp] theorem qPump_ring (k n : Nat) (s : State) : (qPump k n s).ring = s.ring := by
  obtain ⟨q, o, h⟩ := qPump_form k n s; rw [h]
@[simp] theorem qPump_gridIn (k n : Nat) (s : State) : (qPump k n s).gridIn = s.gridIn := by
  obtain ⟨q, o, h⟩ := qPump_form k n s; rw [h]
@[simp] theorem qPump_ctl (k n : Nat) (s : State) : (qPump k n s).ctl = s.ctl := by
  obtain ⟨q, o, h⟩ := qPump_form k n s; rw [h]
@[simp] theorem qPump_mesh (k n : Nat) (s : State) : (qPump k n s).mesh = s.mesh := by
  obtain ⟨q, o, h⟩ := qPump_form k n s; rw [h]
@[simp] theorem qPump_flying (k n : Nat) (s : State) : (qPump k n s).flying = s.flying := by
  obtain ⟨q, o, h⟩ := qPump_form k n s; rw [h]
@[simp] theorem qPump_terms (k n : Nat) (s : State) : (qPump k n s).terms = s.terms := by
  obtain ⟨q, o, h⟩ := qPump_form k n s; rw [h]
@[simp] theorem qPump_hosts (k n : Nat) (s : State) : (qPump k n s).hosts = s.hosts := by
  obtain ⟨q, o, h⟩ := qPump_form k n s; rw [h]
@[simp] theorem qPump_conns (k n : Nat) (s : State) : (qPump k n s).conns = s.conns := by
  obtain ⟨q, o, h⟩ := qPump_form k n s; rw [h]
@[simp] theorem qPump_mwins (k n : Nat) (s : State) : (qPump k n s).mwins = s.mwins := by
  obtain ⟨q, o, h⟩ := qPump_form k n s; rw [h]
@[simp] theorem qPump_objs (k n : Nat) (s : State) : (qPump k n s).objs = s.objs := by
  obtain ⟨q, o, h⟩ := qPump_form k n s; rw [h]
@[simp] theorem qPump_rdmas (k n : Nat) (s : State) : (qPump k n s).rdmas = s.rdmas := by
  obtain ⟨q, o, h⟩ := qPump_form k n s; rw [h]
@[simp] theorem qPump_lease (k n : Nat) (s : State) : (qPump k n s).lease = s.lease := by
  obtain ⟨q, o, h⟩ := qPump_form k n s; rw [h]
@[simp] theorem qPump_hlink (k n : Nat) (s : State) : (qPump k n s).hlink = s.hlink := by
  obtain ⟨q, o, h⟩ := qPump_form k n s; rw [h]
@[simp] theorem qPump_ptp (k n : Nat) (s : State) : (qPump k n s).ptp = s.ptp := by
  obtain ⟨q, o, h⟩ := qPump_form k n s; rw [h]
@[simp] theorem qPump_ecatLink (k n : Nat) (s : State) : (qPump k n s).ecatLink = s.ecatLink := by
  obtain ⟨q, o, h⟩ := qPump_form k n s; rw [h]
@[simp] theorem qPump_sampled (k n : Nat) (s : State) : (qPump k n s).sampled = s.sampled := by
  obtain ⟨q, o, h⟩ := qPump_form k n s; rw [h]
@[simp] theorem qPump_gates (k n : Nat) (s : State) : (qPump k n s).gates = s.gates := by
  obtain ⟨q, o, h⟩ := qPump_form k n s; rw [h]
@[simp] theorem qPump_srcs (k n : Nat) (s : State) : (qPump k n s).srcs = s.srcs := by
  obtain ⟨q, o, h⟩ := qPump_form k n s; rw [h]
@[simp] theorem qPump_bell (k n : Nat) (s : State) : (qPump k n s).bell = s.bell := by
  obtain ⟨q, o, h⟩ := qPump_form k n s; rw [h]
@[simp] theorem qPump_entries (k n : Nat) (s : State) : (qPump k n s).entries = s.entries := by
  obtain ⟨q, o, h⟩ := qPump_form k n s; rw [h]
@[simp] theorem qPump_tts (k n : Nat) (s : State) : (qPump k n s).tts = s.tts := by
  obtain ⟨q, o, h⟩ := qPump_form k n s; rw [h]
@[simp] theorem qPump_due (k n : Nat) (s : State) : (qPump k n s).due = s.due := by
  obtain ⟨q, o, h⟩ := qPump_form k n s; rw [h]
@[simp] theorem qPump_tports (k n : Nat) (s : State) : (qPump k n s).tports = s.tports := by
  obtain ⟨q, o, h⟩ := qPump_form k n s; rw [h]
@[simp] theorem qPump_chans (k n : Nat) (s : State) : (qPump k n s).chans = s.chans := by
  obtain ⟨q, o, h⟩ := qPump_form k n s; rw [h]
@[simp] theorem qPump_roll (k n : Nat) (s : State) : (qPump k n s).roll = s.roll := by
  obtain ⟨q, o, h⟩ := qPump_form k n s; rw [h]
@[simp] theorem qPump_attest (k n : Nat) (s : State) : (qPump k n s).attest = s.attest := by
  obtain ⟨q, o, h⟩ := qPump_form k n s; rw [h]
@[simp] theorem qPump_sramErr (k n : Nat) (s : State) : (qPump k n s).sramErr = s.sramErr := by
  obtain ⟨q, o, h⟩ := qPump_form k n s; rw [h]
@[simp] theorem qPump_linkCe (k n : Nat) (s : State) : (qPump k n s).linkCe = s.linkCe := by
  obtain ⟨q, o, h⟩ := qPump_form k n s; rw [h]
@[simp] theorem qPump_scan (k n : Nat) (s : State) : (qPump k n s).scan = s.scan := by
  obtain ⟨q, o, h⟩ := qPump_form k n s; rw [h]

/-! ### post -/

@[simp] theorem post_pending (s : State) (n : Nat) (e : EvRec) : (post s n e).pending = s.pending := by
  obtain ⟨q, o, h⟩ := post_form s n e; rw [h]
@[simp] theorem post_fclk (s : State) (n : Nat) (e : EvRec) : (post s n e).fclk = s.fclk := by
  obtain ⟨q, o, h⟩ := post_form s n e; rw [h]
@[simp] theorem post_fuse (s : State) (n : Nat) (e : EvRec) : (post s n e).fuse = s.fuse := by
  obtain ⟨q, o, h⟩ := post_form s n e; rw [h]
@[simp] theorem post_free (s : State) (n : Nat) (e : EvRec) : (post s n e).free = s.free := by
  obtain ⟨q, o, h⟩ := post_form s n e; rw [h]
@[simp] theorem post_power (s : State) (n : Nat) (e : EvRec) : (post s n e).power = s.power := by
  obtain ⟨q, o, h⟩ := post_form s n e; rw [h]
@[simp] theorem post_boot (s : State) (n : Nat) (e : EvRec) : (post s n e).boot = s.boot := by
  obtain ⟨q, o, h⟩ := post_form s n e; rw [h]
@[simp] theorem post_clk (s : State) (n : Nat) (e : EvRec) : (post s n e).clk = s.clk := by
  obtain ⟨q, o, h⟩ := post_form s n e; rw [h]
@[simp] theorem post_health (s : State) (n : Nat) (e : EvRec) : (post s n e).health = s.health := by
  obtain ⟨q, o, h⟩ := post_form s n e; rw [h]
@[simp] theorem post_wings (s : State) (n : Nat) (e : EvRec) : (post s n e).wings = s.wings := by
  obtain ⟨q, o, h⟩ := post_form s n e; rw [h]
@[simp] theorem post_pchans (s : State) (n : Nat) (e : EvRec) : (post s n e).pchans = s.pchans := by
  obtain ⟨q, o, h⟩ := post_form s n e; rw [h]
@[simp] theorem post_hbm (s : State) (n : Nat) (e : EvRec) : (post s n e).hbm = s.hbm := by
  obtain ⟨q, o, h⟩ := post_form s n e; rw [h]
@[simp] theorem post_hbmBad (s : State) (n : Nat) (e : EvRec) : (post s n e).hbmBad = s.hbmBad := by
  obtain ⟨q, o, h⟩ := post_form s n e; rw [h]
@[simp] theorem post_dict (s : State) (n : Nat) (e : EvRec) : (post s n e).dict = s.dict := by
  obtain ⟨q, o, h⟩ := post_form s n e; rw [h]
@[simp] theorem post_ctxs (s : State) (n : Nat) (e : EvRec) : (post s n e).ctxs = s.ctxs := by
  obtain ⟨q, o, h⟩ := post_form s n e; rw [h]
@[simp] theorem post_cus (s : State) (n : Nat) (e : EvRec) : (post s n e).cus = s.cus := by
  obtain ⟨q, o, h⟩ := post_form s n e; rw [h]
@[simp] theorem post_mus (s : State) (n : Nat) (e : EvRec) : (post s n e).mus = s.mus := by
  obtain ⟨q, o, h⟩ := post_form s n e; rw [h]
@[simp] theorem post_sws (s : State) (n : Nat) (e : EvRec) : (post s n e).sws = s.sws := by
  obtain ⟨q, o, h⟩ := post_form s n e; rw [h]
@[simp] theorem post_wires (s : State) (n : Nat) (e : EvRec) : (post s n e).wires = s.wires := by
  obtain ⟨q, o, h⟩ := post_form s n e; rw [h]
@[simp] theorem post_credits (s : State) (n : Nat) (e : EvRec) : (post s n e).credits = s.credits := by
  obtain ⟨q, o, h⟩ := post_form s n e; rw [h]
@[simp] theorem post_ring (s : State) (n : Nat) (e : EvRec) : (post s n e).ring = s.ring := by
  obtain ⟨q, o, h⟩ := post_form s n e; rw [h]
@[simp] theorem post_gridIn (s : State) (n : Nat) (e : EvRec) : (post s n e).gridIn = s.gridIn := by
  obtain ⟨q, o, h⟩ := post_form s n e; rw [h]
@[simp] theorem post_ctl (s : State) (n : Nat) (e : EvRec) : (post s n e).ctl = s.ctl := by
  obtain ⟨q, o, h⟩ := post_form s n e; rw [h]
@[simp] theorem post_mesh (s : State) (n : Nat) (e : EvRec) : (post s n e).mesh = s.mesh := by
  obtain ⟨q, o, h⟩ := post_form s n e; rw [h]
@[simp] theorem post_flying (s : State) (n : Nat) (e : EvRec) : (post s n e).flying = s.flying := by
  obtain ⟨q, o, h⟩ := post_form s n e; rw [h]
@[simp] theorem post_terms (s : State) (n : Nat) (e : EvRec) : (post s n e).terms = s.terms := by
  obtain ⟨q, o, h⟩ := post_form s n e; rw [h]
@[simp] theorem post_hosts (s : State) (n : Nat) (e : EvRec) : (post s n e).hosts = s.hosts := by
  obtain ⟨q, o, h⟩ := post_form s n e; rw [h]
@[simp] theorem post_conns (s : State) (n : Nat) (e : EvRec) : (post s n e).conns = s.conns := by
  obtain ⟨q, o, h⟩ := post_form s n e; rw [h]
@[simp] theorem post_mwins (s : State) (n : Nat) (e : EvRec) : (post s n e).mwins = s.mwins := by
  obtain ⟨q, o, h⟩ := post_form s n e; rw [h]
@[simp] theorem post_objs (s : State) (n : Nat) (e : EvRec) : (post s n e).objs = s.objs := by
  obtain ⟨q, o, h⟩ := post_form s n e; rw [h]
@[simp] theorem post_rdmas (s : State) (n : Nat) (e : EvRec) : (post s n e).rdmas = s.rdmas := by
  obtain ⟨q, o, h⟩ := post_form s n e; rw [h]
@[simp] theorem post_lease (s : State) (n : Nat) (e : EvRec) : (post s n e).lease = s.lease := by
  obtain ⟨q, o, h⟩ := post_form s n e; rw [h]
@[simp] theorem post_hlink (s : State) (n : Nat) (e : EvRec) : (post s n e).hlink = s.hlink := by
  obtain ⟨q, o, h⟩ := post_form s n e; rw [h]
@[simp] theorem post_ptp (s : State) (n : Nat) (e : EvRec) : (post s n e).ptp = s.ptp := by
  obtain ⟨q, o, h⟩ := post_form s n e; rw [h]
@[simp] theorem post_ecatLink (s : State) (n : Nat) (e : EvRec) : (post s n e).ecatLink = s.ecatLink := by
  obtain ⟨q, o, h⟩ := post_form s n e; rw [h]
@[simp] theorem post_sampled (s : State) (n : Nat) (e : EvRec) : (post s n e).sampled = s.sampled := by
  obtain ⟨q, o, h⟩ := post_form s n e; rw [h]
@[simp] theorem post_gates (s : State) (n : Nat) (e : EvRec) : (post s n e).gates = s.gates := by
  obtain ⟨q, o, h⟩ := post_form s n e; rw [h]
@[simp] theorem post_srcs (s : State) (n : Nat) (e : EvRec) : (post s n e).srcs = s.srcs := by
  obtain ⟨q, o, h⟩ := post_form s n e; rw [h]
@[simp] theorem post_bell (s : State) (n : Nat) (e : EvRec) : (post s n e).bell = s.bell := by
  obtain ⟨q, o, h⟩ := post_form s n e; rw [h]
@[simp] theorem post_entries (s : State) (n : Nat) (e : EvRec) : (post s n e).entries = s.entries := by
  obtain ⟨q, o, h⟩ := post_form s n e; rw [h]
@[simp] theorem post_tts (s : State) (n : Nat) (e : EvRec) : (post s n e).tts = s.tts := by
  obtain ⟨q, o, h⟩ := post_form s n e; rw [h]
@[simp] theorem post_due (s : State) (n : Nat) (e : EvRec) : (post s n e).due = s.due := by
  obtain ⟨q, o, h⟩ := post_form s n e; rw [h]
@[simp] theorem post_tports (s : State) (n : Nat) (e : EvRec) : (post s n e).tports = s.tports := by
  obtain ⟨q, o, h⟩ := post_form s n e; rw [h]
@[simp] theorem post_chans (s : State) (n : Nat) (e : EvRec) : (post s n e).chans = s.chans := by
  obtain ⟨q, o, h⟩ := post_form s n e; rw [h]
@[simp] theorem post_roll (s : State) (n : Nat) (e : EvRec) : (post s n e).roll = s.roll := by
  obtain ⟨q, o, h⟩ := post_form s n e; rw [h]
@[simp] theorem post_attest (s : State) (n : Nat) (e : EvRec) : (post s n e).attest = s.attest := by
  obtain ⟨q, o, h⟩ := post_form s n e; rw [h]
@[simp] theorem post_sramErr (s : State) (n : Nat) (e : EvRec) : (post s n e).sramErr = s.sramErr := by
  obtain ⟨q, o, h⟩ := post_form s n e; rw [h]
@[simp] theorem post_linkCe (s : State) (n : Nat) (e : EvRec) : (post s n e).linkCe = s.linkCe := by
  obtain ⟨q, o, h⟩ := post_form s n e; rw [h]
@[simp] theorem post_scan (s : State) (n : Nat) (e : EvRec) : (post s n e).scan = s.scan := by
  obtain ⟨q, o, h⟩ := post_form s n e; rw [h]

/-! ### completeF -/

@[simp] theorem completeF_pending (s : State) (c : CmdRef) (x st : Nat) (w : W16) (fl d : Nat) : (completeF s c x st w fl d).pending = s.pending := by
  obtain ⟨q, o, h⟩ := completeF_form s c x st w fl d; rw [h]
@[simp] theorem completeF_fclk (s : State) (c : CmdRef) (x st : Nat) (w : W16) (fl d : Nat) : (completeF s c x st w fl d).fclk = s.fclk := by
  obtain ⟨q, o, h⟩ := completeF_form s c x st w fl d; rw [h]
@[simp] theorem completeF_fuse (s : State) (c : CmdRef) (x st : Nat) (w : W16) (fl d : Nat) : (completeF s c x st w fl d).fuse = s.fuse := by
  obtain ⟨q, o, h⟩ := completeF_form s c x st w fl d; rw [h]
@[simp] theorem completeF_free (s : State) (c : CmdRef) (x st : Nat) (w : W16) (fl d : Nat) : (completeF s c x st w fl d).free = s.free := by
  obtain ⟨q, o, h⟩ := completeF_form s c x st w fl d; rw [h]
@[simp] theorem completeF_power (s : State) (c : CmdRef) (x st : Nat) (w : W16) (fl d : Nat) : (completeF s c x st w fl d).power = s.power := by
  obtain ⟨q, o, h⟩ := completeF_form s c x st w fl d; rw [h]
@[simp] theorem completeF_boot (s : State) (c : CmdRef) (x st : Nat) (w : W16) (fl d : Nat) : (completeF s c x st w fl d).boot = s.boot := by
  obtain ⟨q, o, h⟩ := completeF_form s c x st w fl d; rw [h]
@[simp] theorem completeF_clk (s : State) (c : CmdRef) (x st : Nat) (w : W16) (fl d : Nat) : (completeF s c x st w fl d).clk = s.clk := by
  obtain ⟨q, o, h⟩ := completeF_form s c x st w fl d; rw [h]
@[simp] theorem completeF_health (s : State) (c : CmdRef) (x st : Nat) (w : W16) (fl d : Nat) : (completeF s c x st w fl d).health = s.health := by
  obtain ⟨q, o, h⟩ := completeF_form s c x st w fl d; rw [h]
@[simp] theorem completeF_wings (s : State) (c : CmdRef) (x st : Nat) (w : W16) (fl d : Nat) : (completeF s c x st w fl d).wings = s.wings := by
  obtain ⟨q, o, h⟩ := completeF_form s c x st w fl d; rw [h]
@[simp] theorem completeF_pchans (s : State) (c : CmdRef) (x st : Nat) (w : W16) (fl d : Nat) : (completeF s c x st w fl d).pchans = s.pchans := by
  obtain ⟨q, o, h⟩ := completeF_form s c x st w fl d; rw [h]
@[simp] theorem completeF_hbm (s : State) (c : CmdRef) (x st : Nat) (w : W16) (fl d : Nat) : (completeF s c x st w fl d).hbm = s.hbm := by
  obtain ⟨q, o, h⟩ := completeF_form s c x st w fl d; rw [h]
@[simp] theorem completeF_hbmBad (s : State) (c : CmdRef) (x st : Nat) (w : W16) (fl d : Nat) : (completeF s c x st w fl d).hbmBad = s.hbmBad := by
  obtain ⟨q, o, h⟩ := completeF_form s c x st w fl d; rw [h]
@[simp] theorem completeF_dict (s : State) (c : CmdRef) (x st : Nat) (w : W16) (fl d : Nat) : (completeF s c x st w fl d).dict = s.dict := by
  obtain ⟨q, o, h⟩ := completeF_form s c x st w fl d; rw [h]
@[simp] theorem completeF_ctxs (s : State) (c : CmdRef) (x st : Nat) (w : W16) (fl d : Nat) : (completeF s c x st w fl d).ctxs = s.ctxs := by
  obtain ⟨q, o, h⟩ := completeF_form s c x st w fl d; rw [h]
@[simp] theorem completeF_cus (s : State) (c : CmdRef) (x st : Nat) (w : W16) (fl d : Nat) : (completeF s c x st w fl d).cus = s.cus := by
  obtain ⟨q, o, h⟩ := completeF_form s c x st w fl d; rw [h]
@[simp] theorem completeF_mus (s : State) (c : CmdRef) (x st : Nat) (w : W16) (fl d : Nat) : (completeF s c x st w fl d).mus = s.mus := by
  obtain ⟨q, o, h⟩ := completeF_form s c x st w fl d; rw [h]
@[simp] theorem completeF_sws (s : State) (c : CmdRef) (x st : Nat) (w : W16) (fl d : Nat) : (completeF s c x st w fl d).sws = s.sws := by
  obtain ⟨q, o, h⟩ := completeF_form s c x st w fl d; rw [h]
@[simp] theorem completeF_wires (s : State) (c : CmdRef) (x st : Nat) (w : W16) (fl d : Nat) : (completeF s c x st w fl d).wires = s.wires := by
  obtain ⟨q, o, h⟩ := completeF_form s c x st w fl d; rw [h]
@[simp] theorem completeF_credits (s : State) (c : CmdRef) (x st : Nat) (w : W16) (fl d : Nat) : (completeF s c x st w fl d).credits = s.credits := by
  obtain ⟨q, o, h⟩ := completeF_form s c x st w fl d; rw [h]
@[simp] theorem completeF_ring (s : State) (c : CmdRef) (x st : Nat) (w : W16) (fl d : Nat) : (completeF s c x st w fl d).ring = s.ring := by
  obtain ⟨q, o, h⟩ := completeF_form s c x st w fl d; rw [h]
@[simp] theorem completeF_gridIn (s : State) (c : CmdRef) (x st : Nat) (w : W16) (fl d : Nat) : (completeF s c x st w fl d).gridIn = s.gridIn := by
  obtain ⟨q, o, h⟩ := completeF_form s c x st w fl d; rw [h]
@[simp] theorem completeF_ctl (s : State) (c : CmdRef) (x st : Nat) (w : W16) (fl d : Nat) : (completeF s c x st w fl d).ctl = s.ctl := by
  obtain ⟨q, o, h⟩ := completeF_form s c x st w fl d; rw [h]
@[simp] theorem completeF_mesh (s : State) (c : CmdRef) (x st : Nat) (w : W16) (fl d : Nat) : (completeF s c x st w fl d).mesh = s.mesh := by
  obtain ⟨q, o, h⟩ := completeF_form s c x st w fl d; rw [h]
@[simp] theorem completeF_flying (s : State) (c : CmdRef) (x st : Nat) (w : W16) (fl d : Nat) : (completeF s c x st w fl d).flying = s.flying := by
  obtain ⟨q, o, h⟩ := completeF_form s c x st w fl d; rw [h]
@[simp] theorem completeF_terms (s : State) (c : CmdRef) (x st : Nat) (w : W16) (fl d : Nat) : (completeF s c x st w fl d).terms = s.terms := by
  obtain ⟨q, o, h⟩ := completeF_form s c x st w fl d; rw [h]
@[simp] theorem completeF_hosts (s : State) (c : CmdRef) (x st : Nat) (w : W16) (fl d : Nat) : (completeF s c x st w fl d).hosts = s.hosts := by
  obtain ⟨q, o, h⟩ := completeF_form s c x st w fl d; rw [h]
@[simp] theorem completeF_conns (s : State) (c : CmdRef) (x st : Nat) (w : W16) (fl d : Nat) : (completeF s c x st w fl d).conns = s.conns := by
  obtain ⟨q, o, h⟩ := completeF_form s c x st w fl d; rw [h]
@[simp] theorem completeF_mwins (s : State) (c : CmdRef) (x st : Nat) (w : W16) (fl d : Nat) : (completeF s c x st w fl d).mwins = s.mwins := by
  obtain ⟨q, o, h⟩ := completeF_form s c x st w fl d; rw [h]
@[simp] theorem completeF_objs (s : State) (c : CmdRef) (x st : Nat) (w : W16) (fl d : Nat) : (completeF s c x st w fl d).objs = s.objs := by
  obtain ⟨q, o, h⟩ := completeF_form s c x st w fl d; rw [h]
@[simp] theorem completeF_rdmas (s : State) (c : CmdRef) (x st : Nat) (w : W16) (fl d : Nat) : (completeF s c x st w fl d).rdmas = s.rdmas := by
  obtain ⟨q, o, h⟩ := completeF_form s c x st w fl d; rw [h]
@[simp] theorem completeF_lease (s : State) (c : CmdRef) (x st : Nat) (w : W16) (fl d : Nat) : (completeF s c x st w fl d).lease = s.lease := by
  obtain ⟨q, o, h⟩ := completeF_form s c x st w fl d; rw [h]
@[simp] theorem completeF_hlink (s : State) (c : CmdRef) (x st : Nat) (w : W16) (fl d : Nat) : (completeF s c x st w fl d).hlink = s.hlink := by
  obtain ⟨q, o, h⟩ := completeF_form s c x st w fl d; rw [h]
@[simp] theorem completeF_ptp (s : State) (c : CmdRef) (x st : Nat) (w : W16) (fl d : Nat) : (completeF s c x st w fl d).ptp = s.ptp := by
  obtain ⟨q, o, h⟩ := completeF_form s c x st w fl d; rw [h]
@[simp] theorem completeF_ecatLink (s : State) (c : CmdRef) (x st : Nat) (w : W16) (fl d : Nat) : (completeF s c x st w fl d).ecatLink = s.ecatLink := by
  obtain ⟨q, o, h⟩ := completeF_form s c x st w fl d; rw [h]
@[simp] theorem completeF_sampled (s : State) (c : CmdRef) (x st : Nat) (w : W16) (fl d : Nat) : (completeF s c x st w fl d).sampled = s.sampled := by
  obtain ⟨q, o, h⟩ := completeF_form s c x st w fl d; rw [h]
@[simp] theorem completeF_gates (s : State) (c : CmdRef) (x st : Nat) (w : W16) (fl d : Nat) : (completeF s c x st w fl d).gates = s.gates := by
  obtain ⟨q, o, h⟩ := completeF_form s c x st w fl d; rw [h]
@[simp] theorem completeF_srcs (s : State) (c : CmdRef) (x st : Nat) (w : W16) (fl d : Nat) : (completeF s c x st w fl d).srcs = s.srcs := by
  obtain ⟨q, o, h⟩ := completeF_form s c x st w fl d; rw [h]
@[simp] theorem completeF_bell (s : State) (c : CmdRef) (x st : Nat) (w : W16) (fl d : Nat) : (completeF s c x st w fl d).bell = s.bell := by
  obtain ⟨q, o, h⟩ := completeF_form s c x st w fl d; rw [h]
@[simp] theorem completeF_entries (s : State) (c : CmdRef) (x st : Nat) (w : W16) (fl d : Nat) : (completeF s c x st w fl d).entries = s.entries := by
  obtain ⟨q, o, h⟩ := completeF_form s c x st w fl d; rw [h]
@[simp] theorem completeF_tts (s : State) (c : CmdRef) (x st : Nat) (w : W16) (fl d : Nat) : (completeF s c x st w fl d).tts = s.tts := by
  obtain ⟨q, o, h⟩ := completeF_form s c x st w fl d; rw [h]
@[simp] theorem completeF_due (s : State) (c : CmdRef) (x st : Nat) (w : W16) (fl d : Nat) : (completeF s c x st w fl d).due = s.due := by
  obtain ⟨q, o, h⟩ := completeF_form s c x st w fl d; rw [h]
@[simp] theorem completeF_tports (s : State) (c : CmdRef) (x st : Nat) (w : W16) (fl d : Nat) : (completeF s c x st w fl d).tports = s.tports := by
  obtain ⟨q, o, h⟩ := completeF_form s c x st w fl d; rw [h]
@[simp] theorem completeF_chans (s : State) (c : CmdRef) (x st : Nat) (w : W16) (fl d : Nat) : (completeF s c x st w fl d).chans = s.chans := by
  obtain ⟨q, o, h⟩ := completeF_form s c x st w fl d; rw [h]
@[simp] theorem completeF_roll (s : State) (c : CmdRef) (x st : Nat) (w : W16) (fl d : Nat) : (completeF s c x st w fl d).roll = s.roll := by
  obtain ⟨q, o, h⟩ := completeF_form s c x st w fl d; rw [h]
@[simp] theorem completeF_attest (s : State) (c : CmdRef) (x st : Nat) (w : W16) (fl d : Nat) : (completeF s c x st w fl d).attest = s.attest := by
  obtain ⟨q, o, h⟩ := completeF_form s c x st w fl d; rw [h]
@[simp] theorem completeF_sramErr (s : State) (c : CmdRef) (x st : Nat) (w : W16) (fl d : Nat) : (completeF s c x st w fl d).sramErr = s.sramErr := by
  obtain ⟨q, o, h⟩ := completeF_form s c x st w fl d; rw [h]
@[simp] theorem completeF_linkCe (s : State) (c : CmdRef) (x st : Nat) (w : W16) (fl d : Nat) : (completeF s c x st w fl d).linkCe = s.linkCe := by
  obtain ⟨q, o, h⟩ := completeF_form s c x st w fl d; rw [h]
@[simp] theorem completeF_scan (s : State) (c : CmdRef) (x st : Nat) (w : W16) (fl d : Nat) : (completeF s c x st w fl d).scan = s.scan := by
  obtain ⟨q, o, h⟩ := completeF_form s c x st w fl d; rw [h]

/-! ### complete -/

@[simp] theorem complete_pending (s : State) (c : CmdRef) (x st d : Nat) : (complete s c x st d).pending = s.pending := by
  obtain ⟨q, o, h⟩ := complete_form s c x st d; rw [h]
@[simp] theorem complete_fclk (s : State) (c : CmdRef) (x st d : Nat) : (complete s c x st d).fclk = s.fclk := by
  obtain ⟨q, o, h⟩ := complete_form s c x st d; rw [h]
@[simp] theorem complete_fuse (s : State) (c : CmdRef) (x st d : Nat) : (complete s c x st d).fuse = s.fuse := by
  obtain ⟨q, o, h⟩ := complete_form s c x st d; rw [h]
@[simp] theorem complete_free (s : State) (c : CmdRef) (x st d : Nat) : (complete s c x st d).free = s.free := by
  obtain ⟨q, o, h⟩ := complete_form s c x st d; rw [h]
@[simp] theorem complete_power (s : State) (c : CmdRef) (x st d : Nat) : (complete s c x st d).power = s.power := by
  obtain ⟨q, o, h⟩ := complete_form s c x st d; rw [h]
@[simp] theorem complete_boot (s : State) (c : CmdRef) (x st d : Nat) : (complete s c x st d).boot = s.boot := by
  obtain ⟨q, o, h⟩ := complete_form s c x st d; rw [h]
@[simp] theorem complete_clk (s : State) (c : CmdRef) (x st d : Nat) : (complete s c x st d).clk = s.clk := by
  obtain ⟨q, o, h⟩ := complete_form s c x st d; rw [h]
@[simp] theorem complete_health (s : State) (c : CmdRef) (x st d : Nat) : (complete s c x st d).health = s.health := by
  obtain ⟨q, o, h⟩ := complete_form s c x st d; rw [h]
@[simp] theorem complete_wings (s : State) (c : CmdRef) (x st d : Nat) : (complete s c x st d).wings = s.wings := by
  obtain ⟨q, o, h⟩ := complete_form s c x st d; rw [h]
@[simp] theorem complete_pchans (s : State) (c : CmdRef) (x st d : Nat) : (complete s c x st d).pchans = s.pchans := by
  obtain ⟨q, o, h⟩ := complete_form s c x st d; rw [h]
@[simp] theorem complete_hbm (s : State) (c : CmdRef) (x st d : Nat) : (complete s c x st d).hbm = s.hbm := by
  obtain ⟨q, o, h⟩ := complete_form s c x st d; rw [h]
@[simp] theorem complete_hbmBad (s : State) (c : CmdRef) (x st d : Nat) : (complete s c x st d).hbmBad = s.hbmBad := by
  obtain ⟨q, o, h⟩ := complete_form s c x st d; rw [h]
@[simp] theorem complete_dict (s : State) (c : CmdRef) (x st d : Nat) : (complete s c x st d).dict = s.dict := by
  obtain ⟨q, o, h⟩ := complete_form s c x st d; rw [h]
@[simp] theorem complete_ctxs (s : State) (c : CmdRef) (x st d : Nat) : (complete s c x st d).ctxs = s.ctxs := by
  obtain ⟨q, o, h⟩ := complete_form s c x st d; rw [h]
@[simp] theorem complete_cus (s : State) (c : CmdRef) (x st d : Nat) : (complete s c x st d).cus = s.cus := by
  obtain ⟨q, o, h⟩ := complete_form s c x st d; rw [h]
@[simp] theorem complete_mus (s : State) (c : CmdRef) (x st d : Nat) : (complete s c x st d).mus = s.mus := by
  obtain ⟨q, o, h⟩ := complete_form s c x st d; rw [h]
@[simp] theorem complete_sws (s : State) (c : CmdRef) (x st d : Nat) : (complete s c x st d).sws = s.sws := by
  obtain ⟨q, o, h⟩ := complete_form s c x st d; rw [h]
@[simp] theorem complete_wires (s : State) (c : CmdRef) (x st d : Nat) : (complete s c x st d).wires = s.wires := by
  obtain ⟨q, o, h⟩ := complete_form s c x st d; rw [h]
@[simp] theorem complete_credits (s : State) (c : CmdRef) (x st d : Nat) : (complete s c x st d).credits = s.credits := by
  obtain ⟨q, o, h⟩ := complete_form s c x st d; rw [h]
@[simp] theorem complete_ring (s : State) (c : CmdRef) (x st d : Nat) : (complete s c x st d).ring = s.ring := by
  obtain ⟨q, o, h⟩ := complete_form s c x st d; rw [h]
@[simp] theorem complete_gridIn (s : State) (c : CmdRef) (x st d : Nat) : (complete s c x st d).gridIn = s.gridIn := by
  obtain ⟨q, o, h⟩ := complete_form s c x st d; rw [h]
@[simp] theorem complete_ctl (s : State) (c : CmdRef) (x st d : Nat) : (complete s c x st d).ctl = s.ctl := by
  obtain ⟨q, o, h⟩ := complete_form s c x st d; rw [h]
@[simp] theorem complete_mesh (s : State) (c : CmdRef) (x st d : Nat) : (complete s c x st d).mesh = s.mesh := by
  obtain ⟨q, o, h⟩ := complete_form s c x st d; rw [h]
@[simp] theorem complete_flying (s : State) (c : CmdRef) (x st d : Nat) : (complete s c x st d).flying = s.flying := by
  obtain ⟨q, o, h⟩ := complete_form s c x st d; rw [h]
@[simp] theorem complete_terms (s : State) (c : CmdRef) (x st d : Nat) : (complete s c x st d).terms = s.terms := by
  obtain ⟨q, o, h⟩ := complete_form s c x st d; rw [h]
@[simp] theorem complete_hosts (s : State) (c : CmdRef) (x st d : Nat) : (complete s c x st d).hosts = s.hosts := by
  obtain ⟨q, o, h⟩ := complete_form s c x st d; rw [h]
@[simp] theorem complete_conns (s : State) (c : CmdRef) (x st d : Nat) : (complete s c x st d).conns = s.conns := by
  obtain ⟨q, o, h⟩ := complete_form s c x st d; rw [h]
@[simp] theorem complete_mwins (s : State) (c : CmdRef) (x st d : Nat) : (complete s c x st d).mwins = s.mwins := by
  obtain ⟨q, o, h⟩ := complete_form s c x st d; rw [h]
@[simp] theorem complete_objs (s : State) (c : CmdRef) (x st d : Nat) : (complete s c x st d).objs = s.objs := by
  obtain ⟨q, o, h⟩ := complete_form s c x st d; rw [h]
@[simp] theorem complete_rdmas (s : State) (c : CmdRef) (x st d : Nat) : (complete s c x st d).rdmas = s.rdmas := by
  obtain ⟨q, o, h⟩ := complete_form s c x st d; rw [h]
@[simp] theorem complete_lease (s : State) (c : CmdRef) (x st d : Nat) : (complete s c x st d).lease = s.lease := by
  obtain ⟨q, o, h⟩ := complete_form s c x st d; rw [h]
@[simp] theorem complete_hlink (s : State) (c : CmdRef) (x st d : Nat) : (complete s c x st d).hlink = s.hlink := by
  obtain ⟨q, o, h⟩ := complete_form s c x st d; rw [h]
@[simp] theorem complete_ptp (s : State) (c : CmdRef) (x st d : Nat) : (complete s c x st d).ptp = s.ptp := by
  obtain ⟨q, o, h⟩ := complete_form s c x st d; rw [h]
@[simp] theorem complete_ecatLink (s : State) (c : CmdRef) (x st d : Nat) : (complete s c x st d).ecatLink = s.ecatLink := by
  obtain ⟨q, o, h⟩ := complete_form s c x st d; rw [h]
@[simp] theorem complete_sampled (s : State) (c : CmdRef) (x st d : Nat) : (complete s c x st d).sampled = s.sampled := by
  obtain ⟨q, o, h⟩ := complete_form s c x st d; rw [h]
@[simp] theorem complete_gates (s : State) (c : CmdRef) (x st d : Nat) : (complete s c x st d).gates = s.gates := by
  obtain ⟨q, o, h⟩ := complete_form s c x st d; rw [h]
@[simp] theorem complete_srcs (s : State) (c : CmdRef) (x st d : Nat) : (complete s c x st d).srcs = s.srcs := by
  obtain ⟨q, o, h⟩ := complete_form s c x st d; rw [h]
@[simp] theorem complete_bell (s : State) (c : CmdRef) (x st d : Nat) : (complete s c x st d).bell = s.bell := by
  obtain ⟨q, o, h⟩ := complete_form s c x st d; rw [h]
@[simp] theorem complete_entries (s : State) (c : CmdRef) (x st d : Nat) : (complete s c x st d).entries = s.entries := by
  obtain ⟨q, o, h⟩ := complete_form s c x st d; rw [h]
@[simp] theorem complete_tts (s : State) (c : CmdRef) (x st d : Nat) : (complete s c x st d).tts = s.tts := by
  obtain ⟨q, o, h⟩ := complete_form s c x st d; rw [h]
@[simp] theorem complete_due (s : State) (c : CmdRef) (x st d : Nat) : (complete s c x st d).due = s.due := by
  obtain ⟨q, o, h⟩ := complete_form s c x st d; rw [h]
@[simp] theorem complete_tports (s : State) (c : CmdRef) (x st d : Nat) : (complete s c x st d).tports = s.tports := by
  obtain ⟨q, o, h⟩ := complete_form s c x st d; rw [h]
@[simp] theorem complete_chans (s : State) (c : CmdRef) (x st d : Nat) : (complete s c x st d).chans = s.chans := by
  obtain ⟨q, o, h⟩ := complete_form s c x st d; rw [h]
@[simp] theorem complete_roll (s : State) (c : CmdRef) (x st d : Nat) : (complete s c x st d).roll = s.roll := by
  obtain ⟨q, o, h⟩ := complete_form s c x st d; rw [h]
@[simp] theorem complete_attest (s : State) (c : CmdRef) (x st d : Nat) : (complete s c x st d).attest = s.attest := by
  obtain ⟨q, o, h⟩ := complete_form s c x st d; rw [h]
@[simp] theorem complete_sramErr (s : State) (c : CmdRef) (x st d : Nat) : (complete s c x st d).sramErr = s.sramErr := by
  obtain ⟨q, o, h⟩ := complete_form s c x st d; rw [h]
@[simp] theorem complete_linkCe (s : State) (c : CmdRef) (x st d : Nat) : (complete s c x st d).linkCe = s.linkCe := by
  obtain ⟨q, o, h⟩ := complete_form s c x st d; rw [h]
@[simp] theorem complete_scan (s : State) (c : CmdRef) (x st d : Nat) : (complete s c x st d).scan = s.scan := by
  obtain ⟨q, o, h⟩ := complete_form s c x st d; rw [h]

/-! ### ctxEvent -/

@[simp] theorem ctxEvent_pending (s : State) (c k : Nat) (w : W16) (fl d : Nat) : (ctxEvent s c k w fl d).pending = s.pending := by
  obtain ⟨q, o, h⟩ := ctxEvent_form s c k w fl d; rw [h]
@[simp] theorem ctxEvent_fclk (s : State) (c k : Nat) (w : W16) (fl d : Nat) : (ctxEvent s c k w fl d).fclk = s.fclk := by
  obtain ⟨q, o, h⟩ := ctxEvent_form s c k w fl d; rw [h]
@[simp] theorem ctxEvent_fuse (s : State) (c k : Nat) (w : W16) (fl d : Nat) : (ctxEvent s c k w fl d).fuse = s.fuse := by
  obtain ⟨q, o, h⟩ := ctxEvent_form s c k w fl d; rw [h]
@[simp] theorem ctxEvent_free (s : State) (c k : Nat) (w : W16) (fl d : Nat) : (ctxEvent s c k w fl d).free = s.free := by
  obtain ⟨q, o, h⟩ := ctxEvent_form s c k w fl d; rw [h]
@[simp] theorem ctxEvent_power (s : State) (c k : Nat) (w : W16) (fl d : Nat) : (ctxEvent s c k w fl d).power = s.power := by
  obtain ⟨q, o, h⟩ := ctxEvent_form s c k w fl d; rw [h]
@[simp] theorem ctxEvent_boot (s : State) (c k : Nat) (w : W16) (fl d : Nat) : (ctxEvent s c k w fl d).boot = s.boot := by
  obtain ⟨q, o, h⟩ := ctxEvent_form s c k w fl d; rw [h]
@[simp] theorem ctxEvent_clk (s : State) (c k : Nat) (w : W16) (fl d : Nat) : (ctxEvent s c k w fl d).clk = s.clk := by
  obtain ⟨q, o, h⟩ := ctxEvent_form s c k w fl d; rw [h]
@[simp] theorem ctxEvent_health (s : State) (c k : Nat) (w : W16) (fl d : Nat) : (ctxEvent s c k w fl d).health = s.health := by
  obtain ⟨q, o, h⟩ := ctxEvent_form s c k w fl d; rw [h]
@[simp] theorem ctxEvent_wings (s : State) (c k : Nat) (w : W16) (fl d : Nat) : (ctxEvent s c k w fl d).wings = s.wings := by
  obtain ⟨q, o, h⟩ := ctxEvent_form s c k w fl d; rw [h]
@[simp] theorem ctxEvent_pchans (s : State) (c k : Nat) (w : W16) (fl d : Nat) : (ctxEvent s c k w fl d).pchans = s.pchans := by
  obtain ⟨q, o, h⟩ := ctxEvent_form s c k w fl d; rw [h]
@[simp] theorem ctxEvent_hbm (s : State) (c k : Nat) (w : W16) (fl d : Nat) : (ctxEvent s c k w fl d).hbm = s.hbm := by
  obtain ⟨q, o, h⟩ := ctxEvent_form s c k w fl d; rw [h]
@[simp] theorem ctxEvent_hbmBad (s : State) (c k : Nat) (w : W16) (fl d : Nat) : (ctxEvent s c k w fl d).hbmBad = s.hbmBad := by
  obtain ⟨q, o, h⟩ := ctxEvent_form s c k w fl d; rw [h]
@[simp] theorem ctxEvent_dict (s : State) (c k : Nat) (w : W16) (fl d : Nat) : (ctxEvent s c k w fl d).dict = s.dict := by
  obtain ⟨q, o, h⟩ := ctxEvent_form s c k w fl d; rw [h]
@[simp] theorem ctxEvent_ctxs (s : State) (c k : Nat) (w : W16) (fl d : Nat) : (ctxEvent s c k w fl d).ctxs = s.ctxs := by
  obtain ⟨q, o, h⟩ := ctxEvent_form s c k w fl d; rw [h]
@[simp] theorem ctxEvent_cus (s : State) (c k : Nat) (w : W16) (fl d : Nat) : (ctxEvent s c k w fl d).cus = s.cus := by
  obtain ⟨q, o, h⟩ := ctxEvent_form s c k w fl d; rw [h]
@[simp] theorem ctxEvent_mus (s : State) (c k : Nat) (w : W16) (fl d : Nat) : (ctxEvent s c k w fl d).mus = s.mus := by
  obtain ⟨q, o, h⟩ := ctxEvent_form s c k w fl d; rw [h]
@[simp] theorem ctxEvent_sws (s : State) (c k : Nat) (w : W16) (fl d : Nat) : (ctxEvent s c k w fl d).sws = s.sws := by
  obtain ⟨q, o, h⟩ := ctxEvent_form s c k w fl d; rw [h]
@[simp] theorem ctxEvent_wires (s : State) (c k : Nat) (w : W16) (fl d : Nat) : (ctxEvent s c k w fl d).wires = s.wires := by
  obtain ⟨q, o, h⟩ := ctxEvent_form s c k w fl d; rw [h]
@[simp] theorem ctxEvent_credits (s : State) (c k : Nat) (w : W16) (fl d : Nat) : (ctxEvent s c k w fl d).credits = s.credits := by
  obtain ⟨q, o, h⟩ := ctxEvent_form s c k w fl d; rw [h]
@[simp] theorem ctxEvent_ring (s : State) (c k : Nat) (w : W16) (fl d : Nat) : (ctxEvent s c k w fl d).ring = s.ring := by
  obtain ⟨q, o, h⟩ := ctxEvent_form s c k w fl d; rw [h]
@[simp] theorem ctxEvent_gridIn (s : State) (c k : Nat) (w : W16) (fl d : Nat) : (ctxEvent s c k w fl d).gridIn = s.gridIn := by
  obtain ⟨q, o, h⟩ := ctxEvent_form s c k w fl d; rw [h]
@[simp] theorem ctxEvent_ctl (s : State) (c k : Nat) (w : W16) (fl d : Nat) : (ctxEvent s c k w fl d).ctl = s.ctl := by
  obtain ⟨q, o, h⟩ := ctxEvent_form s c k w fl d; rw [h]
@[simp] theorem ctxEvent_mesh (s : State) (c k : Nat) (w : W16) (fl d : Nat) : (ctxEvent s c k w fl d).mesh = s.mesh := by
  obtain ⟨q, o, h⟩ := ctxEvent_form s c k w fl d; rw [h]
@[simp] theorem ctxEvent_flying (s : State) (c k : Nat) (w : W16) (fl d : Nat) : (ctxEvent s c k w fl d).flying = s.flying := by
  obtain ⟨q, o, h⟩ := ctxEvent_form s c k w fl d; rw [h]
@[simp] theorem ctxEvent_terms (s : State) (c k : Nat) (w : W16) (fl d : Nat) : (ctxEvent s c k w fl d).terms = s.terms := by
  obtain ⟨q, o, h⟩ := ctxEvent_form s c k w fl d; rw [h]
@[simp] theorem ctxEvent_hosts (s : State) (c k : Nat) (w : W16) (fl d : Nat) : (ctxEvent s c k w fl d).hosts = s.hosts := by
  obtain ⟨q, o, h⟩ := ctxEvent_form s c k w fl d; rw [h]
@[simp] theorem ctxEvent_conns (s : State) (c k : Nat) (w : W16) (fl d : Nat) : (ctxEvent s c k w fl d).conns = s.conns := by
  obtain ⟨q, o, h⟩ := ctxEvent_form s c k w fl d; rw [h]
@[simp] theorem ctxEvent_mwins (s : State) (c k : Nat) (w : W16) (fl d : Nat) : (ctxEvent s c k w fl d).mwins = s.mwins := by
  obtain ⟨q, o, h⟩ := ctxEvent_form s c k w fl d; rw [h]
@[simp] theorem ctxEvent_objs (s : State) (c k : Nat) (w : W16) (fl d : Nat) : (ctxEvent s c k w fl d).objs = s.objs := by
  obtain ⟨q, o, h⟩ := ctxEvent_form s c k w fl d; rw [h]
@[simp] theorem ctxEvent_rdmas (s : State) (c k : Nat) (w : W16) (fl d : Nat) : (ctxEvent s c k w fl d).rdmas = s.rdmas := by
  obtain ⟨q, o, h⟩ := ctxEvent_form s c k w fl d; rw [h]
@[simp] theorem ctxEvent_lease (s : State) (c k : Nat) (w : W16) (fl d : Nat) : (ctxEvent s c k w fl d).lease = s.lease := by
  obtain ⟨q, o, h⟩ := ctxEvent_form s c k w fl d; rw [h]
@[simp] theorem ctxEvent_hlink (s : State) (c k : Nat) (w : W16) (fl d : Nat) : (ctxEvent s c k w fl d).hlink = s.hlink := by
  obtain ⟨q, o, h⟩ := ctxEvent_form s c k w fl d; rw [h]
@[simp] theorem ctxEvent_ptp (s : State) (c k : Nat) (w : W16) (fl d : Nat) : (ctxEvent s c k w fl d).ptp = s.ptp := by
  obtain ⟨q, o, h⟩ := ctxEvent_form s c k w fl d; rw [h]
@[simp] theorem ctxEvent_ecatLink (s : State) (c k : Nat) (w : W16) (fl d : Nat) : (ctxEvent s c k w fl d).ecatLink = s.ecatLink := by
  obtain ⟨q, o, h⟩ := ctxEvent_form s c k w fl d; rw [h]
@[simp] theorem ctxEvent_sampled (s : State) (c k : Nat) (w : W16) (fl d : Nat) : (ctxEvent s c k w fl d).sampled = s.sampled := by
  obtain ⟨q, o, h⟩ := ctxEvent_form s c k w fl d; rw [h]
@[simp] theorem ctxEvent_gates (s : State) (c k : Nat) (w : W16) (fl d : Nat) : (ctxEvent s c k w fl d).gates = s.gates := by
  obtain ⟨q, o, h⟩ := ctxEvent_form s c k w fl d; rw [h]
@[simp] theorem ctxEvent_srcs (s : State) (c k : Nat) (w : W16) (fl d : Nat) : (ctxEvent s c k w fl d).srcs = s.srcs := by
  obtain ⟨q, o, h⟩ := ctxEvent_form s c k w fl d; rw [h]
@[simp] theorem ctxEvent_bell (s : State) (c k : Nat) (w : W16) (fl d : Nat) : (ctxEvent s c k w fl d).bell = s.bell := by
  obtain ⟨q, o, h⟩ := ctxEvent_form s c k w fl d; rw [h]
@[simp] theorem ctxEvent_entries (s : State) (c k : Nat) (w : W16) (fl d : Nat) : (ctxEvent s c k w fl d).entries = s.entries := by
  obtain ⟨q, o, h⟩ := ctxEvent_form s c k w fl d; rw [h]
@[simp] theorem ctxEvent_tts (s : State) (c k : Nat) (w : W16) (fl d : Nat) : (ctxEvent s c k w fl d).tts = s.tts := by
  obtain ⟨q, o, h⟩ := ctxEvent_form s c k w fl d; rw [h]
@[simp] theorem ctxEvent_due (s : State) (c k : Nat) (w : W16) (fl d : Nat) : (ctxEvent s c k w fl d).due = s.due := by
  obtain ⟨q, o, h⟩ := ctxEvent_form s c k w fl d; rw [h]
@[simp] theorem ctxEvent_tports (s : State) (c k : Nat) (w : W16) (fl d : Nat) : (ctxEvent s c k w fl d).tports = s.tports := by
  obtain ⟨q, o, h⟩ := ctxEvent_form s c k w fl d; rw [h]
@[simp] theorem ctxEvent_chans (s : State) (c k : Nat) (w : W16) (fl d : Nat) : (ctxEvent s c k w fl d).chans = s.chans := by
  obtain ⟨q, o, h⟩ := ctxEvent_form s c k w fl d; rw [h]
@[simp] theorem ctxEvent_roll (s : State) (c k : Nat) (w : W16) (fl d : Nat) : (ctxEvent s c k w fl d).roll = s.roll := by
  obtain ⟨q, o, h⟩ := ctxEvent_form s c k w fl d; rw [h]
@[simp] theorem ctxEvent_attest (s : State) (c k : Nat) (w : W16) (fl d : Nat) : (ctxEvent s c k w fl d).attest = s.attest := by
  obtain ⟨q, o, h⟩ := ctxEvent_form s c k w fl d; rw [h]
@[simp] theorem ctxEvent_sramErr (s : State) (c k : Nat) (w : W16) (fl d : Nat) : (ctxEvent s c k w fl d).sramErr = s.sramErr := by
  obtain ⟨q, o, h⟩ := ctxEvent_form s c k w fl d; rw [h]
@[simp] theorem ctxEvent_linkCe (s : State) (c k : Nat) (w : W16) (fl d : Nat) : (ctxEvent s c k w fl d).linkCe = s.linkCe := by
  obtain ⟨q, o, h⟩ := ctxEvent_form s c k w fl d; rw [h]
@[simp] theorem ctxEvent_scan (s : State) (c k : Nat) (w : W16) (fl d : Nat) : (ctxEvent s c k w fl d).scan = s.scan := by
  obtain ⟨q, o, h⟩ := ctxEvent_form s c k w fl d; rw [h]

/-! ## Emergencies (R399) -/

/-- An emergency message changes the history, the queue of messages, or the count of those dropped. -/
theorem emergency_form (s : State) (w : W16) (n : Nat) : ∃ h d, emergency s w n = { s with health := h, dict := d } ∧
    h.errReg = s.health.errReg ∧ h.bridges = s.health.bridges ∧ h.split = s.health.split ∧ h.remaps = s.health.remaps ∧
    h.lastFault = s.health.lastFault ∧ h.promoteAt = s.health.promoteAt ∧ ∀ k, k ≠ 0x201102 → sget 0 d k = dget s k := by
  unfold emergency
  simp only
  split
  · exact ⟨_, s.dict, rfl, rfl, rfl, rfl, rfl, rfl, rfl, fun _ _ => rfl⟩
  · exact ⟨_, _, rfl, rfl, rfl, rfl, rfl, rfl, rfl, fun k hk => sget_sset_ne _ _ _ hk⟩

/-! ## What follows from the state after a command (R399, R413, R329) -/

/-- A fold whose every step changes only gates changes only gates. -/
theorem settleGates_form (s : State) : ∃ g, settleGates s = { s with gates := g } := by
  unfold settleGates
  generalize List.range 6 = l
  induction l generalizing s with
  | nil => exact ⟨s.gates, rfl⟩
  | cons a l ih =>
    simp only [List.foldl_cons]
    split
    · obtain ⟨g, h⟩ := ih { s with gates := sset (0, 0) s.gates a (2, s.fclk) }
      exact ⟨g, by rw [h]⟩
    · exact ih s

theorem settleTts_form (s : State) : ∃ t, settleTts s = { s with tts := t } := by
  unfold settleTts
  generalize List.range 8 = l
  induction l generalizing s with
  | nil => exact ⟨s.tts, rfl⟩
  | cons a l ih =>
    simp only [List.foldl_cons]
    split
    · obtain ⟨g, h⟩ := ih (modTt s a fun x => { x with state := 0 })
      exact ⟨g, by rw [h]; rfl⟩
    · exact ih s

theorem settleReg_form (s : State) : ∃ h d, settleReg s = { s with health := h, dict := d } ∧
    h.bridges = s.health.bridges ∧ h.split = s.health.split ∧ h.remaps = s.health.remaps ∧
    h.lastFault = s.health.lastFault ∧ h.promoteAt = s.health.promoteAt ∧ ∀ k, k ≠ 0x201102 → sget 0 d k = dget s k := by
  unfold settleReg
  simp only
  split
  · exact ⟨s.health, s.dict, rfl, rfl, rfl, rfl, rfl, rfl, fun _ _ => rfl⟩
  · obtain ⟨h, d, e, h1, h2, h3, h4, h5, h6, h7⟩ :=
      emergency_form { s with health := { s.health with errReg := BitVec.ofNat 8 (errorRegister s) } } 0 0xFF
    exact ⟨h, d, by rw [e], h2, h3, h4, h5, h6, h7⟩

/-- What follows from a state changes gates, timetables, health and one counter of the dictionary. -/
theorem settle_form (s : State) : ∃ g t h d, settle s = { s with gates := g, tts := t, health := h, dict := d } ∧
    h.bridges = s.health.bridges ∧ h.split = s.health.split ∧ h.remaps = s.health.remaps ∧
    h.lastFault = s.health.lastFault ∧ h.promoteAt = s.health.promoteAt ∧ ∀ k, k ≠ 0x201102 → sget 0 d k = dget s k := by
  unfold settle
  obtain ⟨g, hg⟩ := settleGates_form s
  rw [hg]
  obtain ⟨t, ht⟩ := settleTts_form { s with gates := g }
  rw [ht]
  obtain ⟨h, d, e, h1, h2, h3, h4, h5, h6⟩ := settleReg_form { s with gates := g, tts := t }
  exact ⟨g, t, h, d, by rw [e], h1, h2, h3, h4, h5, h6⟩

/-! ### settle -/

@[simp] theorem settle_pending (s : State) : (settle s).pending = s.pending := by
  obtain ⟨g, t, h, d, e, -⟩ := settle_form s; rw [e]
@[simp] theorem settle_fclk (s : State) : (settle s).fclk = s.fclk := by
  obtain ⟨g, t, h, d, e, -⟩ := settle_form s; rw [e]
@[simp] theorem settle_fuse (s : State) : (settle s).fuse = s.fuse := by
  obtain ⟨g, t, h, d, e, -⟩ := settle_form s; rw [e]
@[simp] theorem settle_free (s : State) : (settle s).free = s.free := by
  obtain ⟨g, t, h, d, e, -⟩ := settle_form s; rw [e]
@[simp] theorem settle_power (s : State) : (settle s).power = s.power := by
  obtain ⟨g, t, h, d, e, -⟩ := settle_form s; rw [e]
@[simp] theorem settle_boot (s : State) : (settle s).boot = s.boot := by
  obtain ⟨g, t, h, d, e, -⟩ := settle_form s; rw [e]
@[simp] theorem settle_clk (s : State) : (settle s).clk = s.clk := by
  obtain ⟨g, t, h, d, e, -⟩ := settle_form s; rw [e]
@[simp] theorem settle_wings (s : State) : (settle s).wings = s.wings := by
  obtain ⟨g, t, h, d, e, -⟩ := settle_form s; rw [e]
@[simp] theorem settle_pchans (s : State) : (settle s).pchans = s.pchans := by
  obtain ⟨g, t, h, d, e, -⟩ := settle_form s; rw [e]
@[simp] theorem settle_hbm (s : State) : (settle s).hbm = s.hbm := by
  obtain ⟨g, t, h, d, e, -⟩ := settle_form s; rw [e]
@[simp] theorem settle_hbmBad (s : State) : (settle s).hbmBad = s.hbmBad := by
  obtain ⟨g, t, h, d, e, -⟩ := settle_form s; rw [e]
@[simp] theorem settle_ctxs (s : State) : (settle s).ctxs = s.ctxs := by
  obtain ⟨g, t, h, d, e, -⟩ := settle_form s; rw [e]
@[simp] theorem settle_cus (s : State) : (settle s).cus = s.cus := by
  obtain ⟨g, t, h, d, e, -⟩ := settle_form s; rw [e]
@[simp] theorem settle_mus (s : State) : (settle s).mus = s.mus := by
  obtain ⟨g, t, h, d, e, -⟩ := settle_form s; rw [e]
@[simp] theorem settle_sws (s : State) : (settle s).sws = s.sws := by
  obtain ⟨g, t, h, d, e, -⟩ := settle_form s; rw [e]
@[simp] theorem settle_wires (s : State) : (settle s).wires = s.wires := by
  obtain ⟨g, t, h, d, e, -⟩ := settle_form s; rw [e]
@[simp] theorem settle_credits (s : State) : (settle s).credits = s.credits := by
  obtain ⟨g, t, h, d, e, -⟩ := settle_form s; rw [e]
@[simp] theorem settle_ring (s : State) : (settle s).ring = s.ring := by
  obtain ⟨g, t, h, d, e, -⟩ := settle_form s; rw [e]
@[simp] theorem settle_gridIn (s : State) : (settle s).gridIn = s.gridIn := by
  obtain ⟨g, t, h, d, e, -⟩ := settle_form s; rw [e]
@[simp] theorem settle_ctl (s : State) : (settle s).ctl = s.ctl := by
  obtain ⟨g, t, h, d, e, -⟩ := settle_form s; rw [e]
@[simp] theorem settle_mesh (s : State) : (settle s).mesh = s.mesh := by
  obtain ⟨g, t, h, d, e, -⟩ := settle_form s; rw [e]
@[simp] theorem settle_flying (s : State) : (settle s).flying = s.flying := by
  obtain ⟨g, t, h, d, e, -⟩ := settle_form s; rw [e]
@[simp] theorem settle_terms (s : State) : (settle s).terms = s.terms := by
  obtain ⟨g, t, h, d, e, -⟩ := settle_form s; rw [e]
@[simp] theorem settle_hosts (s : State) : (settle s).hosts = s.hosts := by
  obtain ⟨g, t, h, d, e, -⟩ := settle_form s; rw [e]
@[simp] theorem settle_conns (s : State) : (settle s).conns = s.conns := by
  obtain ⟨g, t, h, d, e, -⟩ := settle_form s; rw [e]
@[simp] theorem settle_queues (s : State) : (settle s).queues = s.queues := by
  obtain ⟨g, t, h, d, e, -⟩ := settle_form s; rw [e]
@[simp] theorem settle_mwins (s : State) : (settle s).mwins = s.mwins := by
  obtain ⟨g, t, h, d, e, -⟩ := settle_form s; rw [e]
@[simp] theorem settle_objs (s : State) : (settle s).objs = s.objs := by
  obtain ⟨g, t, h, d, e, -⟩ := settle_form s; rw [e]
@[simp] theorem settle_rdmas (s : State) : (settle s).rdmas = s.rdmas := by
  obtain ⟨g, t, h, d, e, -⟩ := settle_form s; rw [e]
@[simp] theorem settle_lease (s : State) : (settle s).lease = s.lease := by
  obtain ⟨g, t, h, d, e, -⟩ := settle_form s; rw [e]
@[simp] theorem settle_hlink (s : State) : (settle s).hlink = s.hlink := by
  obtain ⟨g, t, h, d, e, -⟩ := settle_form s; rw [e]
@[simp] theorem settle_ptp (s : State) : (settle s).ptp = s.ptp := by
  obtain ⟨g, t, h, d, e, -⟩ := settle_form s; rw [e]
@[simp] theorem settle_ecatLink (s : State) : (settle s).ecatLink = s.ecatLink := by
  obtain ⟨g, t, h, d, e, -⟩ := settle_form s; rw [e]
@[simp] theorem settle_sampled (s : State) : (settle s).sampled = s.sampled := by
  obtain ⟨g, t, h, d, e, -⟩ := settle_form s; rw [e]
@[simp] theorem settle_srcs (s : State) : (settle s).srcs = s.srcs := by
  obtain ⟨g, t, h, d, e, -⟩ := settle_form s; rw [e]
@[simp] theorem settle_bell (s : State) : (settle s).bell = s.bell := by
  obtain ⟨g, t, h, d, e, -⟩ := settle_form s; rw [e]
@[simp] theorem settle_entries (s : State) : (settle s).entries = s.entries := by
  obtain ⟨g, t, h, d, e, -⟩ := settle_form s; rw [e]
@[simp] theorem settle_due (s : State) : (settle s).due = s.due := by
  obtain ⟨g, t, h, d, e, -⟩ := settle_form s; rw [e]
@[simp] theorem settle_tports (s : State) : (settle s).tports = s.tports := by
  obtain ⟨g, t, h, d, e, -⟩ := settle_form s; rw [e]
@[simp] theorem settle_chans (s : State) : (settle s).chans = s.chans := by
  obtain ⟨g, t, h, d, e, -⟩ := settle_form s; rw [e]
@[simp] theorem settle_roll (s : State) : (settle s).roll = s.roll := by
  obtain ⟨g, t, h, d, e, -⟩ := settle_form s; rw [e]
@[simp] theorem settle_attest (s : State) : (settle s).attest = s.attest := by
  obtain ⟨g, t, h, d, e, -⟩ := settle_form s; rw [e]
@[simp] theorem settle_sramErr (s : State) : (settle s).sramErr = s.sramErr := by
  obtain ⟨g, t, h, d, e, -⟩ := settle_form s; rw [e]
@[simp] theorem settle_linkCe (s : State) : (settle s).linkCe = s.linkCe := by
  obtain ⟨g, t, h, d, e, -⟩ := settle_form s; rw [e]
@[simp] theorem settle_scan (s : State) : (settle s).scan = s.scan := by
  obtain ⟨g, t, h, d, e, -⟩ := settle_form s; rw [e]
@[simp] theorem settle_out (s : State) : (settle s).out = s.out := by
  obtain ⟨g, t, h, d, e, -⟩ := settle_form s; rw [e]
@[simp] theorem settle_health_bridges (s : State) : (settle s).health.bridges = s.health.bridges := by
  obtain ⟨g, t, h, d, e, h1, h2, h3, h4, h5, -⟩ := settle_form s; rw [e]; assumption
@[simp] theorem settle_health_split (s : State) : (settle s).health.split = s.health.split := by
  obtain ⟨g, t, h, d, e, h1, h2, h3, h4, h5, -⟩ := settle_form s; rw [e]; assumption
@[simp] theorem settle_health_remaps (s : State) : (settle s).health.remaps = s.health.remaps := by
  obtain ⟨g, t, h, d, e, h1, h2, h3, h4, h5, -⟩ := settle_form s; rw [e]; assumption
@[simp] theorem settle_health_lastFault (s : State) : (settle s).health.lastFault = s.health.lastFault := by
  obtain ⟨g, t, h, d, e, h1, h2, h3, h4, h5, -⟩ := settle_form s; rw [e]; assumption
@[simp] theorem settle_health_promoteAt (s : State) : (settle s).health.promoteAt = s.health.promoteAt := by
  obtain ⟨g, t, h, d, e, h1, h2, h3, h4, h5, -⟩ := settle_form s; rw [e]; assumption

/-- Every object but the count of dropped emergencies is as it was. -/
theorem dget_settle (s : State) {k : Nat} (hk : k ≠ 0x201102) : dget (settle s) k = dget s k := by
  obtain ⟨g, t, h, d, e, -, -, -, -, -, h6⟩ := settle_form s
  rw [e]; exact h6 k hk

/-! ### closeStep -/

@[simp] theorem closeStep_pending (s t : State) : (closeStep s t).pending = s.pending := by simp [closeStep]
@[simp] theorem closeStep_fclk (s t : State) : (closeStep s t).fclk = s.fclk := by simp [closeStep]
@[simp] theorem closeStep_fuse (s t : State) : (closeStep s t).fuse = s.fuse := by simp [closeStep]
@[simp] theorem closeStep_free (s t : State) : (closeStep s t).free = t.free := by simp [closeStep]
@[simp] theorem closeStep_power (s t : State) : (closeStep s t).power = t.power := by simp [closeStep]
@[simp] theorem closeStep_boot (s t : State) : (closeStep s t).boot = t.boot := by simp [closeStep]
@[simp] theorem closeStep_clk (s t : State) : (closeStep s t).clk = t.clk := by simp [closeStep]
@[simp] theorem closeStep_wings (s t : State) : (closeStep s t).wings = t.wings := by simp [closeStep]
@[simp] theorem closeStep_pchans (s t : State) : (closeStep s t).pchans = t.pchans := by simp [closeStep]
@[simp] theorem closeStep_hbm (s t : State) : (closeStep s t).hbm = t.hbm := by simp [closeStep]
@[simp] theorem closeStep_hbmBad (s t : State) : (closeStep s t).hbmBad = t.hbmBad := by simp [closeStep]
@[simp] theorem closeStep_ctxs (s t : State) : (closeStep s t).ctxs = t.ctxs := by simp [closeStep]
@[simp] theorem closeStep_cus (s t : State) : (closeStep s t).cus = t.cus := by simp [closeStep]
@[simp] theorem closeStep_mus (s t : State) : (closeStep s t).mus = t.mus := by simp [closeStep]
@[simp] theorem closeStep_sws (s t : State) : (closeStep s t).sws = t.sws := by simp [closeStep]
@[simp] theorem closeStep_wires (s t : State) : (closeStep s t).wires = t.wires := by simp [closeStep]
@[simp] theorem closeStep_credits (s t : State) : (closeStep s t).credits = t.credits := by simp [closeStep]
@[simp] theorem closeStep_ring (s t : State) : (closeStep s t).ring = t.ring := by simp [closeStep]
@[simp] theorem closeStep_gridIn (s t : State) : (closeStep s t).gridIn = t.gridIn := by simp [closeStep]
@[simp] theorem closeStep_ctl (s t : State) : (closeStep s t).ctl = t.ctl := by simp [closeStep]
@[simp] theorem closeStep_mesh (s t : State) : (closeStep s t).mesh = t.mesh := by simp [closeStep]
@[simp] theorem closeStep_flying (s t : State) : (closeStep s t).flying = t.flying := by simp [closeStep]
@[simp] theorem closeStep_terms (s t : State) : (closeStep s t).terms = t.terms := by simp [closeStep]
@[simp] theorem closeStep_hosts (s t : State) : (closeStep s t).hosts = t.hosts := by simp [closeStep]
@[simp] theorem closeStep_conns (s t : State) : (closeStep s t).conns = t.conns := by simp [closeStep]
@[simp] theorem closeStep_queues (s t : State) : (closeStep s t).queues = t.queues := by simp [closeStep]
@[simp] theorem closeStep_mwins (s t : State) : (closeStep s t).mwins = t.mwins := by simp [closeStep]
@[simp] theorem closeStep_objs (s t : State) : (closeStep s t).objs = t.objs := by simp [closeStep]
@[simp] theorem closeStep_rdmas (s t : State) : (closeStep s t).rdmas = t.rdmas := by simp [closeStep]
@[simp] theorem closeStep_lease (s t : State) : (closeStep s t).lease = t.lease := by simp [closeStep]
@[simp] theorem closeStep_hlink (s t : State) : (closeStep s t).hlink = t.hlink := by simp [closeStep]
@[simp] theorem closeStep_ptp (s t : State) : (closeStep s t).ptp = t.ptp := by simp [closeStep]
@[simp] theorem closeStep_ecatLink (s t : State) : (closeStep s t).ecatLink = t.ecatLink := by simp [closeStep]
@[simp] theorem closeStep_sampled (s t : State) : (closeStep s t).sampled = t.sampled := by simp [closeStep]
@[simp] theorem closeStep_srcs (s t : State) : (closeStep s t).srcs = t.srcs := by simp [closeStep]
@[simp] theorem closeStep_bell (s t : State) : (closeStep s t).bell = t.bell := by simp [closeStep]
@[simp] theorem closeStep_entries (s t : State) : (closeStep s t).entries = t.entries := by simp [closeStep]
@[simp] theorem closeStep_due (s t : State) : (closeStep s t).due = t.due := by simp [closeStep]
@[simp] theorem closeStep_tports (s t : State) : (closeStep s t).tports = t.tports := by simp [closeStep]
@[simp] theorem closeStep_chans (s t : State) : (closeStep s t).chans = t.chans := by simp [closeStep]
@[simp] theorem closeStep_roll (s t : State) : (closeStep s t).roll = t.roll := by simp [closeStep]
@[simp] theorem closeStep_attest (s t : State) : (closeStep s t).attest = t.attest := by simp [closeStep]
@[simp] theorem closeStep_sramErr (s t : State) : (closeStep s t).sramErr = t.sramErr := by simp [closeStep]
@[simp] theorem closeStep_linkCe (s t : State) : (closeStep s t).linkCe = t.linkCe := by simp [closeStep]
@[simp] theorem closeStep_scan (s t : State) : (closeStep s t).scan = t.scan := by simp [closeStep]
@[simp] theorem closeStep_out (s t : State) : (closeStep s t).out = t.out := by simp [closeStep]
@[simp] theorem closeStep_health_bridges (s t : State) : (closeStep s t).health.bridges = t.health.bridges := by simp [closeStep]
@[simp] theorem closeStep_health_split (s t : State) : (closeStep s t).health.split = t.health.split := by simp [closeStep]
@[simp] theorem closeStep_health_remaps (s t : State) : (closeStep s t).health.remaps = t.health.remaps := by simp [closeStep]
@[simp] theorem closeStep_health_lastFault (s t : State) : (closeStep s t).health.lastFault = t.health.lastFault := by simp [closeStep]
@[simp] theorem closeStep_health_promoteAt (s t : State) : (closeStep s t).health.promoteAt = t.health.promoteAt := by simp [closeStep]
theorem dget_closeStep (s t : State) {k : Nat} (hk : k ≠ 0x201102) : dget (closeStep s t) k = dget t k := by
  unfold closeStep; rw [dget_settle _ hk]; rfl

/-! ## Commands -/

/-- A command on an item that exists is carried out, and one on another item changes nothing. -/
theorem actIf_true (s : State) (f : State → State) : actIf true s f = .next (closeStep s (f s)) := rfl
theorem actIf_false (s : State) (f : State → State) : actIf false s f = .next (closeStep s s) := rfl
theorem actIf_of {p : Bool} (h : p = true) (s : State) (f : State → State) : actIf p s f = .next (closeStep s (f s)) := by rw [h]; rfl

/-- A command on an item answers a next state. -/
theorem actIf_next (p : Bool) (s : State) (f : State → State) :
    actIf p s f = .next (closeStep s (if p then f s else s)) := by cases p <;> rfl

end Sys2Proof.Machine
end

