-- ==== Sys2Proof/Laws/Host.lean ====
section
/-! SUPPORT. What a host command does once it is framed, and which queue an event touches. -/

namespace Sys2Proof.Machine

variable {op units : Nat} {allow : List Nat} {conn : Nat} {msg : Send} {s : State}

/-! ## Framing -/

@[simp] theorem hcmdOf_touch (m : List W32) : hcmdOf (touch s conn) conn m = hcmdOf s conn m := by simp [hcmdOf, touch]

@[simp] theorem touch_queues : (touch s conn).queues = s.queues := rfl
@[simp] theorem takeBuf_queues : (takeBuf s conn).queues = s.queues := rfl
@[simp] theorem touch_ctxs : (touch s conn).ctxs = s.ctxs := rfl
@[simp] theorem takeBuf_ctxs : (takeBuf s conn).ctxs = s.ctxs := rfl

/-- A message that passes every check of R379 is carried out by its row. -/
theorem hostRow_next (f : HCmd → State → State) (hc : conn < 256) (hi : msg.icrc = true) (hb : msg.rnr = false)
    (ho : fld (msgW msg.words 0) 0 8 = op) (hv : (connOf s conn).live = true)
    (hq : ownQueue s (cmdQueueNo (hcmdOf s conn msg.words)) (connOf s conn).host = true)
    (hr : msgReservedOk units allow msg.words = true) :
    hostRow op units allow conn msg s f = .next (closeStep s (f (hcmdOf s conn msg.words) (takeBuf (touch s conn) conn))) := by
  have h1 : ¬ 256 ≤ conn := by omega
  have hq' : ownQueue s (cmdQueueNo (hcmdOf s conn msg.words)) (hcmdOf s conn msg.words).host = true := hq
  have hq2 : ownQueue (takeBuf (touch s conn) conn) (cmdQueueNo (hcmdOf s conn msg.words)) (hcmdOf s conn msg.words).host = true := hq'
  have ho' : fld (cmdW (hcmdOf s conn msg.words) 0) 0 8 = op := ho
  have hr' : msgReservedOk units allow (hcmdOf s conn msg.words).msg = true := hr
  simp [hostRow, actIf, act, packetOn, runSend, hc, h1, ho, hi, hb, hv, hq2, ho', hr']

/-- A context row reaches its command when the context is its host's. -/
theorem ctxRow_next (f : HCmd → State → State) (hc : conn < 256) (hi : msg.icrc = true) (hb : msg.rnr = false)
    (ho : fld (msgW msg.words 0) 0 8 = op) (hv : (connOf s conn).live = true)
    (hq : ownQueue s (cmdQueueNo (hcmdOf s conn msg.words)) (connOf s conn).host = true)
    (hr : msgReservedOk units allow msg.words = true) (h64 : (hcmdOf s conn msg.words).ctx < 64)
    (hst : (ctxOf s (hcmdOf s conn msg.words).ctx).st ≠ .free)
    (hh : (ctxOf s (hcmdOf s conn msg.words).ctx).host = (hcmdOf s conn msg.words).host) :
    ctxRow op units allow conn msg s f = .next (closeStep s (f (hcmdOf s conn msg.words) (takeBuf (touch s conn) conn))) := by
  have hx : ctxOf (takeBuf (touch s conn) conn) (hcmdOf s conn msg.words).ctx = ctxOf s (hcmdOf s conn msg.words).ctx := rfl
  have h1 : ¬ 64 ≤ (hcmdOf s conn msg.words).ctx := by omega
  unfold ctxRow
  rw [hostRow_next _ hc hi hb ho hv hq hr]
  simp [h1, hx, hst, hh]

/-! ## Queues -/

/-- Writing held events of one queue leaves every other queue. -/
theorem queueOf_qPump_ne (k n : Nat) (s : State) {m : Nat} (h : m ≠ n) : queueOf (qPump k n s) m = queueOf s m := by
  induction k generalizing s with
  | zero => rfl
  | succ k ih =>
    unfold qPump
    simp only
    split
    · rfl
    · split
      · rw [ih]
        unfold qWrite
        simp only [queueOf, emit_queues, setQueue_queues]
        exact sget_sset_ne _ _ _ h
      · rfl

/-- Writing held events of a queue leaves its identity, its target and what is acknowledged. -/
theorem qPump_target (k n : Nat) (s : State) :
    let a := queueOf s n
    let b := queueOf (qPump k n s) n
    b.live = a.live ∧ b.host = a.host ∧ b.conn = a.conn ∧ b.addr = a.addr ∧ b.rkey = a.rkey ∧ b.log2 = a.log2 ∧ b.ack = a.ack := by
  induction k generalizing s with
  | zero => simp [qPump]
  | succ k ih =>
    unfold qPump
    simp only
    split
    · simp
    · split
      · obtain ⟨h1, h2, h3, h4, h5, h6, h7⟩ := ih (qWrite s n _ _)
        refine ⟨h1.trans ?_, h2.trans ?_, h3.trans ?_, h4.trans ?_, h5.trans ?_, h6.trans ?_, h7.trans ?_⟩ <;>
          simp [qWrite, queueOf, sget_sset_self]
      · simp

/-- An event on one queue leaves every other queue. -/
theorem queueOf_post_ne (s : State) (n : Nat) (e : EvRec) {m : Nat} (h : m ≠ n) : queueOf (post s n e) m = queueOf s m := by
  unfold post
  simp only
  split
  · rfl
  · split
    · rw [queueOf_qPump_ne _ _ _ h]; exact sget_sset_ne _ _ _ h
    · exact sget_sset_ne _ _ _ h

/-- An event leaves a queue's identity, its target and what is acknowledged. -/
theorem post_target (s : State) (n m : Nat) (e : EvRec) :
    let a := queueOf s m
    let b := queueOf (post s n e) m
    b.live = a.live ∧ b.host = a.host ∧ b.conn = a.conn ∧ b.addr = a.addr ∧ b.rkey = a.rkey ∧ b.log2 = a.log2 ∧ b.ack = a.ack := by
  by_cases h : m = n
  · subst h
    unfold post
    simp only
    split
    · simp
    · split
      · obtain ⟨h1, h2, h3, h4, h5, h6, h7⟩ := qPump_target ((queueOf s m).held.length + 2) m
          (setQueue s m { queueOf s m with held := (queueOf s m).held ++ [e] })
        simp only [queueOf_setQueue] at *
        exact ⟨h1, h2, h3, h4, h5, h6, h7⟩
      · simp
  · simp [queueOf_post_ne s n e h]

/-- A completion leaves a queue's identity, its target and what is acknowledged. -/
theorem complete_target (s : State) (r : CmdRef) (x st d m : Nat) :
    let a := queueOf s m
    let b := queueOf (complete s r x st d) m
    b.live = a.live ∧ b.host = a.host ∧ b.conn = a.conn ∧ b.addr = a.addr ∧ b.rkey = a.rkey ∧ b.log2 = a.log2 ∧ b.ack = a.ack := by
  unfold complete completeF
  split
  · simp
  · exact post_target ..

/-- A completion posts on the queue of the command, or on the service queue of its connection, and leaves the others. -/
theorem queueOf_complete_ne (s : State) (r : CmdRef) (x st d m : Nat) (h : m ≠ cmdQueue s r) :
    queueOf (complete s r x st d) m = queueOf s m := by
  unfold complete completeF
  split
  · rfl
  · exact queueOf_post_ne _ _ _ h

end Sys2Proof.Machine
end

