-- ==== Sys2Proof/Laws/Exec.lean ====
section
/-! SUPPORT. What any command can answer: a next state closed after its effect or, for the few commands that may change a fuse, a next
state that keeps what the effect did to the fuses. -/

namespace Sys2Proof.Machine

/-- An answer that changes no fuse: the effect closed. -/
def Plain (s : State) (o : Host.Outcome State Fault Refusal) : Prop := ∃ g : State → State, o = act s g

theorem plain_act (s : State) (g : State → State) : Plain s (act s g) := ⟨g, rfl⟩

theorem plain_actIf (p : Bool) (s : State) (g : State → State) : Plain s (actIf p s g) := plain_act ..

theorem plain_atRow (ok : Nat → Bool) (u : At) (s : State) (f : Nat → State → State) : Plain s (atRow ok u s f) := plain_actIf ..

theorem plain_hostRow (op units : Nat) (allow : List Nat) (conn : Nat) (msg : Send) (s : State) (f : HCmd → State → State) :
    Plain s (hostRow op units allow conn msg s f) := plain_actIf ..

theorem plain_ctxRow (op units : Nat) (allow : List Nat) (conn : Nat) (msg : Send) (s : State) (f : HCmd → State → State) :
    Plain s (ctxRow op units allow conn msg s f) := plain_hostRow ..

theorem plain_cardRow (op units : Nat) (allow : List Nat) (conn : Nat) (msg : Send) (s : State) (f : HCmd → State → State) :
    Plain s (cardRow op units allow conn msg s f) := plain_hostRow ..

theorem plain_word (ty port : Nat) (cw : Option Codeword) (w : Nat) (s : State) (f : State → State) : Plain s (word ty port cw w s f) :=
  plain_actIf ..

theorem plain_dataArrives (p : Nat) (c : Codeword) (s : State) : Plain s (dataArrives p c s) := plain_actIf ..

theorem plain_idleArrives (p : Nat) (c : Codeword) (s : State) : Plain s (idleArrives p c s) := plain_actIf ..

theorem plain_writeRow (ok : Bool) (r : Requester) (term index sub v : Nat) (s : State) :
    Plain s (writeRow ok r term index sub v s) := by unfold writeRow; exact plain_act ..

/-! ## Each command that changes no fuse -/

theorem plain_nop (conn : Nat) (msg : Send) (s : State) : Plain s (exec (.nop conn msg) s) := by
  rw [exec_nop]; unfold execNop; exact plain_hostRow ..
theorem plain_queueCreate (conn : Nat) (msg : Send) (s : State) : Plain s (exec (.queueCreate conn msg) s) := by
  rw [exec_queueCreate]; unfold execQueueCreate; exact plain_hostRow ..
theorem plain_queueDestroy (conn : Nat) (msg : Send) (s : State) : Plain s (exec (.queueDestroy conn msg) s) := by
  rw [exec_queueDestroy]; unfold execQueueDestroy; exact plain_hostRow ..
theorem plain_queueAck (conn : Nat) (msg : Send) (s : State) : Plain s (exec (.queueAck conn msg) s) := by
  rw [exec_queueAck]; unfold execQueueAck; exact plain_hostRow ..
theorem plain_queueModify (conn : Nat) (msg : Send) (s : State) : Plain s (exec (.queueModify conn msg) s) := by
  rw [exec_queueModify]; unfold execQueueModify; exact plain_hostRow ..
theorem plain_leaseAcquire (conn : Nat) (msg : Send) (s : State) : Plain s (exec (.leaseAcquire conn msg) s) := by
  rw [exec_leaseAcquire]; unfold execLeaseAcquire; exact plain_hostRow ..
theorem plain_leaseRenew (conn : Nat) (msg : Send) (s : State) : Plain s (exec (.leaseRenew conn msg) s) := by
  rw [exec_leaseRenew]; unfold execLeaseRenew; exact plain_hostRow ..
theorem plain_leaseRelease (conn : Nat) (msg : Send) (s : State) : Plain s (exec (.leaseRelease conn msg) s) := by
  rw [exec_leaseRelease]; unfold execLeaseRelease; exact plain_hostRow ..
theorem plain_openCtx (conn : Nat) (msg : Send) (s : State) : Plain s (exec (.openCtx conn msg) s) := by
  rw [exec_openCtx]; unfold execOpen; exact plain_hostRow ..
theorem plain_extentAdd (conn : Nat) (msg : Send) (s : State) : Plain s (exec (.extentAdd conn msg) s) := by
  rw [exec_extentAdd]; unfold execExtentAdd; exact plain_hostRow ..
theorem plain_extentFree (conn : Nat) (msg : Send) (s : State) : Plain s (exec (.extentFree conn msg) s) := by
  rw [exec_extentFree]; unfold execExtentFree; exact plain_hostRow ..
theorem plain_extentGrantComplete (ctx : Nat) (s : State) : Plain s (exec (.extentGrantComplete ctx) s) := by
  rw [exec_extentGrantComplete]; unfold execExtentGrantComplete; exact plain_actIf ..
theorem plain_load (conn : Nat) (msg : Send) (s : State) : Plain s (exec (.load conn msg) s) := by
  rw [exec_load]; unfold execLoad; exact plain_ctxRow ..
theorem plain_loadFetchComplete (ctx : Nat) (file : PktData) (s : State) : Plain s (exec (.loadFetchComplete ctx file) s) := by
  rw [exec_loadFetchComplete]; unfold execLoadFetchComplete; exact plain_actIf ..
theorem plain_unload (conn : Nat) (msg : Send) (s : State) : Plain s (exec (.unload conn msg) s) := by
  rw [exec_unload]; unfold execUnload; exact plain_ctxRow ..
theorem plain_launch (conn : Nat) (msg : Send) (s : State) : Plain s (exec (.launch conn msg) s) := by
  rw [exec_launch]; unfold execLaunch; exact plain_ctxRow ..
theorem plain_recess (conn : Nat) (msg : Send) (s : State) : Plain s (exec (.recess conn msg) s) := by
  rw [exec_recess]; unfold execRecess; exact plain_ctxRow ..
theorem plain_resume (conn : Nat) (msg : Send) (s : State) : Plain s (exec (.resume conn msg) s) := by
  rw [exec_resume]; unfold execResume; exact plain_ctxRow ..
theorem plain_release (conn : Nat) (msg : Send) (s : State) : Plain s (exec (.release conn msg) s) := by
  rw [exec_release]; unfold execRelease; exact plain_ctxRow ..
theorem plain_close (conn : Nat) (msg : Send) (s : State) : Plain s (exec (.close conn msg) s) := by
  rw [exec_close]; unfold execClose; exact plain_ctxRow ..
theorem plain_mwOpen (conn : Nat) (msg : Send) (s : State) : Plain s (exec (.mwOpen conn msg) s) := by
  rw [exec_mwOpen]; unfold execMwOpen; exact plain_ctxRow ..
theorem plain_mwClose (conn : Nat) (msg : Send) (s : State) : Plain s (exec (.mwClose conn msg) s) := by
  rw [exec_mwClose]; unfold execMwClose; exact plain_ctxRow ..
theorem plain_mwCloseComplete (win : Nat) (s : State) : Plain s (exec (.mwCloseComplete win) s) := by
  rw [exec_mwCloseComplete]; unfold execMwCloseComplete; exact plain_actIf ..
theorem plain_swOpen (conn : Nat) (msg : Send) (s : State) : Plain s (exec (.swOpen conn msg) s) := by
  rw [exec_swOpen]; unfold execSwOpen; exact plain_ctxRow ..
theorem plain_swClose (conn : Nat) (msg : Send) (s : State) : Plain s (exec (.swClose conn msg) s) := by
  rw [exec_swClose]; unfold execSwClose; exact plain_ctxRow ..
theorem plain_objCreate (conn : Nat) (msg : Send) (s : State) : Plain s (exec (.objCreate conn msg) s) := by
  rw [exec_objCreate]; unfold execObjCreate; exact plain_ctxRow ..
theorem plain_objDestroy (conn : Nat) (msg : Send) (s : State) : Plain s (exec (.objDestroy conn msg) s) := by
  rw [exec_objDestroy]; unfold execObjDestroy; exact plain_ctxRow ..
theorem plain_objGrant (conn : Nat) (msg : Send) (s : State) : Plain s (exec (.objGrant conn msg) s) := by
  rw [exec_objGrant]; unfold execObjGrant; exact plain_ctxRow ..
theorem plain_objSignal (conn : Nat) (msg : Send) (s : State) : Plain s (exec (.objSignal conn msg) s) := by
  rw [exec_objSignal]; unfold execObjSignal; exact plain_hostRow ..
theorem plain_objWait (conn : Nat) (msg : Send) (s : State) : Plain s (exec (.objWait conn msg) s) := by
  rw [exec_objWait]; unfold execObjWait; exact plain_hostRow ..
theorem plain_rcRead (conn : Nat) (msg : Send) (s : State) : Plain s (exec (.rcRead conn msg) s) := by
  rw [exec_rcRead]; unfold execRcRead; exact plain_cardRow ..
theorem plain_rcReset (conn : Nat) (msg : Send) (s : State) : Plain s (exec (.rcReset conn msg) s) := by
  rw [exec_rcReset]; unfold execRcReset; exact plain_cardRow ..
theorem plain_rollCall (conn : Nat) (msg : Send) (s : State) : Plain s (exec (.rollCall conn msg) s) := by
  rw [exec_rollCall]; unfold execRollCall; exact plain_ctxRow ..
theorem plain_ctxRead (conn : Nat) (msg : Send) (s : State) : Plain s (exec (.ctxRead conn msg) s) := by
  rw [exec_ctxRead]; unfold execCtxRead; exact plain_ctxRow ..
theorem plain_dbgRead (conn : Nat) (msg : Send) (s : State) : Plain s (exec (.dbgRead conn msg) s) := by
  rw [exec_dbgRead]; unfold execDbgRead; exact plain_ctxRow ..
theorem plain_rdmaWriteAcked (pkt : ConnPkt) (s : State) : Plain s (exec (.rdmaWriteAcked pkt) s) := by
  rw [exec_rdmaWriteAcked]; unfold execRdmaWriteAcked; exact plain_act ..
theorem plain_remoteAccessError (pkt : ConnPkt) (s : State) : Plain s (exec (.remoteAccessError pkt) s) := by
  rw [exec_remoteAccessError]; unfold execRemoteAccessError; exact plain_act ..
theorem plain_cmReq (port gid : Nat) (priv : PktData) (s : State) : Plain s (exec (.cmReq port gid priv) s) := by
  rw [exec_cmReq]; unfold execCmReq; exact plain_actIf ..
theorem plain_cmDreq (pkt : ConnPkt) (s : State) : Plain s (exec (.cmDreq pkt) s) := by
  rw [exec_cmDreq]; unfold execCmDreq; exact plain_act ..
theorem plain_ackTimeout (lost : Unacked) (s : State) : Plain s (exec (.ackTimeout lost) s) := by
  rw [exec_ackTimeout]; unfold execAckTimeout; exact plain_actIf ..
theorem plain_livenessTimeout (conn : Nat) (s : State) : Plain s (exec (.livenessTimeout conn) s) := by
  rw [exec_livenessTimeout]; unfold execLivenessTimeout; exact plain_actIf ..
theorem plain_hostGraceExpiry (host : Nat) (s : State) : Plain s (exec (.hostGraceExpiry host) s) := by
  rw [exec_hostGraceExpiry]; unfold execHostGraceExpiry; exact plain_actIf ..
theorem plain_rdmaWriteRequest (conn rkey off : Nat) (data : WriteData) (s : State) : Plain s (exec (.rdmaWriteRequest conn rkey off data) s) := by
  rw [exec_rdmaWriteRequest]; unfold execRdmaWriteRequest; exact plain_act ..
theorem plain_rdmaReadRequest (conn rkey off : Nat) (ask : ReadAsk) (s : State) : Plain s (exec (.rdmaReadRequest conn rkey off ask) s) := by
  rw [exec_rdmaReadRequest]; unfold execRdmaReadRequest; exact plain_act ..
theorem plain_unsupportedRequest (pkt : ConnPkt) (s : State) : Plain s (exec (.unsupportedRequest pkt) s) := by
  rw [exec_unsupportedRequest]; unfold execUnsupportedRequest; exact plain_act ..
theorem plain_ecnMarkedPacket (pkt : ConnPkt) (s : State) : Plain s (exec (.ecnMarkedPacket pkt) s) := by
  rw [exec_ecnMarkedPacket]; unfold execEcnMarkedPacket; exact plain_act ..
theorem plain_cnpReceived (pkt : ConnPkt) (s : State) : Plain s (exec (.cnpReceived pkt) s) := by
  rw [exec_cnpReceived]; unfold execCnpReceived; exact plain_act ..
theorem plain_sendRateRaise (conn : Nat) (s : State) : Plain s (exec (.sendRateRaise conn) s) := by
  rw [exec_sendRateRaise]; unfold execSendRateRaise; exact plain_actIf ..
theorem plain_leaseExpiry (s : State) : Plain s (exec (.leaseExpiry) s) := by
  rw [exec_leaseExpiry]; unfold execLeaseExpiry; exact plain_act ..
theorem plain_ptpSync (port time : Nat) (offset : Int) (s : State) : Plain s (exec (.ptpSync port time offset) s) := by
  rw [exec_ptpSync]; unfold execPtpSync; exact plain_actIf ..
theorem plain_ptpSyncLoss (port : Nat) (s : State) : Plain s (exec (.ptpSyncLoss port) s) := by
  rw [exec_ptpSyncLoss]; unfold execPtpSyncLoss; exact plain_actIf ..
theorem plain_sdoUdpDatagram (port src : Nat) (data : Datagram) (s : State) : Plain s (exec (.sdoUdpDatagram port src data) s) := by
  rw [exec_sdoUdpDatagram]; unfold execSdoUdpDatagram; exact plain_actIf ..
theorem plain_coeSdoUpload (index sub : Nat) (complete : Bool) (s : State) : Plain s (exec (.coeSdoUpload index sub complete) s) := by
  rw [exec_coeSdoUpload]; unfold execCoeSdoUpload; exact plain_act ..
theorem plain_sdoInformation (s : State) : Plain s (exec (.sdoInformation) s) := by
  rw [exec_sdoInformation]; unfold execSdoInformation; exact plain_act ..
theorem plain_alStateRequest (target : AlState) (s : State) : Plain s (exec (.alStateRequest target) s) := by
  rw [exec_alStateRequest]; unfold execAlStateRequest; exact plain_act ..
theorem plain_ecatSupervisionTimeout (s : State) : Plain s (exec (.ecatSupervisionTimeout) s) := by
  rw [exec_ecatSupervisionTimeout]; unfold execEcatSupervisionTimeout; exact plain_act ..
theorem plain_sync0Event (s : State) : Plain s (exec (.sync0Event) s) := by
  rw [exec_sync0Event]; unfold execSync0Event; exact plain_act ..
theorem plain_inputRefresh (s : State) : Plain s (exec (.inputRefresh) s) := by
  rw [exec_inputRefresh]; unfold execInputRefresh; exact plain_act ..
theorem plain_powerCapWrite (req : Requester) (term : Nat) (value : Nat) (s : State) : Plain s (exec (.powerCapWrite req term value) s) := by
  rw [exec_powerCapWrite]; unfold execPowerCapWrite; exact plain_writeRow ..
theorem plain_aclkCeilingWrite (req : Requester) (term : Nat) (value : Nat) (s : State) : Plain s (exec (.aclkCeilingWrite req term value) s) := by
  rw [exec_aclkCeilingWrite]; unfold execAclkCeilingWrite; exact plain_writeRow ..
theorem plain_reportCardReset (req : Requester) (term : Nat) (value : Nat) (s : State) : Plain s (exec (.reportCardReset req term value) s) := by
  rw [exec_reportCardReset]; unfold execReportCardReset; exact plain_writeRow ..
theorem plain_watchdogPeriodWrite (req : Requester) (term : Nat) (sub value : Nat) (s : State) : Plain s (exec (.watchdogPeriodWrite req term sub value) s) := by
  rw [exec_watchdogPeriodWrite]; unfold execWatchdogPeriodWrite; exact plain_writeRow ..
theorem plain_rollCallTrigger (req : Requester) (term : Nat) (s : State) : Plain s (exec (.rollCallTrigger req term) s) := by
  rw [exec_rollCallTrigger]; unfold execRollCallTrigger; exact plain_writeRow ..
theorem plain_rollCallDone (s : State) : Plain s (exec (.rollCallDone) s) := by
  rw [exec_rollCallDone]; unfold execRollCallDone; exact plain_act ..
theorem plain_rejoinThresholdWrite (req : Requester) (term : Nat) (value : Nat) (s : State) : Plain s (exec (.rejoinThresholdWrite req term value) s) := by
  rw [exec_rejoinThresholdWrite]; unfold execRejoinThresholdWrite; exact plain_writeRow ..
theorem plain_forceClose (req : Requester) (term : Nat) (value : Nat) (s : State) : Plain s (exec (.forceClose req term value) s) := by
  rw [exec_forceClose]; unfold execForceClose; exact plain_writeRow ..
theorem plain_debugPermittedWrite (req : Requester) (term : Nat) (value : Nat) (s : State) : Plain s (exec (.debugPermittedWrite req term value) s) := by
  rw [exec_debugPermittedWrite]; unfold execDebugPermittedWrite; exact plain_writeRow ..
theorem plain_timetableEntryWrite (req : Requester) (term : Nat) (entry : List Byte) (s : State) : Plain s (exec (.timetableEntryWrite req term entry) s) := by
  rw [exec_timetableEntryWrite]; unfold execTimetableEntryWrite; exact plain_act ..
theorem plain_timetableEnable (req : Requester) (term : Nat) (tt : Nat) (s : State) : Plain s (exec (.timetableEnable req term tt) s) := by
  rw [exec_timetableEnable]; unfold execTimetableEnable; exact plain_writeRow ..
theorem plain_timetableDisable (req : Requester) (term : Nat) (tt : Nat) (s : State) : Plain s (exec (.timetableDisable req term tt) s) := by
  rw [exec_timetableDisable]; unfold execTimetableDisable; exact plain_writeRow ..
theorem plain_timetableRangeWrite (req : Requester) (term : Nat) (tt sub value : Nat) (s : State) : Plain s (exec (.timetableRangeWrite req term tt sub value) s) := by
  rw [exec_timetableRangeWrite]; unfold execTimetableRangeWrite; exact plain_writeRow ..
theorem plain_timetableQuiesceTimeout (tt : Nat) (s : State) : Plain s (exec (.timetableQuiesceTimeout tt) s) := by
  rw [exec_timetableQuiesceTimeout]; unfold execTimetableQuiesceTimeout; exact plain_actIf ..
theorem plain_trienPortEnable (req : Requester) (term : Nat) (port : Nat) (s : State) : Plain s (exec (.trienPortEnable req term port) s) := by
  rw [exec_trienPortEnable]; unfold execTrienPortEnable; exact plain_writeRow ..
theorem plain_trienPortDisable (req : Requester) (term : Nat) (port : Nat) (s : State) : Plain s (exec (.trienPortDisable req term port) s) := by
  rw [exec_trienPortDisable]; unfold execTrienPortDisable; exact plain_writeRow ..
theorem plain_hostPortEnableWrite (req : Requester) (term : Nat) (port value : Nat) (s : State) : Plain s (exec (.hostPortEnableWrite req term port value) s) := by
  rw [exec_hostPortEnableWrite]; unfold execHostPortEnableWrite; exact plain_writeRow ..
theorem plain_hostPortAddressWrite (req : Requester) (term : Nat) (port sub value : Nat) (s : State) : Plain s (exec (.hostPortAddressWrite req term port sub value) s) := by
  rw [exec_hostPortAddressWrite]; unfold execHostPortAddressWrite; exact plain_writeRow ..
theorem plain_hostGidWrite (req : Requester) (term : Nat) (host value : Nat) (s : State) : Plain s (exec (.hostGidWrite req term host value) s) := by
  rw [exec_hostGidWrite]; unfold execHostGidWrite; exact plain_writeRow ..
theorem plain_hostEnableWrite (req : Requester) (term : Nat) (host value : Nat) (s : State) : Plain s (exec (.hostEnableWrite req term host value) s) := by
  rw [exec_hostEnableWrite]; unfold execHostEnableWrite; exact plain_writeRow ..
theorem plain_leaseRevoke (req : Requester) (term : Nat) (s : State) : Plain s (exec (.leaseRevoke req term) s) := by
  rw [exec_leaseRevoke]; unfold execLeaseRevoke; exact plain_writeRow ..
theorem plain_serviceWrite (req : Requester) (term : Nat) (value : Nat) (s : State) : Plain s (exec (.serviceWrite req term value) s) := by
  rw [exec_serviceWrite]; unfold execServiceWrite; exact plain_writeRow ..
theorem plain_gateDisable (req : Requester) (term : Nat) (gate : Nat) (s : State) : Plain s (exec (.gateDisable req term gate) s) := by
  rw [exec_gateDisable]; unfold execGateDisable; exact plain_writeRow ..
theorem plain_gateEnable (req : Requester) (term : Nat) (gate : Nat) (s : State) : Plain s (exec (.gateEnable req term gate) s) := by
  rw [exec_gateEnable]; unfold execGateEnable; exact plain_writeRow ..
theorem plain_quiesceTimeout (gate : Nat) (s : State) : Plain s (exec (.quiesceTimeout gate) s) := by
  rw [exec_quiesceTimeout]; unfold execQuiesceTimeout; exact plain_actIf ..
theorem plain_errorHistoryClear (req : Requester) (term : Nat) (value : Nat) (s : State) : Plain s (exec (.errorHistoryClear req term value) s) := by
  rw [exec_errorHistoryClear]; unfold execErrorHistoryClear; exact plain_writeRow ..
theorem plain_sm3SyncModeWrite (req : Requester) (term : Nat) (value : Nat) (s : State) : Plain s (exec (.sm3SyncModeWrite req term value) s) := by
  rw [exec_sm3SyncModeWrite]; unfold execSm3SyncModeWrite; exact plain_writeRow ..
theorem plain_twinModeWrite (req : Requester) (term : Nat) (pair value : Nat) (s : State) : Plain s (exec (.twinModeWrite req term pair value) s) := by
  rw [exec_twinModeWrite]; unfold execTwinModeWrite; exact plain_writeRow ..
theorem plain_wingFence (req : Requester) (term : Nat) (wing : Nat) (s : State) : Plain s (exec (.wingFence req term wing) s) := by
  rw [exec_wingFence]; unfold execWingFence; exact plain_writeRow ..
theorem plain_wingUnfence (req : Requester) (term : Nat) (wing : Nat) (s : State) : Plain s (exec (.wingUnfence req term wing) s) := by
  rw [exec_wingUnfence]; unfold execWingUnfence; exact plain_writeRow ..
theorem plain_commit (req : Requester) (term : Nat) (s : State) : Plain s (exec (.commit req term) s) := by
  rw [exec_commit]; unfold execCommit; exact plain_writeRow ..
theorem plain_syllabusPolicyWrite (req : Requester) (term : Nat) (value : Nat) (s : State) : Plain s (exec (.syllabusPolicyWrite req term value) s) := by
  rw [exec_syllabusPolicyWrite]; unfold execSyllabusPolicyWrite; exact plain_writeRow ..
theorem plain_syllabusKeyHashWrite (req : Requester) (term : Nat) (slot value : Nat) (s : State) : Plain s (exec (.syllabusKeyHashWrite req term slot value) s) := by
  rw [exec_syllabusKeyHashWrite]; unfold execSyllabusKeyHashWrite; exact plain_writeRow ..
theorem plain_attestationTrigger (req : Requester) (term : Nat) (s : State) : Plain s (exec (.attestationTrigger req term) s) := by
  rw [exec_attestationTrigger]; unfold execAttestationTrigger; exact plain_writeRow ..
theorem plain_attestationSigned (s : State) : Plain s (exec (.attestationSigned) s) := by
  rw [exec_attestationSigned]; unfold execAttestationSigned; exact plain_act ..
theorem plain_debugDataRead (req : Requester) (s : State) : Plain s (exec (.debugDataRead req) s) := by
  rw [exec_debugDataRead]; unfold execDebugDataRead; exact plain_act ..
theorem plain_powerWindowEnd (mean : Nat) (s : State) : Plain s (exec (.powerWindowEnd mean) s) := by
  rw [exec_powerWindowEnd]; unfold execPowerWindowEnd; exact plain_act ..
theorem plain_coolantFlowLow (flow : Nat) (inlet outlet : Int) (glycol : Bool) (s : State) : Plain s (exec (.coolantFlowLow flow inlet outlet glycol) s) := by
  rw [exec_coolantFlowLow]; unfold execCoolantFlowLow; exact plain_act ..
theorem plain_pwrEnRise (s : State) : Plain s (exec (.pwrEnRise) s) := by
  rw [exec_pwrEnRise]; unfold execPwrEnRise; exact plain_act ..
theorem plain_resetNRelease (s : State) : Plain s (exec (.resetNRelease) s) := by
  rw [exec_resetNRelease]; unfold execResetNRelease; exact plain_act ..
theorem plain_vcmpFault (wing : Nat) (s : State) : Plain s (exec (.vcmpFault wing) s) := by
  rw [exec_vcmpFault]; unfold execVcmpFault; exact plain_actIf ..
theorem plain_voptFault (wing : Nat) (s : State) : Plain s (exec (.voptFault wing) s) := by
  rw [exec_voptFault]; unfold execVoptFault; exact plain_actIf ..
theorem plain_railEnable (s : State) : Plain s (exec (.railEnable) s) := by
  rw [exec_railEnable]; unfold execRailEnable; exact plain_act ..
theorem plain_romStart (mc0Ok mc1Ok : Bool) (s : State) : Plain s (exec (.romStart mc0Ok mc1Ok) s) := by
  rw [exec_romStart]; unfold execRomStart; exact plain_act ..
theorem plain_dhcpOffer (port : Nat) (offer : DhcpOffer) (s : State) : Plain s (exec (.dhcpOffer port offer) s) := by
  rw [exec_dhcpOffer]; unfold execDhcpOffer; exact plain_actIf ..
theorem plain_dhcpRetry (port : Nat) (s : State) : Plain s (exec (.dhcpRetry port) s) := by
  rw [exec_dhcpRetry]; unfold execDhcpRetry; exact plain_actIf ..
theorem plain_tftpRetry (port : Nat) (s : State) : Plain s (exec (.tftpRetry port) s) := by
  rw [exec_tftpRetry]; unfold execTftpRetry; exact plain_actIf ..
theorem plain_tftpBlock (port : Nat) (data : List Byte) (s : State) : Plain s (exec (.tftpBlock port data) s) := by
  rw [exec_tftpBlock]; unfold execTftpBlock; exact plain_actIf ..
theorem plain_foeWrite (named : Bool) (file : List Byte) (s : State) : Plain s (exec (.foeWrite named file) s) := by
  rw [exec_foeWrite]; unfold execFoeWrite; exact plain_act ..
theorem plain_firmwareImageReceived (path : Nat) (s : State) : Plain s (exec (.firmwareImageReceived path) s) := by
  rw [exec_firmwareImageReceived]; unfold execFirmwareImageReceived; exact plain_actIf ..
theorem plain_mc1ImageCheck (pathOk : Bool) (s : State) : Plain s (exec (.mc1ImageCheck pathOk) s) := by
  rw [exec_mc1ImageCheck]; unfold execMc1ImageCheck; exact plain_act ..
theorem plain_hbmTraining (failing : List Nat) (s : State) : Plain s (exec (.hbmTraining failing) s) := by
  rw [exec_hbmTraining]; unfold execHbmTraining; exact plain_act ..
theorem plain_siteSelfTest (failing : List Nat) (dead : List Nat) (s : State) : Plain s (exec (.siteSelfTest failing dead) s) := by
  rw [exec_siteSelfTest]; unfold execSiteSelfTest; exact plain_act ..
theorem plain_linkTraining (bridges : List Nat) (s : State) : Plain s (exec (.linkTraining bridges) s) := by
  rw [exec_linkTraining]; unfold execLinkTraining; exact plain_act ..
theorem plain_dictionaryOnline (s : State) : Plain s (exec (.dictionaryOnline) s) := by
  rw [exec_dictionaryOnline]; unfold execDictionaryOnline; exact plain_act ..
theorem plain_contextsMayOpen (s : State) : Plain s (exec (.contextsMayOpen) s) := by
  rw [exec_contextsMayOpen]; unfold execContextsMayOpen; exact plain_act ..
theorem plain_bellEdge (a b : Bool) (s : State) : Plain s (exec (.bellEdge a b) s) := by
  rw [exec_bellEdge]; unfold execBellEdge; exact plain_act ..
theorem plain_bellIndexEdge (forward : Bool) (s : State) : Plain s (exec (.bellIndexEdge forward) s) := by
  rw [exec_bellIndexEdge]; unfold execBellIndexEdge; exact plain_act ..
theorem plain_intervalTimeout (source : Nat) (s : State) : Plain s (exec (.intervalTimeout source) s) := by
  rw [exec_intervalTimeout]; unfold execIntervalTimeout; exact plain_actIf ..
theorem plain_sourceLossTimeout (source : Nat) (s : State) : Plain s (exec (.sourceLossTimeout source) s) := by
  rw [exec_sourceLossTimeout]; unfold execSourceLossTimeout; exact plain_actIf ..
theorem plain_timetableRelease (tt : Nat) (s : State) : Plain s (exec (.timetableRelease tt) s) := by
  rw [exec_timetableRelease]; unfold execTimetableRelease; exact plain_actIf ..
theorem plain_timetableSignal (tt : Nat) (s : State) : Plain s (exec (.timetableSignal tt) s) := by
  rw [exec_timetableSignal]; unfold execTimetableSignal; exact plain_actIf ..
theorem plain_timetableCheck (tt : Nat) (s : State) : Plain s (exec (.timetableCheck tt) s) := by
  rw [exec_timetableCheck]; unfold execTimetableCheck; exact plain_actIf ..
theorem plain_phaseDeadlinePass (tt : Nat) (s : State) : Plain s (exec (.phaseDeadlinePass tt) s) := by
  rw [exec_phaseDeadlinePass]; unfold execPhaseDeadlinePass; exact plain_actIf ..
theorem plain_timeDeadlineExpiry (tt : Nat) (s : State) : Plain s (exec (.timeDeadlineExpiry tt) s) := by
  rw [exec_timeDeadlineExpiry]; unfold execTimeDeadlineExpiry; exact plain_actIf ..
theorem plain_stagingStart (ctx : Nat) (s : State) : Plain s (exec (.stagingStart ctx) s) := by
  rw [exec_stagingStart]; unfold execStagingStart; exact plain_actIf ..
theorem plain_stagingComplete (ctx : Nat) (s : State) : Plain s (exec (.stagingComplete ctx) s) := by
  rw [exec_stagingComplete]; unfold execStagingComplete; exact plain_actIf ..
theorem plain_lendRecessRequest (ctx : Nat) (s : State) : Plain s (exec (.lendRecessRequest ctx) s) := by
  rw [exec_lendRecessRequest]; unfold execLendRecessRequest; exact plain_actIf ..
theorem plain_beQuantumExpiry (ctx : Nat) (s : State) : Plain s (exec (.beQuantumExpiry ctx) s) := by
  rw [exec_beQuantumExpiry]; unfold execBeQuantumExpiry; exact plain_actIf ..
theorem plain_schedulerStart (s : State) : Plain s (exec (.schedulerStart) s) := by
  rw [exec_schedulerStart]; unfold execSchedulerStart; exact plain_act ..
theorem plain_recessPointReached (ctx : Nat) (s : State) : Plain s (exec (.recessPointReached ctx) s) := by
  rw [exec_recessPointReached]; unfold execRecessPointReached; exact plain_actIf ..
theorem plain_saveComplete (ctx : Nat) (s : State) : Plain s (exec (.saveComplete ctx) s) := by
  rw [exec_saveComplete]; unfold execSaveComplete; exact plain_actIf ..
theorem plain_restoreComplete (ctx : Nat) (s : State) : Plain s (exec (.restoreComplete ctx) s) := by
  rw [exec_restoreComplete]; unfold execRestoreComplete; exact plain_actIf ..
theorem plain_preemptTimeout (ctx : Nat) (s : State) : Plain s (exec (.preemptTimeout ctx) s) := by
  rw [exec_preemptTimeout]; unfold execPreemptTimeout; exact plain_actIf ..
theorem plain_recessPartnerSilence (chan : Nat) (s : State) : Plain s (exec (.recessPartnerSilence chan) s) := by
  rw [exec_recessPartnerSilence]; unfold execRecessPartnerSilence; exact plain_actIf ..
theorem plain_teardownComplete (ctx : Nat) (s : State) : Plain s (exec (.teardownComplete ctx) s) := by
  rw [exec_teardownComplete]; unfold execTeardownComplete; exact plain_actIf ..
theorem plain_closeTimeout (ctx : Nat) (s : State) : Plain s (exec (.closeTimeout ctx) s) := by
  rw [exec_closeTimeout]; unfold execCloseTimeout; exact plain_actIf ..
theorem plain_closeComplete (ctx : Nat) (s : State) : Plain s (exec (.closeComplete ctx) s) := by
  rw [exec_closeComplete]; unfold execCloseComplete; exact plain_actIf ..
theorem plain_turnComplete (ctx : Nat) (s : State) : Plain s (exec (.turnComplete ctx) s) := by
  rw [exec_turnComplete]; unfold execTurnComplete; exact plain_actIf ..
theorem plain_zeroExtentComplete (ctx : Nat) (s : State) : Plain s (exec (.zeroExtentComplete ctx) s) := by
  rw [exec_zeroExtentComplete]; unfold execZeroExtentComplete; exact plain_actIf ..
theorem plain_termCooled (s : State) : Plain s (exec (.termCooled) s) := by
  rw [exec_termCooled]; unfold execTermCooled; exact plain_act ..
theorem plain_passDescriptor (unit : At) (s : State) : Plain s (exec (.passDescriptor unit) s) := by
  rw [exec_passDescriptor]; unfold execPassDescriptor; exact plain_atRow ..
theorem plain_columnTableLoad (unit : At) (s : State) : Plain s (exec (.columnTableLoad unit) s) := by
  rw [exec_columnTableLoad]; unfold execColumnTableLoad; exact plain_atRow ..
theorem plain_freeHandle (unit : At) (s : State) : Plain s (exec (.freeHandle unit) s) := by
  rw [exec_freeHandle]; unfold execFreeHandle; exact plain_atRow ..
theorem plain_drainHandle (unit : At) (s : State) : Plain s (exec (.drainHandle unit) s) := by
  rw [exec_drainHandle]; unfold execDrainHandle; exact plain_atRow ..
theorem plain_cuGateRelease (unit : At) (s : State) : Plain s (exec (.cuGateRelease unit) s) := by
  rw [exec_cuGateRelease]; unfold execCuGateRelease; exact plain_atRow ..
theorem plain_passFire (unit : At) (k : Nat) (s : State) : Plain s (exec (.passFire unit k) s) := by
  rw [exec_passFire]; unfold execPassFire; exact plain_atRow ..
theorem plain_weightTileComplete (site : Nat) (s : State) : Plain s (exec (.weightTileComplete site) s) := by
  rw [exec_weightTileComplete]; unfold execWeightTileComplete; exact plain_actIf ..
theorem plain_slotReady (site slot : Nat) (s : State) : Plain s (exec (.slotReady site slot) s) := by
  rw [exec_slotReady]; unfold execSlotReady; exact plain_actIf ..
theorem plain_steeringToken (site word : Nat) (s : State) : Plain s (exec (.steeringToken site word) s) := by
  rw [exec_steeringToken]; unfold execSteeringToken; exact plain_actIf ..
theorem plain_drainStart (site : Nat) (sram : Sram) (s : State) : Plain s (exec (.drainStart site sram) s) := by
  rw [exec_drainStart]; unfold execDrainStart; exact plain_actIf ..
theorem plain_slotRelease (unit : At) (s : State) : Plain s (exec (.slotRelease unit) s) := by
  rw [exec_slotRelease]; unfold execSlotRelease; exact plain_atRow ..
theorem plain_drainComplete (drain : DrainEnd) (s : State) : Plain s (exec (.drainComplete drain) s) := by
  rw [exec_drainComplete]; unfold execDrainComplete; exact plain_atRow ..
theorem plain_tileIndexTake (unit : At) (s : State) : Plain s (exec (.tileIndexTake unit) s) := by
  rw [exec_tileIndexTake]; unfold execTileIndexTake; exact plain_atRow ..
theorem plain_stepMerge (ctx card : Nat) (s : State) : Plain s (exec (.stepMerge ctx card) s) := by
  rw [exec_stepMerge]; unfold execStepMerge; exact plain_actIf ..
theorem plain_heldStepRelease (ctx : Nat) (card : CardRead) (s : State) : Plain s (exec (.heldStepRelease ctx card) s) := by
  rw [exec_heldStepRelease]; unfold execHeldStepRelease; exact plain_actIf ..
theorem plain_issueEntry (unit : At) (list : Nat) (s : State) : Plain s (exec (.issueEntry unit list) s) := by
  rw [exec_issueEntry]; unfold execIssueEntry; exact plain_atRow ..
theorem plain_tileDescriptor (site gen : Nat) (sram : Sram) (s : State) : Plain s (exec (.tileDescriptor site gen sram) s) := by
  rw [exec_tileDescriptor]; unfold execTileDescriptor; exact plain_actIf ..
theorem plain_gatherScatterDescriptor (unit : At) (gen : Nat) (s : State) : Plain s (exec (.gatherScatterDescriptor unit gen) s) := by
  rw [exec_gatherScatterDescriptor]; unfold execGatherScatterDescriptor; exact plain_atRow ..
theorem plain_layoutCopyDescriptor (unit : At) (gen : Nat) (s : State) : Plain s (exec (.layoutCopyDescriptor unit gen) s) := by
  rw [exec_layoutCopyDescriptor]; unfold execLayoutCopyDescriptor; exact plain_atRow ..
theorem plain_externalAccessDescriptor (unit : At) (queue : Nat) (s : State) : Plain s (exec (.externalAccessDescriptor unit queue) s) := by
  rw [exec_externalAccessDescriptor]; unfold execExternalAccessDescriptor; exact plain_atRow ..
theorem plain_accessUnblock (unit : At) (list : Nat) (s : State) : Plain s (exec (.accessUnblock unit list) s) := by
  rw [exec_accessUnblock]; unfold execAccessUnblock; exact plain_atRow ..
theorem plain_narrowStarvation (site : Nat) (s : State) : Plain s (exec (.narrowStarvation site) s) := by
  rw [exec_narrowStarvation]; unfold execNarrowStarvation; exact plain_actIf ..
theorem plain_descriptorComplete (site gen : Nat) (s : State) : Plain s (exec (.descriptorComplete site gen) s) := by
  rw [exec_descriptorComplete]; unfold execDescriptorComplete; exact plain_actIf ..
theorem plain_eadComplete (site : Nat) (done : EadEnd) (s : State) : Plain s (exec (.eadComplete site done) s) := by
  rw [exec_eadComplete]; unfold execEadComplete; exact plain_actIf ..
theorem plain_hbmEccRetry (site queue addr : Nat) (clean : Bool) (s : State) : Plain s (exec (.hbmEccRetry site queue addr clean) s) := by
  rw [exec_hbmEccRetry]; unfold execHbmEccRetry; exact plain_actIf ..
theorem plain_scrubPatrol (addr : Nat) (ecc : Ecc) (s : State) : Plain s (exec (.scrubPatrol addr ecc) s) := by
  rw [exec_scrubPatrol]; unfold execScrubPatrol; exact plain_act ..
theorem plain_hbmRefresh (stack pc : Nat) (s : State) : Plain s (exec (.hbmRefresh stack pc) s) := by
  rw [exec_hbmRefresh]; unfold execHbmRefresh; exact plain_actIf ..
theorem plain_pseudoChannelFailing (stack pc : Nat) (cause : W16) (s : State) : Plain s (exec (.pseudoChannelFailing stack pc cause) s) := by
  rw [exec_pseudoChannelFailing]; unfold execPseudoChannelFailing; exact plain_actIf ..
theorem plain_pseudoChannelSwitch (stack pc : Nat) (s : State) : Plain s (exec (.pseudoChannelSwitch stack pc) s) := by
  rw [exec_pseudoChannelSwitch]; unfold execPseudoChannelSwitch; exact plain_actIf ..
theorem plain_tileRequest (site group : Nat) (s : State) : Plain s (exec (.tileRequest site group) s) := by
  rw [exec_tileRequest]; unfold execTileRequest; exact plain_actIf ..
theorem plain_tileGrant (site : Nat) (s : State) : Plain s (exec (.tileGrant site) s) := by
  rw [exec_tileGrant]; unfold execTileGrant; exact plain_actIf ..
theorem plain_signalPacket (site route : Nat) (check : WordCheck) (s : State) : Plain s (exec (.signalPacket site route check) s) := by
  rw [exec_signalPacket]; unfold execSignalPacket; exact plain_actIf ..
theorem plain_watchdogExpiry (site wait : Nat) (s : State) : Plain s (exec (.watchdogExpiry site wait) s) := by
  rw [exec_watchdogExpiry]; unfold execWatchdogExpiry; exact plain_actIf ..
theorem plain_fabricWord (site port : Nat) (check : WordCheck) (s : State) : Plain s (exec (.fabricWord site port check) s) := by
  rw [exec_fabricWord]; unfold execFabricWord; exact plain_actIf ..
theorem plain_creditReturn (site port : Nat) (s : State) : Plain s (exec (.creditReturn site port) s) := by
  rw [exec_creditReturn]; unfold execCreditReturn; exact plain_actIf ..
theorem plain_forkSend (unit : At) (entry : Nat) (s : State) : Plain s (exec (.forkSend unit entry) s) := by
  rw [exec_forkSend]; unfold execForkSend; exact plain_atRow ..
theorem plain_reduceFire (unit : At) (entry : Nat) (s : State) : Plain s (exec (.reduceFire unit entry) s) := by
  rw [exec_reduceFire]; unfold execReduceFire; exact plain_atRow ..
theorem plain_rejoinImbalance (site entry : Nat) (s : State) : Plain s (exec (.rejoinImbalance site entry) s) := by
  rw [exec_rejoinImbalance]; unfold execRejoinImbalance; exact plain_actIf ..
theorem plain_linkErrorRate (site port : Nat) (s : State) : Plain s (exec (.linkErrorRate site port) s) := by
  rw [exec_linkErrorRate]; unfold execLinkErrorRate; exact plain_actIf ..
theorem plain_unitFailed (site : Nat) (s : State) : Plain s (exec (.unitFailed site) s) := by
  rw [exec_unitFailed]; unfold execUnitFailed; exact plain_actIf ..
theorem plain_sramRetest (site store addr : Nat) (bad : Bool) (s : State) : Plain s (exec (.sramRetest site store addr bad) s) := by
  rw [exec_sramRetest]; unfold execSramRetest; exact plain_actIf ..
theorem plain_pairRetirement (wing pair : Nat) (cause : W16) (s : State) : Plain s (exec (.pairRetirement wing pair cause) s) := by
  rw [exec_pairRetirement]; unfold execPairRetirement; exact plain_actIf ..
theorem plain_pairRemap (wing : Nat) (testOk : Bool) (s : State) : Plain s (exec (.pairRemap wing testOk) s) := by
  rw [exec_pairRemap]; unfold execPairRemap; exact plain_actIf ..
theorem plain_bridgeLoss (bridge : Nat) (s : State) : Plain s (exec (.bridgeLoss bridge) s) := by
  rw [exec_bridgeLoss]; unfold execBridgeLoss; exact plain_actIf ..
theorem plain_splitFence (s : State) : Plain s (exec (.splitFence) s) := by
  rw [exec_splitFence]; unfold execSplitFence; exact plain_act ..
theorem plain_twinFaultWindowClose (ctx : Nat) (s : State) : Plain s (exec (.twinFaultWindowClose ctx) s) := by
  rw [exec_twinFaultWindowClose]; unfold execTwinFaultWindowClose; exact plain_actIf ..
theorem plain_twinEgressCompare (chan : Nat) (sram : Sram) (s : State) : Plain s (exec (.twinEgressCompare chan sram) s) := by
  rw [exec_twinEgressCompare]; unfold execTwinEgressCompare; exact plain_actIf ..
theorem plain_twinEgressTimeout (late : TwinValue) (s : State) : Plain s (exec (.twinEgressTimeout late) s) := by
  rw [exec_twinEgressTimeout]; unfold execTwinEgressTimeout; exact plain_act ..
theorem plain_promotionComplete (pair : Nat) (s : State) : Plain s (exec (.promotionComplete pair) s) := by
  rw [exec_promotionComplete]; unfold execPromotionComplete; exact plain_actIf ..
theorem plain_lightDetected (port lanes : Nat) (s : State) : Plain s (exec (.lightDetected port lanes) s) := by
  rw [exec_lightDetected]; unfold execLightDetected; exact plain_actIf ..
theorem plain_lightLost (port : Nat) (s : State) : Plain s (exec (.lightLost port) s) := by
  rw [exec_lightLost]; unfold execLightLost; exact plain_actIf ..
theorem plain_trainLock (port : Nat) (s : State) : Plain s (exec (.trainLock port) s) := by
  rw [exec_trainLock]; unfold execTrainLock; exact plain_actIf ..
theorem plain_trainTimeout (port : Nat) (s : State) : Plain s (exec (.trainTimeout port) s) := by
  rw [exec_trainTimeout]; unfold execTrainTimeout; exact plain_actIf ..
theorem plain_negotiateTimeout (port : Nat) (s : State) : Plain s (exec (.negotiateTimeout port) s) := by
  rw [exec_negotiateTimeout]; unfold execNegotiateTimeout; exact plain_actIf ..
theorem plain_hello (port : Nat) (cw : Option Codeword) (word : Nat) (s : State) : Plain s (exec (.hello port cw word) s) := by
  rw [exec_hello]; unfold execHello; exact plain_word ..
theorem plain_echo (port : Nat) (cw : Option Codeword) (word : Nat) (s : State) : Plain s (exec (.echo port cw word) s) := by
  rw [exec_echo]; unfold execEcho; exact plain_word ..
theorem plain_echoReply (port : Nat) (cw : Option Codeword) (word : Nat) (s : State) : Plain s (exec (.echoReply port cw word) s) := by
  rw [exec_echoReply]; unfold execEchoReply; exact plain_word ..
theorem plain_linkIdleTimeout (port : Nat) (s : State) : Plain s (exec (.linkIdleTimeout port) s) := by
  rw [exec_linkIdleTimeout]; unfold execLinkIdleTimeout; exact plain_actIf ..
theorem plain_dataFrame (port : Nat) (fec : Bool) (idx : Nat) (frame : List Byte) (s : State) : Plain s (exec (.dataFrame port fec idx frame) s) := by
  rw [exec_dataFrame]; unfold execDataFrame; exact plain_dataArrives ..
theorem plain_idleFrame (port : Nat) (idx : Option Nat) (frame : List Byte) (s : State) : Plain s (exec (.idleFrame port idx frame) s) := by
  rw [exec_idleFrame]; unfold execIdleFrame; exact plain_idleArrives ..
theorem plain_replayBufferFullTimeout (port : Nat) (s : State) : Plain s (exec (.replayBufferFullTimeout port) s) := by
  rw [exec_replayBufferFullTimeout]; unfold execReplayBufferFullTimeout; exact plain_actIf ..
theorem plain_credit (port : Nat) (cw : Option Codeword) (word : Nat) (s : State) : Plain s (exec (.credit port cw word) s) := by
  rw [exec_credit]; unfold execCredit; exact plain_word ..
theorem plain_creditCoalesce (chan : Nat) (s : State) : Plain s (exec (.creditCoalesce chan) s) := by
  rw [exec_creditCoalesce]; unfold execCreditCoalesce; exact plain_actIf ..
theorem plain_revoke (port : Nat) (cw : Option Codeword) (word : Nat) (s : State) : Plain s (exec (.revoke port cw word) s) := by
  rw [exec_revoke]; unfold execRevoke; exact plain_word ..
theorem plain_rewind (port : Nat) (cw : Option Codeword) (word : Nat) (s : State) : Plain s (exec (.rewind port cw word) s) := by
  rw [exec_rewind]; unfold execRewind; exact plain_word ..
theorem plain_wclosed (port : Nat) (cw : Option Codeword) (word : Nat) (s : State) : Plain s (exec (.wclosed port cw word) s) := by
  rw [exec_wclosed]; unfold execWclosed; exact plain_word ..
theorem plain_stepToken (port : Nat) (cw : Option Codeword) (word : Nat) (s : State) : Plain s (exec (.stepToken port cw word) s) := by
  rw [exec_stepToken]; unfold execStepToken; exact plain_word ..
theorem plain_windowOpenWord (port : Nat) (cw : Option Codeword) (word : Nat) (s : State) : Plain s (exec (.windowOpenWord port cw word) s) := by
  rw [exec_windowOpenWord]; unfold execWindowOpenWord; exact plain_word ..
theorem plain_windowOpenTimeout (chan : Nat) (s : State) : Plain s (exec (.windowOpenTimeout chan) s) := by
  rw [exec_windowOpenTimeout]; unfold execWindowOpenTimeout; exact plain_actIf ..
theorem plain_windowCloseWord (port : Nat) (cw : Option Codeword) (word : Nat) (s : State) : Plain s (exec (.windowCloseWord port cw word) s) := by
  rw [exec_windowCloseWord]; unfold execWindowCloseWord; exact plain_word ..
theorem plain_windowCloseTimeout (chan : Nat) (s : State) : Plain s (exec (.windowCloseTimeout chan) s) := by
  rw [exec_windowCloseTimeout]; unfold execWindowCloseTimeout; exact plain_actIf ..
theorem plain_laneMap (port : Nat) (cw : Option Codeword) (word : Nat) (s : State) : Plain s (exec (.laneMap port cw word) s) := by
  rw [exec_laneMap]; unfold execLaneMap; exact plain_word ..
theorem plain_laneMapAck (port : Nat) (cw : Option Codeword) (word : Nat) (s : State) : Plain s (exec (.laneMapAck port cw word) s) := by
  rw [exec_laneMapAck]; unfold execLaneMapAck; exact plain_word ..
theorem plain_laneErrorWindow (port : Nat) (errors : List Nat) (s : State) : Plain s (exec (.laneErrorWindow port errors) s) := by
  rw [exec_laneErrorWindow]; unfold execLaneErrorWindow; exact plain_actIf ..
theorem plain_laneSwitch (turn : LaneTurn) (s : State) : Plain s (exec (.laneSwitch turn) s) := by
  rw [exec_laneSwitch]; unfold execLaneSwitch; exact plain_actIf ..
theorem plain_blockLand (chan : Nat) (s : State) : Plain s (exec (.blockLand chan) s) := by
  rw [exec_blockLand]; unfold execBlockLand; exact plain_actIf ..
theorem plain_hbmBlockLand (chan : Nat) (s : State) : Plain s (exec (.hbmBlockLand chan) s) := by
  rw [exec_hbmBlockLand]; unfold execHbmBlockLand; exact plain_actIf ..
theorem plain_egressBlockSend (block : BlockRead) (s : State) : Plain s (exec (.egressBlockSend block) s) := by
  rw [exec_egressBlockSend]; unfold execEgressBlockSend; exact plain_actIf ..
theorem plain_streamHoldExpiry (port : Nat) (s : State) : Plain s (exec (.streamHoldExpiry port) s) := by
  rw [exec_streamHoldExpiry]; unfold execStreamHoldExpiry; exact plain_actIf ..
theorem plain_trainRetryTimer (port : Nat) (s : State) : Plain s (exec (.trainRetryTimer port) s) := by
  rw [exec_trainRetryTimer]; unfold execTrainRetryTimer; exact plain_actIf ..
theorem plain_laneMarkersLost (port lane : Nat) (s : State) : Plain s (exec (.laneMarkersLost port lane) s) := by
  rw [exec_laneMarkersLost]; unfold execLaneMarkersLost; exact plain_actIf ..
theorem plain_inputStartThreshold (s : State) : Plain s (exec (.inputStartThreshold) s) := by
  rw [exec_inputStartThreshold]; unfold execInputStartThreshold; exact plain_act ..
theorem plain_powerUpHoldoffExpiry (s : State) : Plain s (exec (.powerUpHoldoffExpiry) s) := by
  rw [exec_powerUpHoldoffExpiry]; unfold execPowerUpHoldoffExpiry; exact plain_act ..
theorem plain_voltageToleranceChange (rail : Nat) (inside : Bool) (s : State) : Plain s (exec (.voltageToleranceChange rail inside) s) := by
  rw [exec_voltageToleranceChange]; unfold execVoltageToleranceChange; exact plain_actIf ..
theorem plain_hostLinkChange (port : Nat) (up : Bool) (s : State) : Plain s (exec (.hostLinkChange port up) s) := by
  rw [exec_hostLinkChange]; unfold execHostLinkChange; exact plain_actIf ..
theorem plain_ecatLinkChange (port : Nat) (up : Bool) (s : State) : Plain s (exec (.ecatLinkChange port up) s) := by
  rw [exec_ecatLinkChange]; unfold execEcatLinkChange; exact plain_actIf ..

/-- The commands that may change a fuse. -/
def fuseCmd : Instr → Bool
  | .commitComplete _ | .pwrEnFall | .inputUndervoltage | .inputOvervoltage | .railFault | .resetNAssert | .coolantFlowShutdown
  | .thermalReading _ _ _ _ | .fullResetRequest _ _ | .planeResetRequest _ _ | .dictWrite _ _ _ _ _ | .coeSdoDownload _ _ _ => true
  | _ => false

/-- Every other command answers its effect closed. -/
theorem exec_plain (c : Instr) (s : State) (h : fuseCmd c = false) : Plain s (exec c s) := by
  cases c with
  | nop conn msg => exact plain_nop ..
  | queueCreate conn msg => exact plain_queueCreate ..
  | queueDestroy conn msg => exact plain_queueDestroy ..
  | queueAck conn msg => exact plain_queueAck ..
  | queueModify conn msg => exact plain_queueModify ..
  | leaseAcquire conn msg => exact plain_leaseAcquire ..
  | leaseRenew conn msg => exact plain_leaseRenew ..
  | leaseRelease conn msg => exact plain_leaseRelease ..
  | openCtx conn msg => exact plain_openCtx ..
  | extentAdd conn msg => exact plain_extentAdd ..
  | extentFree conn msg => exact plain_extentFree ..
  | extentGrantComplete ctx => exact plain_extentGrantComplete ..
  | load conn msg => exact plain_load ..
  | loadFetchComplete ctx file => exact plain_loadFetchComplete ..
  | unload conn msg => exact plain_unload ..
  | launch conn msg => exact plain_launch ..
  | recess conn msg => exact plain_recess ..
  | resume conn msg => exact plain_resume ..
  | release conn msg => exact plain_release ..
  | close conn msg => exact plain_close ..
  | mwOpen conn msg => exact plain_mwOpen ..
  | mwClose conn msg => exact plain_mwClose ..
  | mwCloseComplete win => exact plain_mwCloseComplete ..
  | swOpen conn msg => exact plain_swOpen ..
  | swClose conn msg => exact plain_swClose ..
  | objCreate conn msg => exact plain_objCreate ..
  | objDestroy conn msg => exact plain_objDestroy ..
  | objGrant conn msg => exact plain_objGrant ..
  | objSignal conn msg => exact plain_objSignal ..
  | objWait conn msg => exact plain_objWait ..
  | rcRead conn msg => exact plain_rcRead ..
  | rcReset conn msg => exact plain_rcReset ..
  | rollCall conn msg => exact plain_rollCall ..
  | ctxRead conn msg => exact plain_ctxRead ..
  | dbgRead conn msg => exact plain_dbgRead ..
  | rdmaWriteAcked pkt => exact plain_rdmaWriteAcked ..
  | remoteAccessError pkt => exact plain_remoteAccessError ..
  | cmReq port gid priv => exact plain_cmReq ..
  | cmDreq pkt => exact plain_cmDreq ..
  | ackTimeout lost => exact plain_ackTimeout ..
  | livenessTimeout conn => exact plain_livenessTimeout ..
  | hostGraceExpiry host => exact plain_hostGraceExpiry ..
  | rdmaWriteRequest conn rkey off data => exact plain_rdmaWriteRequest ..
  | rdmaReadRequest conn rkey off ask => exact plain_rdmaReadRequest ..
  | unsupportedRequest pkt => exact plain_unsupportedRequest ..
  | ecnMarkedPacket pkt => exact plain_ecnMarkedPacket ..
  | cnpReceived pkt => exact plain_cnpReceived ..
  | sendRateRaise conn => exact plain_sendRateRaise ..
  | leaseExpiry => exact plain_leaseExpiry ..
  | ptpSync port time offset => exact plain_ptpSync ..
  | ptpSyncLoss port => exact plain_ptpSyncLoss ..
  | sdoUdpDatagram port src data => exact plain_sdoUdpDatagram ..
  | coeSdoUpload index sub complete => exact plain_coeSdoUpload ..
  | sdoInformation => exact plain_sdoInformation ..
  | alStateRequest target => exact plain_alStateRequest ..
  | ecatSupervisionTimeout => exact plain_ecatSupervisionTimeout ..
  | sync0Event => exact plain_sync0Event ..
  | inputRefresh => exact plain_inputRefresh ..
  | powerCapWrite req term value => exact plain_powerCapWrite ..
  | aclkCeilingWrite req term value => exact plain_aclkCeilingWrite ..
  | reportCardReset req term value => exact plain_reportCardReset ..
  | watchdogPeriodWrite req term sub value => exact plain_watchdogPeriodWrite ..
  | rollCallTrigger req term => exact plain_rollCallTrigger ..
  | rollCallDone => exact plain_rollCallDone ..
  | rejoinThresholdWrite req term value => exact plain_rejoinThresholdWrite ..
  | forceClose req term value => exact plain_forceClose ..
  | debugPermittedWrite req term value => exact plain_debugPermittedWrite ..
  | timetableEntryWrite req term entry => exact plain_timetableEntryWrite ..
  | timetableEnable req term tt => exact plain_timetableEnable ..
  | timetableDisable req term tt => exact plain_timetableDisable ..
  | timetableRangeWrite req term tt sub value => exact plain_timetableRangeWrite ..
  | timetableQuiesceTimeout tt => exact plain_timetableQuiesceTimeout ..
  | trienPortEnable req term port => exact plain_trienPortEnable ..
  | trienPortDisable req term port => exact plain_trienPortDisable ..
  | hostPortEnableWrite req term port value => exact plain_hostPortEnableWrite ..
  | hostPortAddressWrite req term port sub value => exact plain_hostPortAddressWrite ..
  | hostGidWrite req term host value => exact plain_hostGidWrite ..
  | hostEnableWrite req term host value => exact plain_hostEnableWrite ..
  | leaseRevoke req term => exact plain_leaseRevoke ..
  | serviceWrite req term value => exact plain_serviceWrite ..
  | gateDisable req term gate => exact plain_gateDisable ..
  | gateEnable req term gate => exact plain_gateEnable ..
  | quiesceTimeout gate => exact plain_quiesceTimeout ..
  | errorHistoryClear req term value => exact plain_errorHistoryClear ..
  | sm3SyncModeWrite req term value => exact plain_sm3SyncModeWrite ..
  | twinModeWrite req term pair value => exact plain_twinModeWrite ..
  | wingFence req term wing => exact plain_wingFence ..
  | wingUnfence req term wing => exact plain_wingUnfence ..
  | commit req term => exact plain_commit ..
  | syllabusPolicyWrite req term value => exact plain_syllabusPolicyWrite ..
  | syllabusKeyHashWrite req term slot value => exact plain_syllabusKeyHashWrite ..
  | attestationTrigger req term => exact plain_attestationTrigger ..
  | attestationSigned => exact plain_attestationSigned ..
  | debugDataRead req => exact plain_debugDataRead ..
  | powerWindowEnd mean => exact plain_powerWindowEnd ..
  | coolantFlowLow flow inlet outlet glycol => exact plain_coolantFlowLow ..
  | pwrEnRise => exact plain_pwrEnRise ..
  | resetNRelease => exact plain_resetNRelease ..
  | vcmpFault wing => exact plain_vcmpFault ..
  | voptFault wing => exact plain_voptFault ..
  | railEnable => exact plain_railEnable ..
  | romStart mc0Ok mc1Ok => exact plain_romStart ..
  | dhcpOffer port offer => exact plain_dhcpOffer ..
  | dhcpRetry port => exact plain_dhcpRetry ..
  | tftpRetry port => exact plain_tftpRetry ..
  | tftpBlock port data => exact plain_tftpBlock ..
  | foeWrite named file => exact plain_foeWrite ..
  | firmwareImageReceived path => exact plain_firmwareImageReceived ..
  | mc1ImageCheck pathOk => exact plain_mc1ImageCheck ..
  | hbmTraining failing => exact plain_hbmTraining ..
  | siteSelfTest failing dead => exact plain_siteSelfTest ..
  | linkTraining bridges => exact plain_linkTraining ..
  | dictionaryOnline => exact plain_dictionaryOnline ..
  | contextsMayOpen => exact plain_contextsMayOpen ..
  | bellEdge a b => exact plain_bellEdge ..
  | bellIndexEdge forward => exact plain_bellIndexEdge ..
  | intervalTimeout source => exact plain_intervalTimeout ..
  | sourceLossTimeout source => exact plain_sourceLossTimeout ..
  | timetableRelease tt => exact plain_timetableRelease ..
  | timetableSignal tt => exact plain_timetableSignal ..
  | timetableCheck tt => exact plain_timetableCheck ..
  | phaseDeadlinePass tt => exact plain_phaseDeadlinePass ..
  | timeDeadlineExpiry tt => exact plain_timeDeadlineExpiry ..
  | stagingStart ctx => exact plain_stagingStart ..
  | stagingComplete ctx => exact plain_stagingComplete ..
  | lendRecessRequest ctx => exact plain_lendRecessRequest ..
  | beQuantumExpiry ctx => exact plain_beQuantumExpiry ..
  | schedulerStart => exact plain_schedulerStart ..
  | recessPointReached ctx => exact plain_recessPointReached ..
  | saveComplete ctx => exact plain_saveComplete ..
  | restoreComplete ctx => exact plain_restoreComplete ..
  | preemptTimeout ctx => exact plain_preemptTimeout ..
  | recessPartnerSilence chan => exact plain_recessPartnerSilence ..
  | teardownComplete ctx => exact plain_teardownComplete ..
  | closeTimeout ctx => exact plain_closeTimeout ..
  | closeComplete ctx => exact plain_closeComplete ..
  | turnComplete ctx => exact plain_turnComplete ..
  | zeroExtentComplete ctx => exact plain_zeroExtentComplete ..
  | termCooled => exact plain_termCooled ..
  | passDescriptor unit => exact plain_passDescriptor ..
  | columnTableLoad unit => exact plain_columnTableLoad ..
  | freeHandle unit => exact plain_freeHandle ..
  | drainHandle unit => exact plain_drainHandle ..
  | cuGateRelease unit => exact plain_cuGateRelease ..
  | passFire unit k => exact plain_passFire ..
  | weightTileComplete site => exact plain_weightTileComplete ..
  | slotReady site slot => exact plain_slotReady ..
  | steeringToken site word => exact plain_steeringToken ..
  | drainStart site sram => exact plain_drainStart ..
  | slotRelease unit => exact plain_slotRelease ..
  | drainComplete drain => exact plain_drainComplete ..
  | tileIndexTake unit => exact plain_tileIndexTake ..
  | stepMerge ctx card => exact plain_stepMerge ..
  | heldStepRelease ctx card => exact plain_heldStepRelease ..
  | issueEntry unit list => exact plain_issueEntry ..
  | tileDescriptor site gen sram => exact plain_tileDescriptor ..
  | gatherScatterDescriptor unit gen => exact plain_gatherScatterDescriptor ..
  | layoutCopyDescriptor unit gen => exact plain_layoutCopyDescriptor ..
  | externalAccessDescriptor unit queue => exact plain_externalAccessDescriptor ..
  | accessUnblock unit list => exact plain_accessUnblock ..
  | narrowStarvation site => exact plain_narrowStarvation ..
  | descriptorComplete site gen => exact plain_descriptorComplete ..
  | eadComplete site done => exact plain_eadComplete ..
  | hbmEccRetry site queue addr clean => exact plain_hbmEccRetry ..
  | scrubPatrol addr ecc => exact plain_scrubPatrol ..
  | hbmRefresh stack pc => exact plain_hbmRefresh ..
  | pseudoChannelFailing stack pc cause => exact plain_pseudoChannelFailing ..
  | pseudoChannelSwitch stack pc => exact plain_pseudoChannelSwitch ..
  | tileRequest site group => exact plain_tileRequest ..
  | tileGrant site => exact plain_tileGrant ..
  | signalPacket site route check => exact plain_signalPacket ..
  | watchdogExpiry site wait => exact plain_watchdogExpiry ..
  | fabricWord site port check => exact plain_fabricWord ..
  | creditReturn site port => exact plain_creditReturn ..
  | forkSend unit entry => exact plain_forkSend ..
  | reduceFire unit entry => exact plain_reduceFire ..
  | rejoinImbalance site entry => exact plain_rejoinImbalance ..
  | linkErrorRate site port => exact plain_linkErrorRate ..
  | unitFailed site => exact plain_unitFailed ..
  | sramRetest site store addr bad => exact plain_sramRetest ..
  | pairRetirement wing pair cause => exact plain_pairRetirement ..
  | pairRemap wing testOk => exact plain_pairRemap ..
  | bridgeLoss bridge => exact plain_bridgeLoss ..
  | splitFence => exact plain_splitFence ..
  | twinFaultWindowClose ctx => exact plain_twinFaultWindowClose ..
  | twinEgressCompare chan sram => exact plain_twinEgressCompare ..
  | twinEgressTimeout late => exact plain_twinEgressTimeout ..
  | promotionComplete pair => exact plain_promotionComplete ..
  | lightDetected port lanes => exact plain_lightDetected ..
  | lightLost port => exact plain_lightLost ..
  | trainLock port => exact plain_trainLock ..
  | trainTimeout port => exact plain_trainTimeout ..
  | negotiateTimeout port => exact plain_negotiateTimeout ..
  | hello port cw word => exact plain_hello ..
  | echo port cw word => exact plain_echo ..
  | echoReply port cw word => exact plain_echoReply ..
  | linkIdleTimeout port => exact plain_linkIdleTimeout ..
  | dataFrame port fec idx frame => exact plain_dataFrame ..
  | idleFrame port idx frame => exact plain_idleFrame ..
  | replayBufferFullTimeout port => exact plain_replayBufferFullTimeout ..
  | credit port cw word => exact plain_credit ..
  | creditCoalesce chan => exact plain_creditCoalesce ..
  | revoke port cw word => exact plain_revoke ..
  | rewind port cw word => exact plain_rewind ..
  | wclosed port cw word => exact plain_wclosed ..
  | stepToken port cw word => exact plain_stepToken ..
  | windowOpenWord port cw word => exact plain_windowOpenWord ..
  | windowOpenTimeout chan => exact plain_windowOpenTimeout ..
  | windowCloseWord port cw word => exact plain_windowCloseWord ..
  | windowCloseTimeout chan => exact plain_windowCloseTimeout ..
  | laneMap port cw word => exact plain_laneMap ..
  | laneMapAck port cw word => exact plain_laneMapAck ..
  | laneErrorWindow port errors => exact plain_laneErrorWindow ..
  | laneSwitch turn => exact plain_laneSwitch ..
  | blockLand chan => exact plain_blockLand ..
  | hbmBlockLand chan => exact plain_hbmBlockLand ..
  | egressBlockSend block => exact plain_egressBlockSend ..
  | streamHoldExpiry port => exact plain_streamHoldExpiry ..
  | trainRetryTimer port => exact plain_trainRetryTimer ..
  | laneMarkersLost port lane => exact plain_laneMarkersLost ..
  | inputStartThreshold => exact plain_inputStartThreshold ..
  | powerUpHoldoffExpiry => exact plain_powerUpHoldoffExpiry ..
  | voltageToleranceChange rail inside => exact plain_voltageToleranceChange ..
  | hostLinkChange port up => exact plain_hostLinkChange ..
  | ecatLinkChange port up => exact plain_ecatLinkChange ..
  | commitComplete _ => simp [fuseCmd] at h
  | pwrEnFall => simp [fuseCmd] at h
  | inputUndervoltage => simp [fuseCmd] at h
  | inputOvervoltage => simp [fuseCmd] at h
  | railFault => simp [fuseCmd] at h
  | resetNAssert => simp [fuseCmd] at h
  | coolantFlowShutdown => simp [fuseCmd] at h
  | thermalReading _ _ _ _ => simp [fuseCmd] at h
  | fullResetRequest _ _ => simp [fuseCmd] at h
  | planeResetRequest _ _ => simp [fuseCmd] at h
  | dictWrite _ _ _ _ _ => simp [fuseCmd] at h
  | coeSdoDownload _ _ _ => simp [fuseCmd] at h

/-- An answer that may change a fuse: the effect closed, with or without what it did to the fuses. -/
def Fused (s : State) (o : Host.Outcome State Fault Refusal) : Prop := Plain s o ∨ ∃ g : State → State, o = actFuse s g

theorem fused_writeAny (s : State) (r : Requester) (term index sub : Nat) (data : List Byte) :
    Fused s (writeAny s r term index sub data) := by
  unfold writeAny
  split
  · exact .inr ⟨_, rfl⟩
  · exact .inl (plain_act ..)

/-- What any command can answer. -/
theorem exec_fused (c : Instr) (s : State) : Fused s (exec c s) := by
  by_cases h : fuseCmd c = false
  · exact .inl (exec_plain c s h)
  · cases c with
    | commitComplete b => unfold exec execCommitComplete; exact .inr ⟨_, rfl⟩
    | pwrEnFall => unfold exec execPwrEnFall; exact .inr ⟨_, rfl⟩
    | inputUndervoltage => unfold exec execInputUndervoltage; exact .inr ⟨_, rfl⟩
    | inputOvervoltage => unfold exec execInputOvervoltage; exact .inr ⟨_, rfl⟩
    | railFault => unfold exec execRailFault; exact .inr ⟨_, rfl⟩
    | resetNAssert => unfold exec execResetNAssert; exact .inr ⟨_, rfl⟩
    | coolantFlowShutdown => unfold exec execCoolantFlowShutdown; exact .inr ⟨_, rfl⟩
    | thermalReading a b c d => unfold exec execThermalReading; exact .inr ⟨_, rfl⟩
    | fullResetRequest r t => unfold exec execFullResetRequest; exact fused_writeAny ..
    | planeResetRequest r t => unfold exec execPlaneResetRequest; exact fused_writeAny ..
    | dictWrite r t i j d => unfold exec execDictWrite; exact fused_writeAny ..
    | coeSdoDownload i j d =>
      rw [exec_coeSdoDownload]
      unfold execCoeSdoDownload
      split
      · exact .inl (plain_act ..)
      · exact fused_writeAny ..
    | _ => simp [fuseCmd] at h

/-- Every command answers a next state: nothing stops the block. -/
theorem exec_next (c : Instr) (s : State) : ∃ t, exec c s = .next t := by
  rcases exec_fused c s with ⟨g, hg⟩ | ⟨g, hg⟩
  · exact ⟨_, hg⟩
  · exact ⟨_, hg⟩

/-- No command changes the queue of waiting commands or the clock, and every next state is a settled one. -/
theorem exec_settles (c : Instr) (s t : State) (h : exec c s = .next t) :
    ∃ u : State, t = settle u ∧ u.pending = s.pending ∧ u.fclk = s.fclk := by
  rcases exec_fused c s with ⟨g, hg⟩ | ⟨g, hg⟩
  · have e : closeStep s (g s) = t := Host.Outcome.next.inj (hg.symm.trans h)
    exact ⟨{ g s with pending := s.pending, fclk := s.fclk, fuse := s.fuse }, e.symm, rfl, rfl⟩
  · have e : settle { g s with pending := s.pending, fclk := s.fclk } = t := Host.Outcome.next.inj (hg.symm.trans h)
    exact ⟨{ g s with pending := s.pending, fclk := s.fclk }, e.symm, rfl, rfl⟩

end Sys2Proof.Machine
end

