-- ==== Sys2Proof/Machine/Scan.lean ====
section
/-! DEFINITION. The boundary-scan chain of J5: which dies it passes, what their instructions do to their boundary cells and pads, and what
IDCODE reads (R469). No row of the table is a scan (log entry 54): the TAPs stand in the state, and these are the operations over them. -/

namespace Sys2Proof.Machine

/-- The devices of the chain from TDI to TDO: wing, and whether it is the compute die. -/
def scanChain : List (Nat × Bool) := (List.range 4).flatMap fun w => [(w, false), (w, true)]

/-- Compute die D of SJ-L3612-M answers BYPASS and IDCODE only. -/
def scanLimited (s : State) (d : Nat) : Bool := s.fuse.product = productS && d = 7

/-- A TAP of the chain. -/
def tapOf (s : State) (d : Nat) : Tap := s.scan.getD d Tap.initial

/-- The instruction that device `d` of the chain acts on: EXTEST, CLAMP and HIGHZ only while RESET_n is low. -/
def scanActive (s : State) (d : Nat) : ScanInstr :=
  match (tapOf s d).ir with
  | .bypass => .bypass
  | .idcode => .idcode
  | .sample => if scanLimited s d then .bypass else .sample
  | .extest => if scanLimited s d || s.power.resetN then .bypass else .extest
  | .clamp => if scanLimited s d || s.power.resetN then .bypass else .clamp
  | .highz => if scanLimited s d || s.power.resetN then .bypass else .highz

/-- What IDCODE reads from device `d`: the stepping above the code of its kind of die. -/
def scanIdcode (s : State) (d : Nat) : W32 :=
  BitVec.ofNat 32 (fld s.fuse.revision.toNat 16 4 * 2 ^ 28 + if (scanChain.getD d (0, false)).2 then 0xC0C1B47 else 0xC0B1B47)

/-- The TAPs respond from the end of step 1. -/
def scanResponds (s : State) : Bool := s.power.on

/-- Changes the TAP of a device of a chain that responds. -/
def modTap (s : State) (d : Nat) (f : Tap → Tap) : State :=
  if scanResponds s && d < s.scan.length then { s with scan := s.scan.set d (f (tapOf s d)) } else s

/-- An instruction is shifted in and takes effect. -/
def scanSelect (s : State) (d : Nat) (i : ScanInstr) : State := modTap s d fun t => { t with ir := i }

/-- The boundary register is the selected register of a device. -/
def scansCells (s : State) (d : Nat) : Bool := scanActive s d == .sample || scanActive s d == .extest

/-- The levels that the pads of a device have are captured into its boundary cells: by SAMPLE, and by EXTEST. -/
def scanCapture (s : State) (d : Nat) (pads : List (Pad × Bool)) : State :=
  if scansCells s d then modTap s d fun t => { t with cells := pads } else s

/-- Values are shifted into the boundary cells: PRELOAD, or what EXTEST is to drive. -/
def scanUpdate (s : State) (d : Nat) (cells : List (Pad × Bool)) : State :=
  if scansCells s d then modTap s d fun t => { t with cells := cells } else s

/-- What a device drives on an output pad: its own level, or under EXTEST and CLAMP its boundary cell, and nothing under HIGHZ. -/
def padDriven (s : State) (d : Nat) (p : Pad) (own : Bool) : Option Bool :=
  match scanActive s d with
  | .extest | .clamp => ((tapOf s d).cells.find? fun c => c.1 = p).map (·.2)
  | .highz => none
  | .bypass | .idcode | .sample => some own

/-- The level that the sideband output at a pin has (R465, R468), as the device that drives it drives it. -/
def sidebandOut (s : State) (d pin : Nat) : Option Bool :=
  padDriven s d (.sideband pin) (match pin with
    | 15 => pwrOk s
    | 16 => alertN s
    | 17 => thermN s
    | 18 => readyN s
    | _ => false)

end Sys2Proof.Machine
end

