-- ==== Sys2Proof/Tests/Slice0.lean ====
section
/-! SUPPORT. Tests: ill-formed commands that the checks refuse, witnesses of the hypotheses of the statements, and single
steps with results from the spec. -/

namespace Sys2Proof.Tests

open Sys2Proof Sys2Proof.Machine

set_option Elab.async false

/-! ## Builders -/

/-- A module that runs, with one host connected on connection 0 and two queues, and every dictionary object at 0. -/
def base : State :=
  { State.reset with
    dict := []
    conns := [(0, { Conn.none with live := true })]
    queues := [(0, { Queue.none with live := true, log2 := 4 }), (0xFF00, { Queue.none with live := true, log2 := 4 })]
    hosts := [(0, { HostSt.absent with state := 1 })] }

/-- A command message: opcode, context, cookie 7 and payload from W4 on (R374). -/
def mk (op ctx : Nat) (pay : List Nat) (units : Nat := 1) : Send :=
  let l := [(units - 1) * 256 + op, ctx, 7, 0] ++ pay
  { words := (l ++ List.replicate (16 * units - l.length) 0).map (BitVec.ofNat 32), icrc := true, rnr := false }

/-- The outcome is a next state with the property. -/
def nextIs (o : Host.Outcome State Fault Refusal) (p : State → Bool) : Bool :=
  match o with
  | .next t => p t
  | .fault _ => false
  | .refused _ => false

theorem nextIs_next {o : Host.Outcome State Fault Refusal} {p : State → Bool} (h : nextIs o p = true) :
    ∃ t, o = .next t ∧ p t = true := by
  cases o with
  | next t => exact ⟨t, rfl, h⟩
  | fault _ => cases h
  | refused _ => cases h

/-- The command that a reference names. -/
def ref0 : CmdRef := { queue := 0, cookie := 7, silent := false, conn := 0, host := 0 }

/-- Words as bytes. -/
def bytesOf (ws : List Nat) : List Byte := ws.flatMap (leBytes 4)

/-- An unsigned syllabus of one turn without blocks on one strip of wing A, written out from R255 to R257 with its SHA3-256. -/
def file1 : List Byte :=
  bytesOf ([0x424C5953, 0x02010100, 0x48160001, 0x00000101, 0, 0, 39 * 65536, 0, 256, 320, 320, 0, 0, 0, 320, 0] ++
    [0x9EC7CF96, 0xA4953658, 0x657E6B2E, 0x4AAD126D, 0x694B9A4F, 0x11845A08, 0xE1A0C153, 0x52D90553] ++ List.replicate 40 0 ++
    [0x10000001, 1, 1, 0, 320] ++ List.replicate 11 0)

/-- That syllabus as loaded. -/
def syl1 : Syllabus := { file := file1, shift := [0, 0, 0, 0], bases := [], level := 0, policy := 0, signer := 0 }

/-- `base` with context 0 as given. -/
def withCtx (x : Ctx) : State := { base with ctxs := [(0, x)] }

/-- A context of host 0 on strip 0 in a state. -/
def inSt (st : CtxSt) : Ctx := { Ctx.free with st := st, strips := 1, extents := [(0, 65536)], shadow := [(0, 65536)] }

/-- A launch. -/
def launch1 : Launch := { num := 1, shape := [], exports := [], imports := [], cmd := ref0, auto := false }

/-- A run of it. -/
def run1 : Run :=
  { launch := launch1, turn := 0, start := 0, zero := false, zeroDone := false, anyZero := false, held := false, staged := false,
    writing := false, bridge := [], entry := none, deadline := none, timeUp := false, phaseUp := false, posted := false }

/-! ## Ill-formed commands are refused (one for each kind of check) -/

theorem test_wf_refuses_connections_and_lengths :
    (Instr.nop 256 (mk 0 0 [])).wf = false ∧ (Instr.nop 0 ⟨[], true, false⟩).wf = false ∧
    (Instr.launch 0 ⟨List.replicate 65 0, true, false⟩).wf = false ∧
    (Instr.cmDreq ⟨256, true⟩).wf = false ∧ (Instr.nop 255 (mk 0 0 [])).wf = true := by decide

theorem test_wf_refuses_requesters_and_ports :
    (Instr.commit (.host 16) 0).wf = false ∧ (Instr.commit (.host 15) 0).wf = true ∧ (Instr.cmReq 4 0 ⟨true, []⟩).wf = false ∧
    (Instr.trienPortEnable .master 0 64).wf = false ∧ (Instr.hostPortEnableWrite .master 0 4 1).wf = false ∧
    (Instr.hostGidWrite .master 0 16 1).wf = false ∧ (Instr.ecatLinkChange 2 true).wf = false ∧
    (Instr.hostGraceExpiry 16).wf = false ∧ (Instr.lightLost 64).wf = false ∧ (Instr.laneMarkersLost 0 5).wf = false := by decide

theorem test_wf_refuses_items :
    (Instr.closeTimeout 64).wf = false ∧ (Instr.mwCloseComplete 4096).wf = false ∧ (Instr.blockLand 4096).wf = false ∧
    (Instr.timetableRelease 8).wf = false ∧ (Instr.intervalTimeout 8).wf = false ∧ (Instr.quiesceTimeout 0).wf = false ∧
    (Instr.quiesceTimeout 6).wf = false ∧ (Instr.gateDisable .master 0 6).wf = false ∧ (Instr.wingFence .master 0 4).wf = false ∧
    (Instr.twinModeWrite .master 0 2 1).wf = false ∧ (Instr.vcmpFault 4).wf = false ∧ (Instr.firmwareImageReceived 5).wf = false ∧
    (Instr.timetableEnable .master 0 8).wf = false ∧ (Instr.bridgeLoss 4).wf = false ∧ (Instr.promotionComplete 2).wf = false ∧
    (Instr.voltageToleranceChange 33 true).wf = false := by decide

theorem test_wf_refuses_unit_items :
    (Instr.passDescriptor ⟨2048, .clean⟩).wf = false ∧ (Instr.passFire ⟨0, .clean⟩ 4).wf = false ∧ (Instr.slotReady 0 16).wf = false ∧
    (Instr.stepMerge 0 256).wf = false ∧ (Instr.issueEntry ⟨0, .clean⟩ 12).wf = false ∧ (Instr.layoutCopyDescriptor ⟨0, .clean⟩ 4).wf = false ∧
    (Instr.eadComplete 0 ⟨8, []⟩).wf = false ∧ (Instr.hbmRefresh 16 0).wf = false ∧ (Instr.hbmRefresh 0 64).wf = false ∧
    (Instr.signalPacket 0 64 .clean).wf = false ∧ (Instr.watchdogExpiry 0 96).wf = false ∧ (Instr.fabricWord 0 12 .clean).wf = false ∧
    (Instr.creditReturn 0 8).wf = false ∧ (Instr.forkSend ⟨0, .clean⟩ 64).wf = false ∧ (Instr.rejoinImbalance 0 65).wf = false ∧
    (Instr.pairRetirement 0 17 0).wf = false ∧ (Instr.twinEgressTimeout (.increment 0 4096)).wf = false ∧
    (Instr.twinEgressTimeout (.block 4096)).wf = false ∧ (Instr.hostLinkChange 4 true).wf = false := by decide

/-- A codeword of zeros but for its length and CWIDX. -/
def blank (idx len : Nat) : Codeword := { fec := true, idx := idx, frame := List.replicate len 0 }

theorem test_wf_refuses_wide_headers :
    (Instr.idleFrame 0 (some 4096) (blank 0 640).frame).wf = false ∧ (Instr.dataFrame 0 true 0 (blank 0 639).frame).wf = false ∧
    (Instr.idleFrame 0 (some 4095) (blank 0 640).frame).wf = true ∧ (Instr.hello 0 (some (blank 0 641)) 0).wf = false ∧
    (Instr.hello 0 none (2 ^ 128)).wf = false ∧ (Instr.hello 0 none 0).wf = true := by decide +kernel

/-! ## The machine as a whole -/

theorem test_nop_steps : ∃ t, step { base with pending := [.nop 0 (mk 0 0 [])] } = .next t ∧
    (t.pending = [] ∧ t.fclk = 0 ∧ (queueOf t 0xFF00).seq = 1 : Bool) = true := nextIs_next (by decide +kernel)

theorem test_hyp_tick : base.pending = [] ∧ nextIs (step base) (fun t => decide (t.fclk = 1)) = true := by decide +kernel

theorem test_hyp_exec_next : ∃ t, exec (.nop 0 (mk 0 0 [])) base = .next t ∧ (t.pending = base.pending : Bool) = true :=
  nextIs_next (by decide +kernel)

theorem test_hyp_fuses_kept : mayBlow (.nop 0 (mk 0 0 [])) = false ∧
    nextIs (exec (.nop 0 (mk 0 0 [])) base) (fun t => t.fuse == base.fuse) = true := by decide +kernel

theorem test_hyp_settled : Settled { base with health := { base.health with errReg := 0 } } ∧
    nextIs (step { base with health := { base.health with errReg := 0 } }) (fun t => decide (t.health.errReg = 0)) = true := by
  unfold Settled; decide +kernel

theorem test_hyp_lowest_free : ∀ i : Nat, decide (i = 0) = true → ∃ e ∈ [((0 : Nat), (5 : Nat))], e.1 = i := by
  intro i h; exact ⟨(0, 5), by simp, by simpa using (of_decide_eq_true h).symm⟩

/-! ## Framing, queues and events -/

/-- The connection with its 64 receive buffers held by commands that have just arrived. -/
def fullBufs : State := { base with conns := [(0, { Conn.none with live := true, bufs := List.replicate 64 0 })] }

theorem test_hyp_dropped_or_turned_away :
    ({ mk 0 0 [] with icrc := false } : Send).icrc = false ∧
    (connOf fullBufs 0).live = true ∧ 64 ≤ (heldBufs fullBufs 0).length ∧ fld (msgW (mk 0 0 []).words 0) 0 8 = 0 := by decide +kernel

/-- A SEND beyond the 64 receive buffers is answered with an RNR NAK, and posts nothing (R373). -/
theorem test_rnr : nextIs (exec (.nop 0 { mk 0 0 [] with rnr := true }) fullBufs) (fun t =>
    decide (t.out = [.rnrNak 0]) && decide ((queueOf t 0xFF00).seq = 0)) = true := by decide +kernel

/-- The first check of R379: queue 5 is no queue of the host, and the completion goes to the service queue with status 0x03. -/
theorem test_queue_check_comes_first :
    (let m : Send := { mk 0 0 [] with words := [BitVec.ofNat 32 (5 * 65536 + 0x3F)] ++ (mk 0 0 []).words.drop 1 }
     let c := hcmdOf base 0 m.words
     msgLenOk m.words = true ∧ (connOf base 0).live = true ∧ 0x3F ∉ knownOps ∧ ownQueue base (cmdQueueNo c) c.host = false ∧
     nextIs (exec (.nop 0 m) base) (fun t => decide ((queueOf t 0xFF00).seq = 1) && decide ((queueOf t 0).seq = 0)) = true) := by
  decide +kernel

theorem test_hyp_unknown_opcode_and_reserved :
    (let m := mk 0x3F 0 []
     let c := hcmdOf base 0 m.words
     msgLenOk m.words = true ∧ fld (msgW m.words 0) 0 8 ∉ knownOps ∧ ownQueue base (cmdQueueNo c) c.host = true ∧ (connOf base 0).live = true) ∧
    (let m := mk 0 0 [1]
     let c := hcmdOf base 0 m.words
     msgLenOk m.words = true ∧ fld (msgW m.words 0) 0 8 = 0 ∧ ownQueue base (cmdQueueNo c) c.host = true ∧ msgReservedOk 1 [] m.words = false) := by
  decide +kernel

theorem test_hyp_foreign_context : Framed 0x14 1 [] 0 (mk 0x14 63 []) base ∧ (ctxOf base 63).st = .free ∧
    Framed 0x14 1 [] 0 (mk 0x14 0 []) (withCtx { inSt .opened with host := 1 }) ∧
    (ctxOf (withCtx { inSt .opened with host := 1 }) 0).host ≠ 0 := by
  unfold Framed; decide +kernel

theorem test_hyp_events : (queueOf base 0).live = true ∧ (queueOf base 0).held = [] ∧ (queueOf base 0).lost = 0 ∧
    qRoom base (queueOf base 0) = true ∧
    (let s := setQueue base 0 { queueOf base 0 with seq := 16 }
     (queueOf s 0).live = true ∧ qRoom s (queueOf s 0) = false ∧ (queueOf s 0).held.length < 1024) ∧
    (let s := setQueue base 0 { queueOf base 0 with seq := 16, held := List.replicate 1024 ⟨0, 0, 0, 0, 0, 0, 0⟩ }
     (queueOf s 0).live = true ∧ qRoom s (queueOf s 0) = false ∧ 1024 ≤ (queueOf s 0).held.length) := by decide +kernel

theorem test_hyp_queue_commands :
    Framed 0x00 1 [] 0 (mk 0 0 []) base ∧
    (let m := mk 0x01 0 [0x1000, 0, 9, 4]
     Framed 0x01 1 [all32, all32, all32, 0xFF1F] 0 m base ∧ targetOk base (hcmdOf base 0 m.words) = true ∧
     lowestFree base.queues 0xFF00 (fun i => (queueOf base i).live) = some 1) ∧
    (let s := setQueue base 1 (queueOf base 0)
     Framed 0x02 1 [0xFFFF] 0 (mk 0x02 0 [1]) s ∧ ownQueue s 1 0 = true ∧ queueInUse s 1 = false) ∧
    (let s := setQueue base 0 { queueOf base 0 with seq := 2 }
     Framed 0x03 1 [all32] 0 (mk 0x03 0 [2 * 65536]) s ∧ ownQueue s 0 0 = true ∧
     ((2 : W16) - (queueOf s 0).ack).toNat ≤ ((queueOf s 0).seq - (queueOf s 0).ack).toNat ∧
     ¬ ((3 : W16) - (queueOf s 0).ack).toNat ≤ ((queueOf s 0).seq - (queueOf s 0).ack).toNat) ∧
    (let m := mk 0x04 0 [0x1000, 0, 9, 15, 0]
     Framed 0x04 1 [all32, all32, all32, 0xFF1F, 0xFFFF] 0 m base ∧ ownQueue base 0 0 = true ∧
     targetOk base (hcmdOf base 0 m.words) = true) := by
  unfold Framed; decide +kernel

/-- QUEUE_CREATE gives queue 1, the lowest free one, empty and at SEQ 0 (R380). -/
theorem test_queue_create : nextIs (exec (.queueCreate 0 (mk 0x01 0 [0x1000, 1, 9, 4])) base) (fun t =>
    queueOf t 1 == { Queue.none with live := true, addr := 0x100001000, rkey := 9, log2 := 4 }) = true := by decide +kernel

/-- QUEUE_ACK of a SEQ past the queue's is ignored and counted (R382). -/
theorem test_queue_ack_past_seq : nextIs (exec (.queueAck 0 (mk 0x03 0 [1 * 65536])) base) (fun t =>
    decide ((queueOf t 0).ack = 0) && decide (dget t 0x270007 = 1)) = true := by decide +kernel

/-! ## The lease -/

/-- `base` with the lease held by a host with Term 255. -/
def leasedTo (h : Nat) : State := { base with lease := { holder := some h, term := 255, expiry := 1, cmd := some ref0 } }

theorem test_hyp_lease :
    Framed 0x08 1 [] 0 (mk 0x08 0 []) base ∧ leased base = false ∧
    Framed 0x08 1 [] 0 (mk 0x08 0 []) (leasedTo 0) ∧ leased (leasedTo 0) = true ∧
    Framed 0x08 1 [] 0 (mk 0x08 0 []) (leasedTo 1) ∧ leased (leasedTo 1) = true ∧ (1 : Nat) ≠ (connOf (leasedTo 1) 0).host ∧
    Framed 0x09 1 [0xFF] 0 (mk 0x09 0 [255]) (leasedTo 0) ∧ holdsLease (leasedTo 0) 0 255 = true ∧
    Framed 0x0A 1 [0xFF] 0 (mk 0x0A 0 [255]) (leasedTo 0) ∧
    Framed 0x09 1 [0xFF] 0 (mk 0x09 0 [254]) (leasedTo 0) ∧ holdsLease (leasedTo 0) 0 254 = false ∧
    Framed 0x0A 1 [0xFF] 0 (mk 0x0A 0 [254]) (leasedTo 0) := by
  unfold Framed; decide +kernel

/-- A free lease whose last Term was 255 is granted with Term 1 (R387). -/
theorem test_lease_term_wraps :
    nextIs (exec (.leaseAcquire 0 (mk 0x08 0 [])) { base with lease := { Lease.never with term := 255 } }) (fun t =>
      decide (t.lease.holder = some 0) && decide (t.lease.term = 1)) = true := by decide +kernel

theorem test_lease_release : nextIs (exec (.leaseRelease 0 (mk 0x0A 0 [255])) (leasedTo 0)) (fun t =>
    decide (t.lease.holder = none) && decide (t.lease.term = 255)) = true := by decide +kernel

/-! ## Contexts -/

/-- The class BE with weight 1, the versions 1.0 to 1.1 and one strip. -/
def openBe : Send := mk 0x10 0xFF [0x10000, 0x01000101, 1]
/-- The class LC on the strips of a mask, into context 0. -/
def openLc : Send := mk 0x10 0 [1, 0x01000100, 0, 20, 1]

theorem test_hyp_open :
    (let c := hcmdOf base 0 openBe.words
     Framed 0x10 1 openBits 0 openBe base ∧ OpenInRange base c 0x101 ∧ gateRead base 1 = 1 ∧ c.ctx = 0xFF ∧
     (ctxOf base 0).st = .free ∧ chooseStrips base false false 1 = some 1 ∧ maskAllowed base false false 1 = true ∧
     twinAllowed base 1 = true ∧ cutOff base 1 = false) ∧
    (let c := hcmdOf base 0 openLc.words
     Framed 0x10 1 openBits 0 openLc base ∧ OpenInRange base c 0x100 ∧ c.ctx = 0 ∧ cmdW2 c 8 = 1 ∧
     bitOf (cmdW c 4) 0 = true ∧ maskAllowed base true false 1 = true ∧ dget base (ttObj 0 7) = 0) := by
  unfold Framed OpenInRange; decide +kernel

theorem test_hyp_choose_strips : chooseStrips base false false 64 = some (2 ^ 64 - 1) ∧ chooseStrips base false false 65 = none := by
  decide +kernel

/-- OPEN of the lowest FREE context on the lowest strip (R281). -/
theorem test_open : nextIs (exec (.openCtx 0 openBe) base) (fun t =>
    decide ((ctxOf t 0).st = .opened) && decide ((ctxOf t 0).strips = 1) && decide ((ctxOf t 0).version = 0x101) &&
    decide ((ctxOf t 0).weight = 1)) = true := by decide +kernel

theorem test_hyp_place_extent : (∀ r ∈ [((0 : Nat), (65537 : Nat))], 0 < r.2) ∧ 0 < 4096 ∧
    placeExtent base [(0, 65537)] 4096 = some 131072 ∧ placeExtent base [] (2 ^ 60) = none := by decide +kernel

theorem test_hyp_extents :
    (let s := withCtx { inSt .loaded with extents := [], shadow := [] }
     let m := mk 0x11 0 [0, 0, 4096, 0]
     Framed 0x11 1 [all32, all32, all32, all32] 0 m s ∧ OwnCtx 0 m s ∧ (ctxOf s 0).st ≠ .closing ∧
     4096 ≤ hbmTop s ∧ placeExtent s (takenRanges s) 4096 = some 0 ∧ twinned s (ctxOf s 0) = false ∧
     (let m := mk 0x11 0 [8192, 0, 4096, 0]
      Framed 0x11 1 [all32, all32, all32, all32] 0 m s ∧ rangeFree s (takenRanges s) 8192 4096 = true)) ∧
    (let s := withCtx (inSt .loaded)
     let m := mk 0x12 0 [0, 0]
     Framed 0x12 1 [all32, all32] 0 m s ∧ OwnCtx 0 m s ∧ (ctxOf s 0).extents[0]? = some (0, 65536) ∧
     extentUsed s 0 0 65536 = false) ∧
    (ctxOf (withCtx { inSt .opened with granting := [⟨65536, 4096, 65536, ref0⟩] }) 0).granting = [⟨65536, 4096, 65536, ref0⟩] := by
  unfold Framed OwnCtx; decide +kernel

/-- A byte of an extent being granted reads zero afterwards, and one beside it stays (R282). -/
theorem test_extent_zeroed :
    nextIs (exec (.extentGrantComplete 0) { withCtx { inSt .opened with granting := [⟨65536, 4096, 65536, ref0⟩] } with
      hbm := [(65535, 1), (65536, 2), (69631, 3), (69632, 4)] }) (fun t =>
      decide (t.hbm = [(65535, 1), (69632, 4)]) && decide ((ctxOf t 0).extents = [(0, 65536), (65536, 4096)])) = true := by
  decide +kernel

/-- A load of 320 bytes at level 0. -/
def loading1 : Loading := { cmd := ref0, addr := 0, rkey := 0, length := 320, level := 0, echo := 0, bases := [], policy := 0, keys := [] }

/-- Its RDMA READ, which has left. -/
def loadRead : Rdma := { conn := 0, cmd := ref0, ctx := 0, status := 0, detail := 0, isLoad := true, sent := true }

theorem test_hyp_load_unload :
    (let s := withCtx (inSt .opened)
     let m := mk 0x13 0 [0, 1, 9, 320] 3
     CtxFramed 0x13 3 ([all32, all32, all32, all32, 0x3, 0xFFFF] ++ List.replicate 32 all32) 0 m s ∧ (ctxOf s 0).st = .opened ∧
     (ctxOf s 0).loading = none ∧ cutOff s (ctxOf s 0).strips = false ∧ gateRead s 2 = 1 ∧
     (∀ r ∈ s.rdmas, r.isLoad = true → r.sent = true)) ∧
    (let s := withCtx { inSt .loaded with syl := some syl1 }
     CtxFramed 0x14 1 [] 0 (mk 0x14 0 []) s ∧ (ctxOf s 0).st = .loaded ∧ (ctxOf s 0).lc = false ∧ (ctxOf s 0).run = none) := by
  unfold CtxFramed Framed OwnCtx; decide +kernel

/-- The file written out above is accepted. -/
theorem test_hyp_load_accepted :
    (let s := { withCtx { inSt .opened with loading := some loading1 } with rdmas := [loadRead] }
     (ctxOf s 0).loading = some loading1 ∧ file1.length = loading1.length ∧ loadSent s 0 = true ∧
     (∀ r ∈ s.rdmas, r.isLoad = true → r.sent = true) ∧
     (match loadFile file1 (ldInOf s (ctxOf s 0) loading1) with
      | .ok y => y == { syl1 with bases := [] }
      | .error _ => false) = true) := by decide +kernel

/-- A file of another length than LOAD names is refused: SIGNATURE with value 1 (R264, R448). -/
theorem test_hyp_load_refused :
    (let l := { loading1 with length := 321 }
     let s := { withCtx { inSt .opened with loading := some l } with rdmas := [loadRead] }
     (file1 ++ [0]).length = l.length ∧ loadSent s 0 = true ∧
     (match loadFile (file1 ++ [0]) (ldInOf s (ctxOf s 0) l) with
      | .ok _ => false
      | .error e => e == ldHead 0x02 0 1) = true) := by decide +kernel

/-- `base` with a loaded context 0 that has the syllabus. -/
def loadedOne : State := withCtx { inSt .loaded with syl := some syl1 }

theorem test_hyp_launch :
    (let m := mk 0x15 0 [] 4
     let c := hcmdOf loadedOne 0 m.words
     CtxFramed 0x15 4 (launchBits (bitOf (msgW m.words 4) 0)) 0 m loadedOne ∧ (ctxOf loadedOne 0).syl = some syl1 ∧
     wingsOut loadedOne (ctxOf loadedOne 0) = false ∧ gateRead loadedOne 3 = 1 ∧ (ctxOf loadedOne 0).launches = [] ∧
     launchStatus loadedOne 0 syl1 ((List.range 16).map fun i => cmdW c (8 + i)) (bindWords c 24) (bindWords c 32) = ldOk) ∧
    (let m := mk 0x15 0 [0, 0, 0, 0, 0, 1] 4
     let c := hcmdOf loadedOne 0 m.words
     CtxFramed 0x15 4 (launchBits (bitOf (msgW m.words 4) 0)) 0 m loadedOne ∧
     launchStatus loadedOne 0 syl1 ((List.range 16).map fun i => cmdW c (8 + i)) (bindWords c 24) (bindWords c 32) ≠ ldOk) := by
  unfold CtxFramed Framed OwnCtx; decide +kernel

theorem test_launch : nextIs (exec (.launch 0 (mk 0x15 0 [] 4)) loadedOne) (fun t =>
    decide ((ctxOf t 0).launches.length = 1) && decide ((ctxOf t 0).launchNo = 1) && (ctxOf t 0).pend) = true := by decide +kernel

/-- A Recess request of a host. -/
def recess1 : RecessReq := { since := 0, byHost := true, cmds := [ref0], saving := false }

theorem test_hyp_recess_resume_release :
    (let s := withCtx (inSt .running)
     CtxFramed 0x16 1 [] 0 (mk 0x16 0 []) s ∧ (ctxOf s 0).st = .running ∧ (ctxOf s 0).recess = none) ∧
    (let s := withCtx { inSt .running with recess := some recess1 }
     CtxFramed 0x16 1 [] 0 (mk 0x16 0 []) s ∧ (ctxOf s 0).recess = some recess1) ∧
    (let s := withCtx (inSt .loaded)
     CtxFramed 0x16 1 [] 0 (mk 0x16 0 []) s ∧ (ctxOf s 0).st = .loaded) ∧
    (let s := withCtx (inSt .recess)
     CtxFramed 0x17 1 [] 0 (mk 0x17 0 []) s ∧ (ctxOf s 0).st = .recess ∧ (ctxOf s 0).lc = false) ∧
    (let s := withCtx (inSt .detention)
     CtxFramed 0x18 1 [1] 0 (mk 0x18 0 [0]) s ∧ CtxFramed 0x18 1 [1] 0 (mk 0x18 0 [1]) s ∧ (ctxOf s 0).st = .detention ∧
     (ctxOf s 0).teardown = none ∧ (ctxOf s 0).lc = false) := by
  unfold CtxFramed Framed OwnCtx
  exact ⟨by decide +kernel, by decide +kernel, by decide +kernel, by decide +kernel, by decide +kernel⟩

theorem test_release_keeps : nextIs (exec (.release 0 (mk 0x18 0 [1])) (withCtx { inSt .detention with syl := some syl1 })) (fun t =>
    decide ((ctxOf t 0).st = .loaded) && (ctxOf t 0).syl.isSome) = true := by decide +kernel

/-- A detained context without a syllabus is OPEN after a RELEASE that keeps. -/
theorem test_release_without_syllabus : nextIs (exec (.release 0 (mk 0x18 0 [1])) (withCtx (inSt .detention))) (fun t =>
    decide ((ctxOf t 0).st = .opened)) = true := by decide +kernel

theorem test_hyp_close :
    (let s := withCtx (inSt .opened)
     CtxFramed 0x19 1 [] 0 (mk 0x19 0 []) s ∧ (ctxOf s 0).st = .opened ∧ (ctxOf s 0).loading = none ∧ (ctxOf s 0).run = none ∧
     (ctxOf s 0).launches = [] ∧ (ctxOf s 0).lc = false ∧ (ctxOf s 0).recess = none ∧ (ctxOf s 0).resume = [] ∧
     (ctxOf s 0).resets = [] ∧ (ctxOf s 0).holdSince = none ∧ (∀ o ∈ s.objs, ∀ i ∈ o.2.away, i.1 ≠ 0)) ∧
    (let s := withCtx { inSt .closing with run := some run1, closing := some ⟨some ref0, 0, false⟩ }
     (ctxOf s 0).st = .closing ∧ (ctxOf s 0).run.isSome = true) ∧
    (let s := withCtx { inSt .closing with closing := some ⟨some ref0, 0, false⟩ }
     (ctxOf s 0).closing = some ⟨some ref0, 0, false⟩ ∧ closed s 0 = true) := by
  unfold CtxFramed Framed OwnCtx; decide +kernel

theorem test_close_complete :
    nextIs (exec (.closeComplete 0) (withCtx { inSt .closing with vtime := 5, closing := some ⟨some ref0, 0, false⟩ })) (fun t =>
      decide ((ctxOf t 0).st = .free) && decide ((ctxOf t 0).vtime = 5)) = true := by decide +kernel

/-! ## Memory windows, objects and RDMA -/

/-- A loaded context with an open window of 4,096 bytes at 4,096 for host 0. -/
def windowed : State :=
  { withCtx (inSt .loaded) with mwins := [(0, { MWin.closed with st := 1, base := 4096, len := 4096, hosts := 1, rd := true,
                                                                 wr := true, gen := 5 })] }

theorem test_hyp_memory_windows :
    (let s := withCtx (inSt .loaded)
     let m := mk 0x20 0 [0, 0, 4096, 0, 65537]
     CtxFramed 0x20 1 [all32, all32, all32, all32, 0xFFFF0003] 0 m s ∧ (ctxOf s 0).st ≠ .closing ∧
     inOneExtent (ctxOf s 0).extents 0 4096 = true ∧ gateRead s 5 = 1 ∧
     lowestFree s.mwins 4096 (fun i => (mwinOf s i).st != 0) = some 0) ∧
    (let m := mk 0x21 0 [5]
     CtxFramed 0x21 1 [all32] 0 m windowed ∧ mwNamed windowed 5 = some 0 ∧ (mwinOf windowed 0).ctx = 0) ∧
    (let m := mk 0x21 0 [6]
     CtxFramed 0x21 1 [all32] 0 m windowed ∧ mwNamed windowed 6 = none) ∧
    (let s := setMwin windowed 0 { mwinOf windowed 0 with st := 2, cmd := some ref0 }
     (mwinOf s 0).st = 2 ∧ (mwinOf s 0).cmd = some ref0) := by
  unfold CtxFramed Framed OwnCtx
  exact ⟨by decide +kernel, by decide +kernel, by decide +kernel, by decide +kernel⟩

/-- MW_OPEN gives the lowest window with generation 1 as its key (R384). -/
theorem test_mw_open : nextIs (exec (.mwOpen 0 (mk 0x20 0 [0, 0, 4096, 0, 65537])) (withCtx (inSt .loaded))) (fun t =>
    mwinOf t 0 == { MWin.closed with st := 1, len := 4096, hosts := 1, rd := true, gen := 1 }) = true := by decide +kernel

/-- Twins on wings A and B: the shadow of an extent has its own bytes. -/
def twinState : State :=
  { base with
    wings := [{ Wing.active with st := .twinPrimary }, { Wing.active with st := .twinShadow }, Wing.active, Wing.active]
    ctxs := [(0, { inSt .loaded with shadow := [(131072, 65536)] })]
    mwins := windowed.mwins }

theorem test_hyp_host_rdma :
    (connOf windowed 0).live = true ∧ (windowFor windowed 0 5 4095 1 true).isSome = true ∧
    (windowFor windowed 0 5 4095 1 false).isSome = true ∧ badIn (readThrough (touch windowed 0) 8191 1 ⟨[], [], []⟩) 8191 1 = [] ∧ windowed.hbmBad = [] ∧
    windowFor windowed 0 5 4096 1 true = none ∧ windowFor windowed 0 4 0 1 false = none ∧
    twinned windowed (ctxOf windowed 0) = false ∧ twinned twinState (ctxOf twinState 0) = true ∧
    (windowFor twinState 0 5 0 4096 true).isSome = true ∧ shadowAddr (ctxOf twinState 0) 4096 = 135168 := by decide +kernel

/-- The last byte of the window is written at its address, and the next byte stays (R385). -/
theorem test_rdma_write : nextIs (exec (.rdmaWriteRequest 0 5 4095 ⟨true, [7], ⟨[], [], []⟩⟩) windowed) (fun t => decide (t.hbm = [(8191, 7)])) = true ∧
    nextIs (exec (.rdmaWriteRequest 0 5 4096 ⟨true, [7], ⟨[], [], []⟩⟩) windowed) (fun t => decide (t.hbm = []) &&
      decide (t.out.head? = some (.nak 0 0x62))) = true := by decide +kernel

/-- The controllers correct the word that a host writes in part, and count it (R206). -/
theorem test_rdma_write_corrects :
    nextIs (exec (.rdmaWriteRequest 0 5 0 ⟨true, [7], ⟨[4096], [], []⟩⟩) windowed) (fun t => decide (dget t 0x220001 = 1)) = true := by
  decide +kernel

/-- A twinned context has both copies written (R432). -/
theorem test_rdma_write_twins : nextIs (exec (.rdmaWriteRequest 0 5 0 ⟨true, [7], ⟨[], [], []⟩⟩) twinState) (fun t =>
    decide (t.hbm = [(4096, 7), (135168, 7)])) = true := by decide +kernel

/-- A loaded context that owns object 3 at 0x7FFFFFFE, which host 0 may signal, and an orphan 4. -/
def objState : State :=
  { withCtx (inSt .loaded) with
    objs := [(3, { Obj.none with valid := true, value := 0x7FFFFFFE, sig := 1, owner := some 0 }),
             (4, { Obj.none with valid := true, value := 1, sig := 1, orphan := true })] }

theorem test_hyp_objects :
    (CtxFramed 0x28 1 [all32] 0 (mk 0x28 0 [0x7FFFFFFF]) objState ∧ (ctxOf objState 0).st ≠ .closing ∧
     lowestFree objState.objs 4096 (fun o => (objOf objState o).valid) = some 0) ∧
    (CtxFramed 0x2A 1 [0xFFFF0FFF] 0 (mk 0x2A 0 [65536 + 3]) objState ∧ (objOf objState 3).valid = true ∧
     (objOf objState 3).owner = some 0 ∧ (objOf objState 3).orphan = false ∧ (objOf objState 3).importers = [] ∧
     (objOf objState 3).away = []) ∧
    (CtxFramed 0x29 1 [0xFFF] 0 (mk 0x29 0 [3]) objState) ∧
    (CtxFramed 0x29 1 [0xFFF] 0 (mk 0x29 0 [4]) objState ∧ (objOf objState 4).valid = true ∧ (objOf objState 4).owner ≠ some 0) := by
  unfold CtxFramed Framed OwnCtx
  exact ⟨by decide +kernel, by decide +kernel, by decide +kernel, by decide +kernel⟩

theorem test_hyp_signals :
    (Framed 0x2B 1 [0xFFF, all32] 0 (mk 0x2B 0 [3, 1]) objState ∧ (objOf objState 3).sig.getLsbD 0 = true ∧
     objApart objState 3 0 = false ∧ (objOf objState 3).value + 1 ≤ 0x7FFFFFFF) ∧
    (Framed 0x2B 1 [0xFFF, all32] 0 (mk 0x2B 0 [3, 2]) objState ∧ 0x7FFFFFFF < (objOf objState 3).value + 2) ∧
    (Framed 0x2B 1 [0xFFF, all32] 0 (mk 0x2B 0 [4, 1]) objState ∧ (objOf objState 4).sig.getLsbD 0 = true ∧
     (objOf objState 4).orphan = true ∧ objApart objState 4 0 = false) ∧
    (Framed 0x2C 1 [0xFFF, all32] 0 (mk 0x2C 0 [3, 0x7FFFFFFF]) objState ∧ (objOf objState 3).value < 0x7FFFFFFF) ∧
    (Framed 0x2C 1 [0xFFF, all32] 0 (mk 0x2C 0 [3, 0x7FFFFFFE]) objState ∧ 0x7FFFFFFE ≤ (objOf objState 3).value) := by
  unfold Framed
  exact ⟨by decide +kernel, by decide +kernel, by decide +kernel, by decide +kernel, by decide +kernel⟩

/-- A signal up to 0x7FFFFFFF is applied; one past it is refused with OVERRUN and leaves the object (R247). -/
theorem test_obj_signal :
    nextIs (exec (.objSignal 0 (mk 0x2B 0 [3, 1])) objState) (fun t => decide ((objOf t 3).value = 0x7FFFFFFF)) = true ∧
    nextIs (exec (.objSignal 0 (mk 0x2B 0 [3, 2])) objState) (fun t => decide ((objOf t 3).value = 0x7FFFFFFE)) = true := by
  decide +kernel

/-- A running context with a syllabus. -/
def runningOne : State := withCtx { inSt .running with syl := some syl1, run := some run1 }

theorem test_hyp_readouts :
    (CtxFramed 0x30 1 [all32, all32, all32, 0xFFFF] 0 (mk 0x30 0 [0, 0, 0, 255]) loadedOne ∧
     (ctxOf loadedOne 0).syl.isSome = true) ∧
    CtxFramed 0x33 1 [all32, all32, all32] 0 (mk 0x33 0 []) loadedOne ∧
    (CtxFramed 0x32 1 [all32, all32, all32, all32] 0 (mk 0x32 0 [0, 0, 0, 16]) (withCtx { inSt .opened with strips := 0 }) ∧
     (rollBytes (heard (withCtx { inSt .opened with strips := 0 }) 0) 0).flatten.length ≤ 16) ∧
    (let m := mk 0x34 0 [0, 0, 0, 4, 0, 0x2000]
     let c := hcmdOf loadedOne 0 m.words
     CtxFramed 0x34 1 [all32, all32, all32, all32, all32, 0x3FFFFF00] 0 m loadedOne ∧
     (ctxMask loadedOne (ctxOf loadedOne 0)).testBit (siteStrip (daSite (cmdW2 c 8))) = true ∧ cmdW c 7 = 4 ∧
     (match (dbgRead (heard loadedOne 0) (some 0) (cmdW2 c 8) (cmdW c 7)).1 with
      | .bytes d => d == [0, 0, 0, 0]
      | _ => false) = true) ∧
    (CtxFramed 0x31 1 [0x3FF] 0 (mk 0x31 0 [0x3FF]) loadedOne ∧ inRun (ctxOf loadedOne 0) = false) ∧
    (let s := { base with rdmas := [⟨0, ref0, 0, 0, 0, true, true⟩, ⟨0, ref0, 0, 0, 9, false, true⟩] }
     s.rdmas = [⟨0, ref0, 0, 0, 0, true, true⟩] ++ (⟨0, ref0, 0, 0, 9, false, true⟩ :: []) ∧ (connOf s 0).live = true ∧
     ∀ e ∈ [(⟨0, ref0, 0, 0, 0, true, true⟩ : Rdma)], ¬ (e.conn = 0 ∧ e.isLoad = false)) := by
  unfold CtxFramed Framed OwnCtx
  exact ⟨by decide +kernel, by decide +kernel, by decide +kernel, by decide +kernel, by decide +kernel, by decide +kernel⟩

/-- RC_READ writes one 64-byte record for the card (R378). -/
theorem test_rc_read : nextIs (exec (.rcRead 0 (mk 0x30 0 [64, 0, 9, 255])) loadedOne) (fun t =>
    match t.out with
    | .rdmaWrite 0 64 9 d :: _ => decide (d.length = 64)
    | _ => false) = true := by decide +kernel

theorem test_rdma_acked : nextIs (exec (.rdmaWriteAcked ⟨0, true⟩)
    { base with rdmas := [⟨0, ref0, 0, 0, 0, true, true⟩, ⟨0, ref0, 0, 0, 9, false, true⟩] }) (fun t =>
      decide (t.rdmas = [⟨0, ref0, 0, 0, 0, true, true⟩]) && decide ((queueOf t 0).seq = 1)) = true := by decide +kernel

/-! ## Connections -/

/-- Host port 0 is enabled, and host 2 is enabled with GID 9; connection 0 is live. -/
def netState : State := { base with dict := [(hostObj 2 1, 9), (hostObj 2 2, 1), (hportObj 0 1, 1)] }

/-- Private data of a request: an event target at 32 with a ring of 16. -/
def priv1 : List Byte := bytesOf [32, 0, 9, 4]

theorem test_hyp_connection_request :
    hportUp netState 0 = true ∧ 2 ≤ netState.boot.step ∧ netState.boot.online = true ∧ hostByGid netState 9 = some 2 ∧
    (connOf netState 1).live = false ∧ (∀ j, j < 1 → (connOf netState (64 * 0 + j)).live = true) ∧ privOk priv1 = true ∧
    hostByGid netState 8 = none ∧
    (let s := { netState with boot := { netState.boot with online := false } }
     2 ≤ s.boot.step ∧ s.boot.stopped = false ∧ s.boot.online = false) ∧
    netState.boot.stopped = false ∧ privOk (leBytes 56 1) = false := by decide +kernel

/-- The lowest free connection of the port is 1 (R370, R371). -/
theorem test_cm_req : nextIs (exec (.cmReq 0 9 ⟨true, priv1⟩) netState) (fun t =>
    decide ((connOf t 1).host = 2) && (connOf t 1).live && decide ((queueOf t 0xFF01).addr = 32) &&
    decide ((hostOf t 2).state = 1)) = true := by decide +kernel

/-- A port whose 64 connections are all in use. -/
def fullPort : State := { netState with conns := (List.range 64).map fun i => (i, { Conn.none with live := true }) }

theorem test_hyp_full_port : hportUp fullPort 0 = true ∧ hostByGid fullPort 9 = some 2 ∧
    ∀ i, i < 64 → (connOf fullPort (64 * 0 + i)).live = true := by decide +kernel

theorem test_hyp_lost_connection :
    (connOf base 0).live = true ∧ (connOf base 0).retries < 7 ∧ (connOf base 0).rnrs < 7 ∧ hostConns (setConn base 0 Conn.none) 0 = 0 ∧
    (let s := setConn base 0 { connOf base 0 with retries := 7 }
     (connOf s 0).live = true ∧ 7 ≤ (connOf s 0).retries) ∧
    (let s := setConn base 0 { connOf base 0 with rnrs := 7 }
     (connOf s 0).live = true ∧ 7 ≤ (connOf s 0).rnrs) ∧
    (let s := setHost base 1 { HostSt.absent with lostAt := 1 }
     hostConns s 1 = 0 ∧ (hostOf s 1).lostAt ≠ 0) := by decide +kernel

theorem test_ack_timeout :
    nextIs (exec (.ackTimeout ⟨0, false⟩) base) (fun t => decide ((connOf t 0).retries = 1)) = true ∧
    nextIs (exec (.ackTimeout ⟨0, false⟩) (setConn base 0 { connOf base 0 with retries := 7 })) (fun t =>
      !(connOf t 0).live && !(queueOf t 0xFF00).live) = true := by decide +kernel

/-- A packet whose ICRC fails is dropped and counted (R396). -/
theorem test_icrc_drop : nextIs (exec (.cmDreq ⟨0, false⟩) base) (fun t =>
    (connOf t 0).live && decide (dget t (hportObj 0 0x0C) = 1)) = true := by decide +kernel

/-- At line rate a CNP halves the rate, and a raise then adds a sixteenth of line rate (R368). -/
theorem test_send_rate :
    nextIs (exec (.cnpReceived ⟨0, true⟩) (setConn base 0 { connOf base 0 with rate := lineRate })) (fun t =>
      decide ((connOf t 0).rate * 2 = lineRate)) = true ∧
    nextIs (exec (.sendRateRaise 0) (setConn base 0 { connOf base 0 with rate := lineRate / 2 })) (fun t =>
      decide ((connOf t 0).rate * 16 = 9 * lineRate)) = true := by decide +kernel

/-! ## Trien links -/

/-- A link that is UP at 1.1. -/
def upPort : TPort := { TPort.down with link := .up, light := true, lanesOk := 15, version := 0x0101 }
/-- `base` with port 0 as given. -/
def withPort (x : TPort) : State := { base with tports := [(0, x)] }

theorem test_hyp_link_states :
    (0 < numPorts base ∧ 6 ≤ base.boot.step ∧ base.power.opticsOff.getLsbD 0 = false ∧ (tportOf base 0).link = .down ∧
     4 ≤ popBits 0b11110 5) ∧
    ((tportOf (withPort { upPort with link := .train }) 0).link = .train ∧
     4 ≤ popBits (tportOf (withPort { upPort with link := .train }) 0).lanesOk.toNat 5) ∧
    ((tportOf (withPort { upPort with link := .retrain }) 0).link = .retrain ∧
     4 ≤ popBits (tportOf (withPort { upPort with link := .retrain }) 0).lanesOk.toNat 5) ∧
    ((tportOf (withPort { upPort with link := .negotiate }) 0).link = .negotiate ∧ upPort.offered = none) ∧
    (tportOf (withPort { upPort with link := .incompatible }) 0).link = .incompatible ∧
    (tportOf (withPort { upPort with replay := List.replicate 1024 (0, wordFrame 0) }) 0).replay.length = 1024 := by decide +kernel

/-- A DOWN port starts to train when light comes on four lanes (R339). -/
theorem test_light : nextIs (exec (.lightDetected 0 0b1111) base) (fun t => decide ((tportOf t 0).link = .train)) = true ∧
    nextIs (exec (.lightDetected 0 0b0111) base) (fun t => decide ((tportOf t 0).link = .down)) = true := by decide +kernel

/-- Lane markers, a HELLO and 16 ECHO words leave on the entry to NEGOTIATE, and a retrain does the same without leaving its state
(R333, R339). -/
theorem test_negotiate : nextIs (exec (.trainLock 0) (withPort { upPort with link := .train })) (fun t =>
    decide ((tportOf t 0).link = .negotiate) && decide (t.out.length = 18)) = true ∧
    nextIs (exec (.trainLock 0) (withPort { upPort with link := .retrain })) (fun t =>
    decide ((tportOf t 0).link = .retrain) && linkTalks (tportOf t 0)) = true := by decide +kernel

/-- A DATA frame header on channel 0 for block 0 whole in one frame of `len` bytes: TYPE 1, SEQ 0, FIRST and LAST (R336). -/
def dataHdr (len : Nat) : Nat := 1 + len * 2 ^ 38 + 2 ^ 48 + 2 ^ 49

/-- A block of 64 sevens. -/
def block7 : List Byte := List.replicate 64 7

/-- The clean codeword of a frame. -/
def sealed (idx hdr : Nat) (body : List Byte) : Codeword := { fec := true, idx := idx, frame := frameBytes hdr body }

theorem sealed_sound {x : TPort} {idx hdr : Nat} {body : List Byte} (h : cwFollows x (sealed idx hdr body) = true) :
    Sound x (sealed idx hdr body) := ⟨rfl, h, crcGood_frameBytes hdr body⟩

/-- A frame whose CRC is one too high. -/
def spoiled (bs : List Byte) : List Byte := bs ++ leBytes 8 (crc64 bs + 1)

theorem crcGood_spoiled {bs : List Byte} (h : bs.length = 0x278) : crcGood (spoiled bs) = false := by
  refine decide_eq_false ?_
  rw [spoiled, leAt, List.drop_left' h, List.take_left' h, List.take_of_length_le (by simp), leNat_leBytes]
  have := crc64_lt bs
  omega

theorem test_hyp_frames :
    (let c := sealed 6 (dataHdr 64) block7
     let h := frameHdr c.frame
     cwFollows { upPort with rxIdx := some 5 } c = true ∧ fhType h ≠ 0 ∧ fhSeq h = upPort.expect.toNat ∧ fhOk h = true) ∧
    (let c := sealed 0 (dataHdr 64 + 16) block7
     cwFollows { upPort with rxIdx := some 4095 } c = true ∧ fhType (frameHdr c.frame) ≠ 0 ∧ fhSeq (frameHdr c.frame) ≠ upPort.expect.toNat) ∧
    cwFollows upPort (blank 0 640) = true ∧ (List.replicate 0x278 (0 : Byte)).length = 0x278 ∧
    cwFollows { upPort with rxIdx := some 5 } (sealed 7 0 []) = false ∧
    (cwFollows upPort (sealed 0 0 []) = true ∧ fhType (frameHdr (sealed 0 0 []).frame) = 0) ∧
    (fhNak 0 = false ∧ fhNak (2 ^ 28) = true ∧ upPort.sendq = []) ∧ (tportOf (withPort upPort) 0).sendq = [] := by
  decide +kernel

/-- ACK 2 takes SEQ 0 and 1 out of the replay buffer and leaves SEQ 2; it wraps at 4,096 (R337). -/
theorem test_ack : (tportOf (takeAck (withPort { upPort with replay := [4095, 0, 1, 2].map fun q => (q, wordFrame 0) })
    0 (2 * 65536)) 0).replay = [(2, wordFrame 0)] := by decide +kernel

/-- An HBM window of channel 0: ingress, blocks of 64 bytes, two buffers at 0, objects 3 and 4 (R342). -/
def hbmWd : Nat := leNat (bytesOf [0x80000000, 1, 0, 0, 0x20000, 3, 4, 0])
/-- A RING window of ring 0 of the MU in row 0 and column 1 of wing A: ingress, blocks of 64 bytes. -/
def ringWd : Nat := leNat (bytesOf [0x40000000, 1, 0x2000, 0, 0, 0, 0, 0])
/-- An open window with a limit of 2. -/
def win (wd : Nat) : Chan := { Chan.closed with st := .opened, wd := wd, limit := 2 }
/-- The same for the other direction. -/
def egress (wd : Nat) : Nat := wd + 2 ^ 29
/-- The stores of an MU whose ring 0 has two slots of 64 bytes at 0 (R218). -/
def ringStores : Mem := mwrite [] (stBase 0x0C) (leBytes 16 (2 ^ 22 + 2 ^ 32 + 2 ^ 64))

/-- Port 0 UP, channel 0 with a window, a running context 0 with that ring, and the objects of the HBM window. -/
def winState (w : Chan) : State :=
  { withPort upPort with
    dict := [(0x264001, 1)]
    ctxs := [(0, { inSt .running with syl := some syl1, run := some run1 })]
    mus := [(1, { MU.idle with stores := ringStores, run := true, fin := false })]
    objs := [(3, { Obj.none with valid := true, owner := some 0 }), (4, { Obj.none with valid := true, owner := some 0 })]
    chans := [(0, w)] }

theorem test_hyp_data_frames :
    (let c := sealed 0 0 []
     linkTalks upPort = true ∧ c.ok = true ∧ cwFollows upPort c = true ∧ fhType (frameHdr c.frame) = 0 ∧ fhOk (frameHdr c.frame) = true ∧
     upPort.sendq = []) ∧
    (let s := winState (win hbmWd)
     let c := sealed 0 (dataHdr 64) block7
     0 < numPorts s ∧ linkTalks (tportOf s 0) = true ∧ c.ok = true ∧ cwFollows (tportOf s 0) c = true ∧ frameHdr c.frame = dataHdr 64 ∧
     fhType (dataHdr 64) = 1 ∧ fhOk (dataHdr 64) = true ∧ fhSeq (dataHdr 64) = (tportOf s 0).expect.toNat ∧
     fhChan (dataHdr 64) = 0 ∧ (chanOf s 0).st = .opened ∧ wdEgress (chanOf s 0).wd = false ∧ (chanOf s 0).revoked = false ∧
     (chanOf s 0).partBlock = none ∧ fhFirst (dataHdr 64) = true ∧ fhLast (dataHdr 64) = true ∧ fhFidx (dataHdr 64) = 0 ∧
     fhLen (dataHdr 64) = wdBytes (chanOf s 0).wd ∧ BitVec.ofNat 32 (fhBlock (dataHdr 64)) = expectedBlock (chanOf s 0) ∧
     behind (expectedBlock (chanOf s 0)) (chanOf s 0).limit = true ∧ wdKind (chanOf s 0).wd = 2) := by
  decide +kernel

/-- A whole block in one frame waits to land (R346). -/
theorem test_data_frame : nextIs (exec (.dataFrame 0 true 0 (sealed 0 (dataHdr 64) block7).frame) (winState (win hbmWd))) (fun t =>
    decide ((chanOf t 0).landing.length = 1) && decide ((tportOf t 0).expect = 1)) = true := by
  have hc : crcGood (sealed 0 (dataHdr 64) block7).frame = true := crcGood_frameBytes _ _
  have he : ({ fec := true, idx := 0, frame := (sealed 0 (dataHdr 64) block7).frame } : Codeword) = sealed 0 (dataHdr 64) block7 := rfl
  rw [exec_dataFrame, execDataFrame, he]
  simp only [dataArrives, actIf, act, cwTyped, hc]
  rw [takeFrame_good rfl rfl hc]
  decide +kernel

/-- Port 0 has accepted a CONTROL frame of which the word is the next one. -/
def fed (s : State) (w : Nat) : State := modTport s 0 fun x => { x with ctlRest := [w] }

/-- The word comes on port 0 as the next word of its CONTROL frame. -/
def comes (s : State) (ty w : Nat) : Bool :=
  decide (0 < numPorts (fed s w)) && decide (w < 2 ^ 128) && decide (cwType w = ty) && (takeWord (fed s w) 0 none w).1

theorem comes_spec {s : State} {ty w : Nat} (h : comes s ty w = true) : ∃ u, WordComes ty 0 none w (fed s w) u := by
  unfold comes at h
  simp only [Bool.and_eq_true, decide_eq_true_eq] at h
  exact ⟨(takeWord (fed s w) 0 none w).2, h.1.1.1, h.1.1.2, h.1.2, rfl, Prod.ext h.2 rfl⟩

theorem test_hyp_words :
    linkTalks (tportOf (withPort upPort) 0) = true ∧ cwOk (cw 0x11 0 0) = true ∧ cwOk (cw 0x11 1 0) = false ∧
    (tportOf (fed (withPort upPort) 5) 0).ctlRest = 5 :: [] ∧ (5 : Nat) ≠ 6 ∧ (tportOf (withPort upPort) 0).ctlRest = [] ∧
    (let c := sealed 0 (2 + 2 * 2 ^ 38) (leBytes 16 (cw 0x11 0 0))
     let h := frameHdr c.frame
     cwFollows upPort c = true ∧ fhType h = 2 ∧ fhOk h = true ∧ fhSeq h = upPort.expect.toNat) := by
  decide +kernel

/-- The highest version below 2.0 that a partner of 1.0 to 1.3 shares with the module is 1.1 (R340). -/
theorem test_versions : commonVersion (1, 0, 1, 3) = some 0x0101 ∧ commonVersion (1, 1, 1, 1) = some 0x0101 ∧
    commonVersion (1, 0, 1, 0) = some 0x0100 ∧ commonVersion (1, 2, 2, 0) = none := by decide +kernel

/-- A negotiating port that has the partner's offer of 1.0 to 1.1 and whose echo 0 went out at 0. -/
def talkPort : TPort := { upPort with link := .negotiate, offered := some (1, 0, 1, 1), echoes := [(0, 0)] }
/-- HELLO words: an offer of 1.0 to 1.1, one of 2.0, and the confirmation of 1.1. -/
def offer11 : Nat := cw 0x10 0 (0x01000101 * 2 ^ 32)
def offer20 : Nat := cw 0x10 0 (0x02000200 * 2 ^ 32)
def confirm11 : Nat := cw 0x10 0 (0x01010101 * 2 ^ 32 + 2 ^ 16)
/-- A confirmation whose two versions differ. -/
def confirm10 : Nat := cw 0x10 0 (0x01010100 * 2 ^ 32 + 2 ^ 16)

theorem test_hyp_negotiation :
    (comes (withPort talkPort) 0x10 offer11 = true ∧ bitOf offer11 16 = false) ∧
    (comes (withPort talkPort) 0x10 offer20 = true ∧ commonVersion (fld offer20 56 8, fld offer20 48 8, fld offer20 40 8, fld offer20 32 8) = none) ∧
    (comes (withPort { talkPort with echoes := [] }) 0x10 confirm11 = true ∧ bitOf confirm11 16 = true ∧
     talkPort.offered.bind commonVersion = some (fld confirm11 48 16) ∧ fld confirm11 32 16 = fld confirm11 48 16) ∧
    (comes (withPort { talkPort with link := .retrain, locked := true, echoes := [] }) 0x10 confirm10 = true ∧
     fld confirm10 48 16 ≠ fld confirm10 32 16) ∧
    (comes (withPort upPort) 0x11 (cw 0x11 0 0) = true ∧ upPort.sendq = [] ∧ upPort.replay.length < 1024) ∧
    (comes (withPort talkPort) 0x12 (cw 0x12 0 0) = true ∧ talkPort.echoes = [] ++ (0, 0) :: [] ∧ fld (cw 0x12 0 0) 32 16 = 0) ∧
    (let s := { withPort talkPort with fclk := 18002 }
     comes s 0x12 (cw 0x12 0 0) = true ∧ 10000 < max talkPort.rtt (nsOf (18002 - 0))) := by decide +kernel

/-- Both confirmations agree and every echo is back: the link is UP at 1.1, after a retrain too (R339, R340). -/
theorem test_hello_up : nextIs (exec (.hello 0 none confirm11) (fed (withPort { talkPort with echoes := [] }) confirm11)) (fun t =>
    decide ((tportOf t 0).link = .up) && decide ((tportOf t 0).version = 0x0101)) = true ∧
    nextIs (exec (.hello 0 none confirm11)
      (fed (withPort { talkPort with link := .retrain, locked := true, echoes := [] }) confirm11)) (fun t =>
    decide ((tportOf t 0).link = .up)) = true := by decide +kernel

/-- No common version: INCOMPATIBLE with cause 1 (R339, R363). -/
theorem test_hello_incompatible : nextIs (exec (.hello 0 none offer20) (fed (withPort talkPort) offer20)) (fun t =>
    decide ((tportOf t 0).link = .incompatible) && decide ((tportOf t 0).cause = 1)) = true := by decide +kernel

theorem test_hyp_spare_lane :
    (let x := { upPort with lanesOk := 31 }
     x.link = .up ∧ x.map.toNat = 0x688 ∧ x.laneAsk = none ∧ physLane x.map.toNat 0 = 0 ∧ spareLane x.map.toNat = 4 ∧
     (x.lanesOk &&& ~~~(BitVec.ofNat 5 (2 ^ 0))).getLsbD (spareLane x.map.toNat) = true ∧
     x.sendq = [] ∧ x.replay.length < 1024) ∧
    (let x := { upPort with lanesOk := 31, map := 0x68C }
     let m := x.map.toNat
     x.link = .up ∧ m ≠ 0x688 ∧ physLane m 0 = 4 ∧ physLane m 0 < 5 ∧
     dget (withPort x) 0x260005 * 12800000 < [0, 0, 0, 0, 1].getD (physLane m 0) 0 * 1000000000 ∧
     (∀ k, k < 3 → physLane m k ≠ physLane m 3) ∧ physLane m 3 = 3 ∧
     ∀ k, k < 3 → [0, 0, 0, 1, 0].getD (physLane m k) 0 * 1000000000 ≤ dget (withPort x) 0x260005 * 12800000) ∧
    comes (withPort upPort) 0x13 (cw 0x13 0 0) = true ∧ comes (withPort upPort) 0x14 (cw 0x14 0 0) = true ∧
    (tportOf (withPort { upPort with pendMap := some (0x68C, 9) }) 0).pendMap = some (0x68C, 9) ∧
    (tportOf (withPort { upPort with txPend := some (0x68C, 9) }) 0).txPend = some (0x68C, 9) ∧
    (withPort upPort).health.remaps.length < 64 := by decide +kernel

/-- Logical lane 0 moves from physical lane 0 to the spare lane 4 (R341). -/
theorem test_lane_lost : nextIs (exec (.laneMarkersLost 0 0) (withPort { upPort with lanesOk := 31 })) (fun t =>
    match t.out with
    | .frame 0 _ bs _ :: _ =>
      let w := frameWord bs 0
      decide (cwType w = 0x13) && decide (physLane (fld w 32 12) 0 = 4) && decide (physLane (fld w 32 12) 1 = 1)
    | _ => false) = true := by decide +kernel

/-- The switch of the direction sent puts logical lane 0 on lane 4 and PRBS31 on lane 0; the other direction stays (R341). -/
theorem test_lane_switch : nextIs (exec (.laneSwitch ⟨0, true⟩) (withPort { upPort with txPend := some (0x68C, 9) })) (fun t =>
    let x := tportOf t 0
    decide (x.txMap = 0x68C#12) && decide (x.map = 0x688#12) && x.spareUsed && decide (spareLane x.txMap.toNat = 0)) = true := by
  decide +kernel

/-- The pattern and the fields of a lane marker (R333), and its spare lane. -/
theorem test_lane_marker : fld (laneMarker 0x688 2 0xABCD) 0 64 = 0x3C5A96E10FA5C369 ∧ fld (laneMarker 0x688 2 0xABCD) 64 4 = 2 ∧
    fld (laneMarker 0x688 2 0xABCD) 68 4 = 2 ∧ fld (laneMarker 0x688 2 0xABCD) 104 16 = 0xABCD ∧
    fld (laneMarker 0x688 4 0) 64 4 = 15 := by decide +kernel

/-- CRC-64 of "123456789" (R335). -/
theorem test_crc64 : crc64 (ascii "123456789") = 0x995DC9BBDF1939FA := by decide +kernel

/-! ## Stream windows -/

/-- SW_OPEN of a descriptor on channel 0. -/
def swOpenMsg (ws : List Nat) : Send := mk 0x22 0 ([0, 0, 0, 0] ++ ws)

theorem test_hyp_sw_commands :
    (let s := { winState Chan.closed with chans := [] }
     let m := swOpenMsg [0x80000000, 1, 0, 0, 0x20000, 3, 4, 0]
     let c := hcmdOf s 0 m.words
     let d := leNat ((List.range 8).flatMap fun i => leBytes 4 (cmdW c (8 + i)))
     CtxFramed 0x22 1 ([0xFFF, 0, 0, 0] ++ List.replicate 8 all32) 0 m s ∧ gateRead s 4 = 1 ∧ d = hbmWd ∧
     wdStatus s 0 0 d = 0 ∧ (chanOf s 0).heldOpen = none) ∧
    (let s := { winState Chan.closed with chans := [] }
     let m := swOpenMsg [0x80000000, 1, 0, 0, 0x20000, 3, 3, 0]
     let c := hcmdOf s 0 m.words
     CtxFramed 0x22 1 ([0xFFF, 0, 0, 0] ++ List.replicate 8 all32) 0 m s ∧
     wdStatus s 0 0 (leNat ((List.range 8).flatMap fun i => leBytes 4 (cmdW c (8 + i)))) = 6) ∧
    (let s := winState (win hbmWd)
     CtxFramed 0x23 1 [0xFFF] 0 (mk 0x23 0 [0]) s ∧ 0 < numChans s ∧ (chanOf s 0).st = .opened ∧ wdCtx (chanOf s 0).wd = 0 ∧
     wdKind (chanOf s 0).wd ≠ 1) := by
  unfold CtxFramed Framed OwnCtx
  exact ⟨by decide +kernel, by decide +kernel, by decide +kernel⟩

theorem test_sw_open : nextIs (exec (.swOpen 0 (swOpenMsg [0x80000000, 1, 0, 0, 0x20000, 3, 4, 0])) { winState Chan.closed with chans := [] })
    (fun t => decide ((chanOf t 0).st = .opening) && decide ((chanOf t 0).wd = hbmWd)) = true := by decide +kernel

/-- The words of channel 0 that the next theorem uses: OPEN of the opposite direction with blocks of 64 bytes, and others with
block or cursor numbers. -/
def openWd : Nat := cw 0x06 0 (2 ^ 32 + 2 ^ 33)
def creditWd : Nat := cw 0x01 0 (1 * 2 ^ 32 + 3 * 2 ^ 64)

theorem test_hyp_channel_words :
    (comes (winState { win hbmWd with st := .opening }) 0x06 openWd = true ∧ opensMatch hbmWd (fld openWd 32 1) (fld openWd 33 15) = true) ∧
    comes (winState Chan.closed) 0x06 openWd = true ∧
    comes (winState { win hbmWd with st := .opening }) 0x07 (cw 0x07 0 0) = true ∧
    (let w := { win hbmWd with st := .closing, fin := some 0 }
     comes (winState w) 0x07 (cw 0x07 0 0) = true ∧ wdEgress w.wd = false ∧ w.fin.isSome = true ∧ w.landing = [] ∧ w.held = [] ∧
     w.partBlock = none) ∧
    (let w := { win (egress hbmWd) with cursor := 2 }
     comes (winState w) 0x02 (cw 0x02 0 (1 * 2 ^ 32)) = true ∧ comes (winState w) 0x03 (cw 0x03 0 (1 * 2 ^ 32)) = true ∧
     comes (winState w) 0x04 (cw 0x04 0 (1 * 2 ^ 32)) = true ∧ comes (winState w) 0x01 creditWd = true ∧
     wdEgress w.wd = true ∧ w.st = .opened ∧ wdKind w.wd = 2 ∧
     ¬ (behind (if behind 1 w.cursor then 1 else w.cursor) w.acked = true ∨ (if behind 1 w.cursor then 1 else w.cursor) = w.acked) ∧
     (objOf (winState w) (wdCons w.wd)).value + 1 ≤ 0x7FFFFFFF) ∧
    (comes (winState { win hbmWd with revoked := true }) 0x03 (cw 0x03 0 0) = true) ∧
    (let s := { winState (win hbmWd) with dict := [(0x250105, 0), (0x250106, 0xFFFF), (0x250107, 0xFFFF), (0x250108, 0xFFFF)] }
     comes s 0x05 (cw 0x05 0 (1 * 2 ^ 32)) = true ∧ dget s 0x250105 = 0 ∧
     0x0101 ≤ upPort.version ∧ (∀ j, j < 4 → j ≠ 0 → dget s (0x250105 + j) ≠ 0) ∧ (srcOf s 4).phase / 65536 < 1) := by decide +kernel

/-- REVOKE from block 1 takes the cursor of an egress window from 2 back to 1 (R347). -/
theorem test_revoke : nextIs (exec (.revoke 0 none (cw 0x02 0 (1 * 2 ^ 32)))
    (fed (winState { win (egress hbmWd) with cursor := 2 }) (cw 0x02 0 (1 * 2 ^ 32)))) (fun t =>
    decide ((chanOf t 0).cursor = 1) && decide ((chanOf t 0).limit = 1)) = true := by decide +kernel

/-- CREDIT acknowledges block 0 and raises LIMIT to 3; the cons object counts the block (R347, R353). -/
theorem test_credit : nextIs (exec (.credit 0 none creditWd)
    (fed (winState { win (egress hbmWd) with cursor := 2 }) creditWd)) (fun t =>
    decide ((chanOf t 0).acked = 1) && decide ((chanOf t 0).limit = 3) && decide ((objOf t 4).value = 1)) = true := by decide +kernel

theorem test_hyp_window_timeouts :
    (chanOf (winState { win hbmWd with st := .opening }) 0).st = .opening ∧ 0 < numChans base ∧
    (let w := { Chan.closed with heldOpen := some (3, 0) }
     w.st = .closed ∧ w.heldOpen.isSome = true) ∧
    (chanOf (winState { win hbmWd with st := .closing }) 0).st = .closing ∧
    (tportOf { winState (win hbmWd) with tports := [] } 0).link ≠ .up ∧
    (wdEgress (win hbmWd).wd = false ∧ wdKind (win hbmWd).wd = 2) ∧
    (let s := { winState { win hbmWd with st := .opening, since := 4 } with tports := [(0, { TPort.down with notUpSince := some 5 })] }
     openedSince s 0 = false ∧ openedSince (setChan s 0 { chanOf s 0 with since := 5 }) 0 = true) := by decide +kernel

/-- An OPENING window is LOST with its port, but for one opened since the link went (R345, R360). -/
theorem test_hold_expiry_opening :
    (let s := { winState { win hbmWd with st := .opening, since := 4 } with tports := [(0, { TPort.down with notUpSince := some 5 })] }
     nextIs (exec (.streamHoldExpiry 0) s) (fun t => decide ((chanOf t 0).st = .lost)) &&
     nextIs (exec (.streamHoldExpiry 0) (setChan s 0 { chanOf s 0 with since := 5 })) (fun t => decide ((chanOf t 0).st = .opening))) =
      true := by decide +kernel

theorem test_hold_expiry : nextIs (exec (.streamHoldExpiry 0) { winState (win hbmWd) with tports := [] }) (fun t =>
    decide ((chanOf t 0).st = .lost)) = true := by decide +kernel

theorem test_hyp_blocks :
    (let w := { win ringWd with landing := [block7] }
     let s := winState w
     w.landing = block7 :: [] ∧ wdEgress w.wd = false ∧ ringActive s w.wd = true ∧ ringRoom s w.wd = true ∧
     twinned s (ctxOf s (wdCtx w.wd)) = false ∧ ringSite (ctxOf s 0) w.wd = 1 ∧ ringSlots s 1 w.wd = 2) ∧
    (let w := { win hbmWd with landing := [block7] }
     let s := winState w
     wdKind w.wd = 2 ∧ blockApart s 0 (hbmBlockAt s w.wd w.cursor.toNat) 64 = false ∧ (objOf s (wdProd w.wd)).value < 0x7FFFFFFF ∧
     (objOf s (wdProd w.wd)).valid = true ∧ (objOf s (wdProd w.wd)).orphan = false ∧ (objOf s (wdProd w.wd)).importers = []) ∧
    (let w := win (egress hbmWd)
     let s := { winState w with objs := [(3, { Obj.none with valid := true, owner := some 0, value := 1 })] }
     let u := egressReads s 0 ⟨[], [], []⟩
     wdEgress w.wd = true ∧ (tportOf s (0 / 64)).link = .up ∧ behind w.cursor w.limit = true ∧ (egressBlock u w).isSome = true ∧
     nextWindow u (0 / 64) = some 0 ∧ (tportOf s 0).sendq = [] ∧ (tportOf s 0).replay.length + ceilDiv 64 616 ≤ 1024 ∧
     blockApart u 0 (hbmBlockAt u w.wd w.cursor.toNat) 64 = false ∧ badIn u (hbmBlockAt u w.wd w.cursor.toNat) 64 = []) ∧
    (block7 ≠ [] ∧ block7.length ≤ 2097088) ∧
    (let w := { win (egress ringWd) with cursor := 1 }
     let s := { winState w with ctxs := [(0, { inSt .recess with syl := some syl1 })] }
     wdKind w.wd = 1 ∧ (ctxOf s 0).st = .recess ∧ w.rewind = false ∧ wdEgress w.wd = true ∧ w.acked ≠ w.cursor) := by decide +kernel

/-- A block lands in slot 0 of its ring (R350), and in its place in the buffer with the prod object signalled (R353). -/
theorem test_blocks_land :
    nextIs (exec (.blockLand 0) (winState { win ringWd with landing := [block7] })) (fun t =>
      decide (mread (muOf t 1).spad 0 64 = block7) && decide ((muOf t 1).spad.length = 64) &&
      decide ((ringOf (muOf t 1) 0).occ = 1)) = true ∧
    nextIs (exec (.hbmBlockLand 0) (winState { win hbmWd with landing := [block7], cursor := 1 })) (fun t =>
      decide (mread t.hbm 64 64 = block7) && decide (t.hbm.length = 64) && decide ((objOf t 3).value = 1)) = true := by decide +kernel

/-- The MU of the ring with its slot 0 full. -/
def fullMu : MU := { MU.idle with stores := ringStores, run := true, fin := false, rings := [(0, { Ring.empty with full := 1, occ := 1 })] }

/-- A twinned context whose egress ring holds block 0 on both wings, the shadow's with the bytes `b`. -/
def twinRing (b : Mem) : State :=
  { winState { win (egress ringWd) with egressAt := some 0 } with
    wings := twinState.wings
    ctxs := [(0, { inSt .running with syl := some syl1, run := some run1, cmp := [(3, false, 1)] })]
    mus := [(1, fullMu), (siteKey 1 0 1, { fullMu with spad := b })] }

theorem test_hyp_twin_blocks :
    (let s := twinRing []
     let w := chanOf s 0
     twinned s (ctxOf s 0) = true ∧ wdKind w.wd = 1 ∧ w.st = .opened ∧ wdEgress w.wd = true ∧ (tportOf s (0 / 64)).link = .up ∧
     behind w.cursor w.limit = true ∧ egressBlock s w = some (List.replicate 64 0) ∧
     ringBlock s (shadowSite (ctxOf s 0) w.wd) w = some (List.replicate 64 0) ∧
     nextWindow (setChan s 0 { w with shadowCrc := some (crc64 (List.replicate 64 0)) }) (0 / 64) = some 0 ∧
     w.egressAt.isSome = true ∧ w.shadowCrc = none ∧ (1 : Nat) / 2 = wingPair (siteWing (ringSite (ctxOf s 0) w.wd)) ∧
     (wingOf s 1).st = .twinShadow ∧ (wingOf s (partner 1)).st = .twinPrimary ∧
     (3, false, 1) ∈ (ctxOf s 0).cmp ∧ (List.range 4).find? (fun w => fld (ctxOf s 0).strips (16 * w) 16 != 0) = some 0 ∧
     (1 : Nat) / 2 = wingPair 0) := by
  decide +kernel

/-- Equal blocks leave; a shadow block that differs in one byte is a mismatch (R433, R434). -/
theorem test_twin_compare :
    nextIs (exec (.twinEgressCompare 0 .clean) (twinRing [])) (fun t => decide ((chanOf t 0).cursor = 1)) = true ∧
    nextIs (exec (.twinEgressCompare 0 .clean) (twinRing [(0, 1)])) (fun t =>
      decide ((chanOf t 0).cursor = 0) && decide (dget t 0x281005 = 1)) = true := by decide +kernel

/-- An increment that the shadow does not raise in time fences the shadow (R434). -/
theorem test_twin_increment_late : nextIs (exec (.twinEgressTimeout (.increment 0 3)) (twinRing [])) (fun t =>
    decide ((wingOf t 1).st = .fenced) && decide ((wingOf t 0).st = .active)) = true := by decide +kernel
/-! ## Phase sources -/

/-- `base` with Bell mode `m`, and source 0 locked at step `i` and half. -/
def bellState (m i : Nat) : State :=
  { base with
    dict := [(0x250001, m)]
    srcs := [(0, { Source.off with st := .locked, phase := i * 65536 + 32768, high := i * 65536 + 32768 })] }

theorem test_hyp_bell_edges :
    (dget (bellState 1 3) 0x250001 = 1 ∧ (bellState 1 3).bell = 0) ∧ dget (bellState 2 3) 0x250001 = 2 ∧
    (dget (bellState 3 1) 0x250001 = 3 ∧ 1 ≤ (srcOf (bellState 3 1) 0).phase / 65536 ∧ (srcOf (bellState 3 1) 0).phase < 2 ^ 64) ∧
    dget (bellState 0 1) 0x250001 = 0 := by decide +kernel

/-- A rising edge of A counts up and clears the fraction; in the step and direction mode B low counts down (R303, R304). -/
theorem test_bell_edges :
    nextIs (exec (.bellEdge true false) (bellState 1 3)) (fun t => decide ((srcOf t 0).phase = 4 * 65536)) = true ∧
    nextIs (exec (.bellEdge true false) (bellState 2 3)) (fun t => decide ((srcOf t 0).phase = 2 * 65536) &&
      decide ((srcOf t 0).high = 3 * 65536 + 32768)) = true := by decide +kernel

/-- Quadrature: A rising with B low is forward, both at once is illegal and drops the lock, and with it the fraction (R303, R306). -/
theorem test_bell_quadrature :
    nextIs (exec (.bellEdge true false) (bellState 3 1)) (fun t => decide ((srcOf t 0).phase = 2 * 65536)) = true ∧
    nextIs (exec (.bellEdge true true) (bellState 3 1)) (fun t => decide ((srcOf t 0).illegal = 1) &&
      decide ((srcOf t 0).phase = 65536) && decide ((srcOf t 0).st = .acquiring)) = true := by decide +kernel

/-- Index edges: MARK mode, and 100 counts per revolution with the counter at `i`. -/
def indexState (i : Nat) : State := { bellState 1 i with dict := [(0x250001, 1), (0x250003, 1), (0x250004, 100)] }

theorem test_hyp_index_edge :
    dget { bellState 1 1 with dict := [(0x250003, 2)] } 0x250003 = 2 ∧
    (let s := indexState 300
     dget s 0x250003 = 1 ∧ 0 < dget s 0x250004 ∧ (2 * 300 + 100) / (2 * 100) * 100 = (srcOf s 0).phase / 65536) ∧
    ((srcOf (indexState 296) 0).phase / 65536 ≠ 300 ∧ (2 * 296 + 100) / (2 * 100) * 100 = 300 ∧ 300 ≤ 296 + 4) ∧
    ((2 * 305 + 100) / (2 * 100) * 100 + 4 < 305) := by decide +kernel

/-- 4 counts away the counter is set to the multiple; 5 away it stays, and the fault is counted (R305). -/
theorem test_index_edge :
    nextIs (exec (.bellIndexEdge true) (indexState 296)) (fun t => decide ((srcOf t 0).phase = 300 * 65536)) = true ∧
    nextIs (exec (.bellIndexEdge true) (indexState 305)) (fun t => decide ((srcOf t 0).phase = 305 * 65536) &&
      decide ((srcOf t 0).zFaults = 1)) = true := by decide +kernel

/-- Four intervals of 100 each lock; one of 126 beside three of 100 does not lie within 18 % of the mean (R307). -/
theorem test_source_lock :
    (let x : Source := { Source.off with st := .acquiring, stamps := [300, 200, 100, 0] }
     x.st = .acquiring ∧ (lockEvent 25 400 x).st = .locked ∧ (lockEvent 18 426 x).st = .acquiring) := by decide +kernel

theorem test_hyp_sources :
    (srcOf (bellState 1 1) 0).st = .locked ∧
    (dget base 0x250101 ≠ 1 ∧ base.hlink.getLsbD 1 = true) ∧
    (let s := { base with dict := [(0x250102, 1000)] }
     s.hlink.getLsbD 0 = true ∧ dget s 0x250101 = 0 ∧ 0 < dget s 0x250102 ∧ dget s 0x250103 ≤ 1500) := by decide +kernel

/-- The sixteenth good offset locks the servo, and one above 1 µs unlocks it (R390). -/
theorem test_ptp :
    nextIs (exec (.ptpSync 1 5 100) (setPtp base 1 { Ptp.idle with good := 15 })) (fun t => (ptpOf t 1).locked) = true ∧
    nextIs (exec (.ptpSync 1 5 (-1001)) (setPtp base 1 { Ptp.idle with good := 16, locked := true })) (fun t =>
      !(ptpOf t 1).locked && decide ((ptpOf t 1).good = 0)) = true := by decide +kernel

/-- Between Syncs the clock runs on with its last correction, of at most 20 ppm (R390). -/
theorem test_ptp_runs_on :
    ptpNow { base with fclk := 1800000, ptp := [(0, { Ptp.idle with time := 5, corr := 20000 })] } 0 = 1000025 := by decide +kernel

/-! ## The Timetable -/

/-- An entry with an action, and COUNT 2 for SIGNAL and CHECK; its export is 0. -/
def entry (action : Nat) : Nat := action * 2 ^ 92 + (if action = 1 then 0 else 2 * 2 ^ 64)

/-- Timetable 0 of LC context 0, with an entry of an action due, and object 3 bound to its export 0. -/
def ttState (action : Nat) (x : Ctx) : State :=
  { base with
    ctxs := [(0, { x with lc := true, last := some { launch1 with exports := [some 3] } })]
    entries := [(0, entry action)]
    due := [⟨0, 0, 0, 0, false⟩]
    tts := [(0, { Timetable.disabled with state := 1, base := [(0, [])] })]
    objs := [(3, { Obj.none with valid := true, owner := some 0, value := 1 })] }

/-- A staged run. -/
def stagedRun : Run := { run1 with staged := true }

theorem test_hyp_release :
    (let x := { inSt .loaded with syl := some syl1, run := some stagedRun, launches := [launch1] }
     let s := ttState 1 x
     s.due = ⟨0, 0, 0, 0, false⟩ :: [] ∧ ([] : List Due).head? = none ∧ teAction (entryOf s 0) = 1 ∧ ttCtx s 0 = 0 ∧ (ctxOf s 0).lc = true ∧ wingsOut s (ctxOf s 0) = false ∧
     (ctxOf s 0).run = some stagedRun ∧ stagedRun.writing = false ∧ (ctxOf s 0).launches = launch1 :: []) ∧
    (let s := ttState 1 (inSt .loaded)
     (ctxOf s 0).st = .loaded ∧ (ctxOf s 0).launches = [] ∧ teAuto (entryOf s 0) = false ∧ wingsOut s (ctxOf s 0) = false) ∧
    (ctxOf (ttState 1 (inSt .running)) 0).st = .running := by decide +kernel

theorem test_release_staged : nextIs (exec (.timetableRelease 0)
    (ttState 1 { inSt .loaded with strips := 0, syl := some syl1, run := some stagedRun, launches := [launch1] })) (fun t =>
      decide ((ctxOf t 0).st = .running) && decide ((ttOf t 0).runs = 1) && decide ((ctxOf t 0).launches = [])) = true := by
  decide +kernel

theorem test_release_overrun : nextIs (exec (.timetableRelease 0) (ttState 1 (inSt .running))) (fun t =>
    decide ((ttOf t 0).overruns = 1) && decide ((ttOf t 0).runs = 0)) = true := by decide +kernel

theorem test_hyp_signal_check :
    (let s := ttState 2 (inSt .loaded)
     s.due = ⟨0, 0, 0, 0, false⟩ :: [] ∧ ttCtx s 0 < 64 ∧ exportObj (ctxOf s 0) (teExport (entryOf s 0)) = some 3 ∧
     teAction (entryOf s 0) = 2 ∧ (objOf s 3).owner = some (ttCtx s 0) ∧ (objOf s 3).valid = true ∧ (objOf s 3).orphan = false ∧
     (objOf s 3).value + teCount (entryOf s 0) ≤ 0x7FFFFFFF ∧ (objOf s 3).importers = []) ∧
    (let s := ttState 3 (inSt .loaded)
     teAction (entryOf s 0) = 3 ∧ (ttOf s 0).base.find? (fun b => b.1 = 0) = some (0, []) ∧
     exportObj (ctxOf s 0) (teExport (entryOf s 0)) = some 3 ∧ (objOf s 3).value < sget 0 ([] : Sparse Nat) 3 + teCount (entryOf s 0) ∧
     sget 0 ([] : Sparse Nat) 3 + teCount (entryOf s 0) ≤ (objOf { s with objs := [(3, { Obj.none with valid := true, value := 2 })] } 3).value) := by
  decide +kernel

/-- SIGNAL adds COUNT; CHECK of a count that is not reached is a miss under an unlocked source (R315, R322). -/
theorem test_signal_check :
    nextIs (exec (.timetableSignal 0) (ttState 2 (inSt .loaded))) (fun t => decide ((objOf t 3).value = 3)) = true ∧
    nextIs (exec (.timetableCheck 0) (ttState 3 (inSt .loaded))) (fun t => decide ((ttOf t 0).missesUnl = 1) &&
      decide (dget t 0x201201 = 1)) = true := by decide +kernel

/-- A run that a release started, with a phase deadline at 0. -/
def releasedState : State :=
  { base with
    dict := [(ttObj 0 9, 100)]
    ctxs := [(0, { inSt .running with lc := true, run := some { run1 with entry := some (0, 0, 0), deadline := some 0 } })] }

theorem test_hyp_deadlines :
    (let r := { run1 with entry := some (0, 0, 0), deadline := some 0 }
     releasedRun releasedState 0 = some (r, 0, 0) ∧ r.deadline = some 0 ∧ r.phaseUp = false ∧ r.timeUp = false ∧
     0 ≤ (srcOf releasedState (ttSource releasedState 0)).high ∧ dget releasedState (ttObj 0 9) ≠ 0 ∧
     srcLocked releasedState (ttSource releasedState 0) = false) ∧
    (let r := { run1 with entry := some (0, 0, 0), deadline := some 0, phaseUp := true }
     let s := setCtx releasedState 0 { ctxOf releasedState 0 with run := some r }
     releasedRun s 0 = some (r, 0, 0) ∧ r.phaseUp = true ∧ (ttOf s 0).deferred = none) := by decide +kernel

theorem test_deadline : nextIs (exec (.phaseDeadlinePass 0) releasedState) (fun t => decide ((ttOf t 0).missesUnl = 1) &&
    (ctxOf t 0).run.any Run.phaseUp) = true := by decide +kernel

theorem test_hyp_staging :
    (let x := { inSt .loaded with lc := true, syl := some syl1, launches := [launch1] }
     let s := withCtx x
     (ctxOf s 0).lc = true ∧ x.run = none ∧ x.holdSince = none ∧ wingsOut s x = false ∧ stripsFree s 0 = true ∧
     x.syl = some syl1 ∧ x.launches.head? = some launch1 ∧
     let u := setCtx s 0 { x with run := some (newRun s launch1 true) }
     bridgeRefused u 0 (bridgeNeed u 0 syl1 0) = false ∧
     freeTerm s = some 1) ∧
    (let r := { stagedRun with writing := true }
     let x := { inSt .loaded with lc := true, run := some r }
     x.run = some r ∧ r.writing = true ∧ x.termWait = false ∧ x.st = .loaded ∧ (ttOf (withCtx x) x.tt).deferred = none) ∧
    (let s := { releasedState with tts := [(0, { Timetable.disabled with state := 3 })] }
     (ttOf s 0).state = 3 ∧ ttCtx s 0 < 64 ∧ runLive (ctxOf s (ttCtx s 0)) = true) ∧
    (let s := { base with tts := [(0, { Timetable.disabled with state := 3 })] }
     runLive (ctxOf s (ttCtx s 0)) = false) := by decide +kernel

/-- Staging takes the lowest cooled Term and leaves the context LOADED (R193, R320). -/
theorem test_staging : nextIs (exec (.stagingStart 0)
    (withCtx { inSt .loaded with lc := true, syl := some syl1, launches := [launch1] })) (fun t =>
      decide ((ctxOf t 0).st = .loaded) && (ctxOf t 0).run.any Run.staged &&
      decide ((sget (none, 0, 64) t.terms 1).1 = some 0)) = true := by decide +kernel

/-! ## Scheduling, Recess and detention -/

/-- A loaded BE context with a launch. -/
def pendState : State := withCtx { inSt .loaded with weight := 1, syl := some syl1, launches := [launch1], pend := true }

theorem test_hyp_scheduler :
    schedOrder pendState = [0] ∧ (ctxOf pendState 0).launches = launch1 :: [] ∧ stripsFree pendState 0 = true ∧
    wingsOut pendState (ctxOf pendState 0) = false ∧ (ctxOf pendState 0).syl = some syl1 ∧ freeTerm pendState = some 1 ∧
    (ctxOf pendState 0).run = none ∧ (ctxOf pendState 0).holdSince = none ∧
    (let u := setCtx pendState 0 (startedCtx pendState (ctxOf pendState 0) launch1 [])
     bridgeRefused u 0 (bridgeNeed u 0 syl1 0) = false) := by
  decide +kernel

theorem test_scheduler : nextIs (exec .schedulerStart (setCtx pendState 0 { ctxOf pendState 0 with strips := 0 })) (fun t => decide ((ctxOf t 0).st = .running) &&
    decide ((ctxOf t 0).launches = []) && decide ((ctxOf t 0).holdSince = some 0)) = true := by decide +kernel

/-- A running BE context since 0, and another with work and virtual time 0 on the same strip, at FCLK 1,800 × 3. -/
def quantumState : State :=
  { base with
    fclk := 5400
    ctxs := [(0, { inSt .running with weight := 2, holdSince := some 0, run := some run1, syl := some syl1 }),
             (1, { inSt .loaded with weight := 1, pend := true })] }

theorem test_hyp_quantum :
    (let x := ctxOf quantumState 0
     x.lc = false ∧ x.st = .running ∧ x.holdSince = some 0 ∧ 0 < x.weight) ∧
    (let s := { base with ctxs := [(0, inSt .running), (1, { inSt .loaded with lc := true, lend := true })] }
     (ctxOf s 0).recess = none ∧ ∃ e ∈ s.ctxs, e.2.lc = true ∧ e.2.lend = true ∧ e.2.st ≠ .free ∧
       Nat.land e.2.strips (ctxOf s 0).strips ≠ 0) := by
  refine ⟨by decide +kernel, by decide +kernel, (1, { inSt .loaded with lc := true, lend := true }), ?_, ?_⟩
  · decide +kernel
  · decide +kernel

/-- Three µs of one strip at weight 2 are 3 µs of strip time and 1,500,000 of virtual time, and the context must yield (R286). -/
theorem test_quantum : nextIs (exec (.beQuantumExpiry 0) quantumState) (fun t => decide ((ctxOf t 0).stripUs = 3) &&
    decide ((ctxOf t 0).vtime = 1500000) && (ctxOf t 0).recess.isSome) = true := by decide +kernel

theorem test_hyp_recess_points :
    (let x := { inSt .running with syl := some syl1, run := some { run1 with held := true }, recess := some recess1 }
     let s := withCtx x
     x.recess = some recess1 ∧ recess1.saving = false ∧ x.termWait = false ∧ executes (ctxOf s 0) = true) ∧
    turnStill (withCtx { inSt .running with syl := some syl1, run := some run1, recess := some recess1 }) 0 = true ∧
    (let q := { recess1 with saving := true }
     let x := { inSt .running with syl := some syl1, run := some run1, recess := some q }
     x.recess = some q ∧ q.saving = true ∧ x.st ≠ .closing) ∧
    (let x := { inSt .recess with syl := some syl1, run := some { run1 with held := true }, holdSince := some 0 }
     let s := withCtx x
     x.holdSince.isSome = true ∧ bridgeRefused s 0 (bridgeNeed s 0 syl1 0) = false ∧ (heldTerm s 0).or (freeTerm s) = some 1) ∧
    (let s := withCtx { inSt .recess with resume := [ref0] }
     ref0.silent = false ∧ cmdQueue s ref0 = 0 ∧ (queueOf s 0).live = true ∧ qRoom s (queueOf s 0) = true ∧ (queueOf s 0).held = [] ∧
     recess1.cmds = [ref0] ∧ (ctxOf s 0).resume = [ref0]) := by
  decide +kernel

/-- A context saved is in RECESS and off its strips; its count rises and the command completes (R292, R293). -/
theorem test_save : nextIs (exec (.saveComplete 0)
    (withCtx { inSt .running with syl := some syl1, run := some run1, recess := some { recess1 with saving := true } })) (fun t =>
      decide ((ctxOf t 0).st = .recess) && decide ((ctxOf t 0).recessCount = 1) && (ctxOf t 0).hostHold && decide ((queueOf t 0).seq = 1)) = true := by decide +kernel

/-- A Recess point that does not come in time detains with PREEMPT_TIMEOUT (R294). -/
theorem test_preempt_timeout : nextIs (exec (.preemptTimeout 0) (withCtx { inSt .running with run := some run1, recess := some recess1 }))
    (fun t => decide ((ctxOf t 0).st = .detention) && decide ((ctxOf t 0).fault = 0x4005)) = true := by decide +kernel

theorem test_hyp_detention :
    (ctxOf runningOne 0).st = .running ∧ (ctxOf (withCtx (inSt .recess)) 0).st = .recess ∧ ownedObjs runningOne 0 = [] ∧ ownedObjs (withCtx (inSt .opened)) 0 = [] ∧
    (ctxOf (withCtx (inSt .opened)) 0).st = .opened ∧
    ((ctxOf (withCtx (inSt .loaded)) 0).st ≠ .running ∧ (ctxOf (withCtx (inSt .loaded)) 0).st ≠ .recess) ∧
    (let s := withCtx { inSt .detention with teardown := some 0, run := some run1 }
     (ctxOf s 0).st = .detention ∧ (ctxOf s 0).teardown.isSome = true) := by decide +kernel

theorem test_teardown : nextIs (exec (.teardownComplete 0) (withCtx { inSt .detention with teardown := some 0, run := some run1 })) (fun t =>
    (ctxOf t 0).heldState && decide ((ctxOf t 0).run = none) && decide ((ctxOf t 0).st = .detention)) = true := by decide +kernel

/-- A syllabus of two turns of one wing. -/
def syl2 : Syllabus :=
  { syl1 with file := bytesOf ([0, 0, 0, 0x0201, 0, 0, 0, 0, 256] ++ List.replicate 55 0 ++ [0x10000001, 1, 1] ++
                                List.replicate 13 0 ++ [0x10000001, 1, 1] ++ List.replicate 13 0) }
/-- A syllabus of one turn whose completion table raises export 0 by 1. -/
def syl3 : Syllabus :=
  { syl1 with file := bytesOf ([0, 0, 0, 0x0101, 0, 0, 0, 0, 256] ++ List.replicate 55 0 ++ [0x10000001, 1, 1, 0, 320, 0, 1] ++
                                List.replicate 9 0 ++ [0xC0001200, 0x10000, 384, 0] ++ List.replicate 12 0 ++ [1, 0x80000000]) }

/-- A running context on no strip: nothing of it is under way. -/
def turnState (y : Syllabus) (r : Run) : State := withCtx { inSt .running with strips := 0, syl := some y, run := some r }

/-- The same for an LC context with a queued launch. -/
def lcTurn (r : Run) : State :=
  withCtx { inSt .running with strips := 0, lc := true, syl := some syl1, run := some r, launches := [launch1] }

theorem test_hyp_turns :
    (let s := turnState syl1 run1
     run1.zero = false ∧ turnDone s 0 = true ∧ twinDone s 0 = true ∧ run1.staged = false ∧ run1.held = false ∧
     hdrNsect syl1.file ≤ run1.turn + 1 ∧ (ctxOf s 0).lc = false ∧ (ctxOf s 0).recess = none ∧ (ctxOf s 0).termWait = false) ∧
    (let r := { run1 with deadline := some 100000 }
     let s := lcTurn r
     turnDone s 0 = true ∧ twinDone s 0 = true ∧ (ctxOf s 0).lc = true ∧ (ttOf s 0).deferred = none ∧ r.deadline = some 100000 ∧
     r.posted = false ∧ (srcOf s (ttSource s 0)).high < 100000 ∧
     (let u := { s with tts := [(0, { Timetable.disabled with deferred := some (0, 0, 0) })] }
      (ttOf u 0).deferred = some (0, 0, 0) ∧ turnDone u 0 = true ∧ twinDone u 0 = true ∧ (ctxOf u 0).launches = launch1 :: [] ∧
      wingsOut u (ctxOf u 0) = false ∧ secSpans syl1.file 0 = false)) ∧
    (let s := turnState syl2 run1
     turnDone s 0 = true ∧ twinDone s 0 = true ∧
     run1.turn + 1 < hdrNsect syl2.file ∧ secSpans syl2.file 1 = false) ∧
    (let r := { run1 with zero := true, zeroDone := true }
     let s := turnState syl1 r
     r.zero = true ∧ r.zeroDone = true ∧ stillWires s (ctxMask s (ctxOf s 0)) = true ∧ stepsMerged (ctxOf s 0) false = true ∧
     stepsMerged (ctxOf s 0) true = true) ∧
    (let r := { run1 with zero := true, launch := { launch1 with exports := [some 3] } }
     let s := { turnState syl3 r with objs := [(3, { Obj.none with valid := true, owner := some 0 })] }
     completions syl3.file 0 = [(0, 1)] ∧ exportObj (ctxOf s 0) 0 = some 3 ∧ (objOf s 3).owner = some 0 ∧ (objOf s 3).valid = true ∧ (objOf s 3).orphan = false ∧
     (objOf s 3).value + 1 ≤ 0x7FFFFFFF ∧ (objOf s 3).importers = []) := by decide +kernel

theorem test_hyp_terms :
    (let s := { base with terms := [(1, (none, 5, 0)), (2, (none, 4, 0))] }
     sparseWf (none, 0, 64) s.terms = true ∧ (2, ((none : Option Nat), 4, 0)) ∈ s.terms ∧
     (∀ e ∈ s.terms, e.2.1 = none → e.2.2.1 ≠ 0 → e.1 ≠ 2 → 4 < e.2.2.1) ∧ ∀ d, d < 64 → (ctxOf s d).termWait = false) := by
  decide +kernel

theorem test_term_cooled : nextIs (exec .termCooled { base with terms := [(1, (none, 5, 0)), (2, (none, 4, 0))] }) (fun t =>
    decide (freeTerm t = some 2)) = true := by decide +kernel

/-! ## Numbers -/

/-- INT8 and UINT8 quantisers in RESCALE with zero points 3 and 128; HISTORY ones with a window of two steps; a FIXED one. -/
def qdI8 : Nat := 9 + 2 * 256 + 3 * 2 ^ 24
def qdU8 : Nat := 10 + 2 * 256 + 128 * 2 ^ 24
def qdHist : Nat := 9 + 256 + 1024 + 2 ^ 19 + 0x3F000000 * 2 ^ 32
def qdFixed : Nat := 9 + 3 * 256 + 2 ^ 19 + 0x3F000000 * 2 ^ 32

theorem test_hyp_rescale :
    (qdIntDest (qdFmt qdI8) = true ∧ (fmtRange (qdFmt qdI8)).1 ≤ qdZero qdI8 ∧ qdZero qdI8 ≤ (fmtRange (qdFmt qdI8)).2) ∧
    (qdIntDest (qdFmt qdU8) = true ∧ (fmtRange (qdFmt qdU8)).1 ≤ qdZero qdU8 ∧ qdZero qdU8 ≤ (fmtRange (qdFmt qdU8)).2) ∧
    (qdFmt 8 = .int32 ∧ (fmtRange (qdFmt 8)).1 ≤ qdZero 8 ∧ qdZero 8 ≤ (fmtRange (qdFmt 8)).2) := by decide +kernel

/-- R100 by hand: 5 × 1 / 2 is 2.5, rounded to 3, offset by 3 is 6; −5 × 1 / 2 is −2.5, rounded to −2, offset by 3 is 1; 1000
saturates to 127. -/
theorem test_rescale_rounds :
    ((convRescale qdI8 1 1 5).code, (convRescale qdI8 1 1 5).sat) = (6, false) ∧
    (convRescale qdI8 1 1 0xFFFFFFFB).code = 1 ∧
    ((convRescale qdI8 1 0 1000).code, (convRescale qdI8 1 0 1000).sat) = (127, true) := by decide +kernel

/-- R91 by hand: with a window of two, the largest of the last two maxima. -/
theorem test_window_maximum : windowMax qdHist [5, 7, 9] = 7 ∧ windowMax qdHist [] = 0 := by decide +kernel

theorem test_hyp_targets :
    qdFmt 4 = .e4m3 ∧ qdFmt 3 = .e5m2 ∧ qdFmt 5 = .fp4 ∧ qdFmt 2 = .fp16 ∧ qdFmt qdU8 = .uint8 ∧ qdZero qdU8 = 128 ∧
    qdFmt 9 = .int8 ∧ qdZero 9 = 0 := by decide +kernel

/-- A saturated k-group: 2^31 − 1 plus 1 × 1 stays and counts (R73). -/
theorem test_group_saturates : addGroup .int32 0x7FFFFFFF [(.fin 1 0, .fin 1 0)] = (0x7FFFFFFF, true) := by decide +kernel

theorem test_hyp_step_scale :
    qdMode qdFixed = 3 ∧ qdMode qdI8 = 2 ∧ qdMode 9 = 0 ∧ qdMode qdHist = 1 ∧ qdWindow qdHist = 2 ∧ qdLag qdHist = 0 := by decide +kernel

/-- The window of step 2 is that of steps 0 and 1, with LAG = 0; the merge of step 1 forms its scale from the larger maximum (R91,
R95). -/
theorem test_scale_formed : (pushMax qdHist 1 one32 none { Tensor.fresh with hist := [one32 + 1] }).next =
    [(2, windowScale qdHist (one32 + 1) none)] := by decide +kernel

/-! ## The Compute Unit -/

/-- Entry `i` of the unit store `code`. -/
def ent (code size i v : Nat) : Mem := cellsOf 0#8 (stBase code + size * i) (leBytes size v)

/-- The running context of the units of strip 0. -/
def unitsOf (cus : Sparse CU) (mus : Sparse MU) : State :=
  { base with ctxs := [(0, { inSt .running with syl := some syl1, run := some run1 })], cus := cus, mus := mus }

def grant0 : Grant := { tile := 0, tagBase := 0, fin := false, term := 0 }

/-- A CU at its first descriptor. -/
def cuAt (stores : Mem) : CU := { CU.idle with stores := stores, run := true, fin := false, pos := 0, cur := some grant0 }
def oneCu (u : CU) : State := unitsOf [(0, u)] []

def passIn : Pass := { desc := 0, handle := 2, tag := 5, alloc := false, last := true, loaded := true, rep := 0 }

/-- An INT8 pass of one vector over one weight row, tag 5, that allocates handle 2 and swaps, repeated twice. -/
def pass8 : Nat := 9 * 2 ^ 28 + 9 * 2 ^ 24 + 0x100 + 0x80 + 2 + 5 * 2 ^ 48 + 0x3FF * 2 ^ 32
def pass8rep : Nat := pass8 + 2 ^ 64 + 2 ^ 80 + 2 ^ 88
/-- One that accumulates into handle 2 as its last pass, without a drain. -/
def pass8last : Nat := 9 * 2 ^ 28 + 9 * 2 ^ 24 + 2 + 5 * 2 ^ 48 + 0x3FF * 2 ^ 32 + 2 ^ 47 + 7 * 2 ^ 44
def accumH : Handle := { Handle.none with st := .accum, slot := some 1, kind := some .int32 }

theorem test_hyp_pass_enters :
    (let s := oneCu (cuAt (ent 1 16 0 pass8rep)); let u := cuOf s 0
     isCu 0 = true ∧ mayDecode s 0 = true ∧ seqDesc u u.pos = pass8rep ∧ pdType pass8rep = 0 ∧ pdReason u pass8rep = none ∧
     (pdPair pass8rep).map (·.2) = some .int32 ∧ u.window.length < 4 ∧ (pdInit pass8rep != 0) = true ∧ u.committed < 16 ∧
     (handleOf u 2).st = .unbound ∧ u.rep < pdRm1 pass8rep) ∧
    (let s := oneCu { cuAt (ent 1 16 0 pass8last) with handles := [(2, accumH)], committed := 1 }; let u := cuOf s 0
     mayDecode s 0 = true ∧ pdType pass8last = 0 ∧ pdReason u pass8last = none ∧ (pdPair pass8last).map (·.2) = some .int32 ∧
     (pdInit pass8last != 0) = false ∧ (handleOf u 2).st = .accum ∧ (handleOf u 2).kind = some .int32 ∧
     pdRm1 pass8last ≤ u.rep) ∧
    (let s := oneCu (cuAt (ent 1 16 0 (5 * 2 ^ 124))); let u := cuOf s 0
     mayDecode s 0 = true ∧ 3 < pdType (seqDesc u u.pos) ∧ pdReason u (seqDesc u u.pos) = some 5) ∧
    (let s := oneCu { cuAt (ent 1 16 0 pass8) with committed := 16 }; let u := cuOf s 0
     mayDecode s 0 = true ∧ pdType pass8 = 0 ∧ pdReason u pass8 = none ∧ (pdPair pass8).map (·.2) = some .int32 ∧
     u.window.length < 4 ∧ (pdInit pass8 != 0) = true ∧ 16 ≤ u.committed) ∧
    (let s := oneCu { cuAt (ent 1 16 0 pass8) with window := List.replicate 4 passIn, committed := 1, handles := [(2, accumH)] }
     let u := cuOf s 0
     mayDecode s 0 = true ∧ pdReason u pass8 = none ∧ 4 ≤ u.window.length ∧ u.committed < 16 ∧ (handleOf u 2).st ≠ .unbound) ∧
    (let s := oneCu (cuAt (ent 1 16 0 pass8last)); let u := cuOf s 0
     mayDecode s 0 = true ∧ pdReason u pass8last = none ∧ (handleOf u 2).st ≠ .accum) ∧
    (let s := oneCu { cuAt (ent 1 16 0 pass8last) with handles := [(2, { accumH with kind := some .fp32 })] }; let u := cuOf s 0
     mayDecode s 0 = true ∧ pdReason u pass8last = none ∧ (handleOf u 2).st = .accum ∧ (handleOf u 2).kind = some .fp32) ∧
    monitored (oneCu (cuAt [])) 0 = false := by decide +kernel

theorem test_pass_descriptor : nextIs (exec (.passDescriptor ⟨0, .clean⟩) (oneCu (cuAt (ent 1 16 0 pass8rep)))) (fun t =>
    decide ((cuOf t 0).window.map (fun p => (p.handle, p.tag)) = [(2, 5)]) && decide ((cuOf t 0).rep = 1)) = true := by
  decide +kernel

def tableD : Nat := 2 ^ 124 + 3 * 2 ^ 96
def freeD : Nat := 2 * 2 ^ 124 + 2 + 0x3FF * 2 ^ 32
def drainD : Nat := 3 * 2 ^ 124 + 2 + 1 * 2 ^ 44 + 0x3FF * 2 ^ 32
/-- A program header: OUT0 enabled, without a quantiser and without instructions. -/
def head0 : Nat := 2 ^ 74 + 0x3FF * 2 ^ 64

def req2 : DrainReq := { handle := 2, slot := 1, prog := 1, tag := 5, tok0 := none, tok1 := none, ready := true, byDesc := false }
/-- Four tokens of other tags in the store of channel 0. -/
def tokens4 : List (Nat × Nat × Nat) := [(0, 6, 0), (0, 7, 0), (0, 8, 0), (0, 9, 0)]
/-- A word of tag 9, for which no pass comes. -/
def word9 : Flight := ⟨0, 8, 0, { data := List.replicate 128 0, term := 0, tag := 9, last := true, req := none }⟩
/-- Under the Hall Monitor, a table descriptor waits for an ordered drain, and the activation lane holds that word. -/
def tableState : State :=
  { oneCu { cuAt (ent 1 16 0 tableD) with handles := [(2, { accumH with ordered := true })], act := [word9] } with
    ctxs := [(0, { inSt .running with syl := some { syl1 with level := 2 }, level := 2, run := some run1 })] }

theorem test_hyp_handles :
    (let s := oneCu (cuAt (ent 1 16 0 tableD)); let u := cuOf s 0
     isCu 0 = true ∧ mayDecode s 0 = true ∧ pdReason u (seqDesc u u.pos) = none ∧ pdType (seqDesc u u.pos) = 1 ∧
     drainsOrdered u = false ∧ u.wgt = [] ∧ u.itemBuf = []) ∧
    (let s := oneCu { cuAt (ent 1 16 0 freeD) with handles := [(2, accumH)], committed := 1 }; let u := cuOf s 0
     mayDecode s 0 = true ∧ pdReason u (seqDesc u u.pos) = none ∧ pdType (seqDesc u u.pos) = 2 ∧ (handleOf u 2).st ≠ .unbound ∧
     (handleOf u 2).ordered = false ∧ handleInUse u 2 = false) ∧
    (let s := oneCu { cuAt (ent 1 16 0 drainD ++ ent 3 16 1 head0) with handles := [(2, { accumH with st := .ready })], committed := 1 }
     let u := cuOf s 0
     mayDecode s 0 = true ∧ pdReason u (seqDesc u u.pos) = none ∧ pdType (seqDesc u u.pos) = 3 ∧ (handleOf u 2).st = .ready ∧
     (handleOf u 2).ordered = false ∧ drainCrowds u 2 (pdDrain drainD) = false ∧
     (let v := { u with ready := [{ req2 with ready := false }], steered := 1, tokens := tokens4 }
      drainCrowds v 2 (pdDrain drainD) = true)) ∧
    (let s := tableState
     let u := cuOf s 0
     mayDecode s 0 = true ∧ pdReason u (seqDesc u u.pos) = none ∧ pdType (seqDesc u u.pos) = 1 ∧ drainsOrdered u = true ∧
     monitored s 0 = true ∧ laneBlocked u = some 9 ∧ monitored (oneCu (cuAt [])) 0 = false) := by decide +kernel

/-- Under the Hall Monitor a word that no pass takes is a HAZARD at once when a column table holds the sequencer (R124). -/
theorem test_table_blocks_lane : nextIs (exec (.columnTableLoad ⟨0, .clean⟩) tableState) (fun t =>
    decide ((ctxOf t 0).fault = 0x4003)) = true := by decide +kernel

theorem test_free_handle : nextIs (exec (.freeHandle ⟨0, .clean⟩)
    (oneCu { cuAt (ent 1 16 0 freeD) with handles := [(2, accumH)], committed := 1 })) (fun t =>
      decide ((handleOf (cuOf t 0) 2).st = .unbound) && decide ((cuOf t 0).committed = 0)) = true := by decide +kernel

/-- A gate before descriptor 0: counter 0 at 1. -/
def gatedCu (v : Nat) : State := oneCu { cuAt (ent 5 16 0 (2 ^ 32)) with ctrs := [(0, { Ctr.zero with value := v })] }

theorem test_hyp_gates :
    (let s := gatedCu 1; let u := cuOf s 0
     isCu 0 = true ∧ unitLive s 0 = true ∧ u.run = true ∧ u.fin = false ∧ u.gateOpen = false ∧ u.pos ≠ 0x3FF ∧
     gateFor u.stores u.pos = some (2 ^ 32) ∧ testWait s 0 (2 ^ 32) u.rep = .holds) ∧
    (let s := gatedCu 0; let u := cuOf s 0
     gateFor u.stores u.pos = some (2 ^ 32) ∧ testWait s 0 (2 ^ 32) u.rep = .unmet) ∧
    (let s := oneCu { cuAt [] with pos := 0x3FF, grants := [grant0] }; let u := cuOf s 0
     unitLive s 0 = true ∧ u.run = true ∧ u.fin = false ∧ inGroup u.stores = true ∧ u.cur.any (·.fin) = false ∧
     u.pos = 0x3FF ∧ u.grants = grant0 :: [] ∧ recessing s 0 = false ∧ grant0.fin = false ∧ startEntry u.stores ≠ 0x3FF) := by
  decide +kernel

theorem test_gate : nextIs (exec (.cuGateRelease ⟨0, .clean⟩) (gatedCu 1)) (fun t => (cuOf t 0).gateOpen) = true ∧
    nextIs (exec (.cuGateRelease ⟨0, .clean⟩) (gatedCu 0)) (fun t => !(cuOf t 0).gateOpen && decide ((cuOf t 0).waitSince = some 0)) = true := by
  decide +kernel

def bytes128 (b : Byte) : List Byte := List.replicate 128 b
def word5 (b : Byte) : FWord := { data := bytes128 b, term := 0, tag := 5, last := true, req := none }
def tile8 : Tile := { act := .int8, wgt := .int8, wexp := false, wxc := 0, block := [], rows := List.replicate 64 3 }
/-- A pass of INT8 vectors at the head of the window, its tile in the cells and a word of its tag in the lane. -/
def fireState : State := oneCu { cuAt (ent 1 16 0 pass8last) with
  pos := 0x3FF, window := [passIn], active := some tile8, handles := [(2, accumH)], committed := 1,
  slots := [(1, { Slot.free with bound := true, kind := some .int32 })], act := [⟨0, 8, 0, word5 2⟩] }

theorem test_hyp_fire :
    (let s := fireState; let u := cuOf s 0
     isCu 0 = true ∧ unitLive s 0 = true ∧ u.window[0]? = some passIn ∧ u.firing = none ∧ u.act = ⟨0, 8, 0, word5 2⟩ :: [] ∧
     (word5 2).tag = passIn.tag ∧ pdSwap (seqDesc u passIn.desc) = false ∧ u.active = some tile8 ∧
     (handleOf u passIn.handle).slot.isSome = true ∧ (pdPair (seqDesc u passIn.desc)).isSome = true ∧ passIn.loaded = true ∧
     orderOk u 0 passIn = true ∧ fifthWait u passIn = false) ∧
    (let s := fireState; let u := { cuOf s 0 with active := none, shadow := some tile8, stores := ent 1 16 0 pass8 }
     pdSwap (seqDesc u passIn.desc) = true ∧ u.shadow = some tile8 ∧ orderOk u 0 passIn = true) ∧
    (let s := oneCu { cuAt [] with items := [.tile .int8 .int8 false], itemBuf := List.replicate 4096 3 }; let u := cuOf s 0
     isCu 0 = true ∧ unitLive s 0 = true ∧ u.items = .tile .int8 .int8 false :: [] ∧ u.shadow = none ∧
     tileBytes .int8 .int8 false u.itemBuf ≤ u.itemBuf.length) ∧
    (let w := fmtCode .int4 + 0x110
     let s := oneCu { cuAt [] with items := [.tile .bf16 .int4 true], itemBuf := leBytes 4 w ++ List.replicate 2080 0 }
     let u := cuOf s 0
     u.items = .tile .bf16 .int4 true :: [] ∧ u.shadow = none ∧ tileBytes .bf16 .int4 true u.itemBuf ≤ u.itemBuf.length ∧
     leAt u.itemBuf 0 4 = w ∧ fmtOf (wxcSource w) = some .int4 ∧ wxcOk .bf16 .int4 w = true ∧
     wxcTableOk w ((u.itemBuf.drop 4).take (wxcBlockBytes w)) = true) := by decide +kernel

/-- One vector of 2s over a row of 3s gives 6 in every element of row 0 (R75). -/
theorem test_vector : sget 0 (streamRow tile8 Slot.free pass8last .int32 (bytes128 2) 0).elems 0 = 6 ∧
    sget 0 (streamRow tile8 Slot.free pass8last .int32 (bytes128 2) 0).elems 64 = 0 := by decide +kernel

theorem test_hyp_vector : (pdPair pass8last).map (·.2) = some .int32 := by decide +kernel

/-- A token for channel 0 with tag 5 and SEL 2. -/
def token5 : Flight := ⟨0, 9, 0, { word5 0 with data := padTo 128 (leBytes 4 0x00050002) }⟩
/-- The output lane of site 0 has one circuit, slot set 1. -/
def outSw : Switch := { Switch.idle with stores := cellsOf 0#8 0 (leBytes 8 (2 ^ 63 + 4 * 2 ^ 57 + 2 ^ 46 + 2 ^ 30)) }
def drainCu : CU := { cuAt (ent 3 16 1 head0) with
  pos := 0x3FF, handles := [(2, { accumH with st := .draining, ordered := true, prog := 1 })],
  slots := [(1, { Slot.free with bound := true, kind := some .int32 })],
  drain := some { req := req2, sat := false, elem := [], elems := none } }

theorem test_hyp_slots :
    (let s := oneCu { cuAt [] with streamed := [passIn], handles := [(2, { accumH with st := .ready })] }; let u := cuOf s 0
     isCu 0 = true ∧ unitLive s 0 = true ∧ u.streamed = [] ++ passIn :: [] ∧ (handleOf u passIn.handle).slot = some 1 ∧
     (handleOf u passIn.handle).ordered = false) ∧
    (let s := oneCu { cuAt [] with tokIn := [token5] }; let u := cuOf s 0
     u.tokIn = token5 :: [] ∧ tokenOf token5 = (0, 5, 2) ∧ (∀ r ∈ waitingSlots u 0, r.tag ≠ 5) ∧ tokenFits u (0, 5, 2) = true ∧
     (∀ e ∈ u.tokens, ¬ (e.1 = 0 ∧ e.2.1 = 5)) ∧ tokenFits { u with tokens := tokens4 } (0, 5, 2) = false) ∧
    (let s := oneCu { cuAt (ent 3 16 1 head0) with tokIn := [token5], ready := [req2], steered := 1 }; let u := cuOf s 0
     waitingSlots u 0 = [] ++ req2 :: [] ∧ req2.tag = 5) ∧
    (let s := oneCu { cuAt [] with ready := [req2] }; let u := cuOf s 0
     unitLive s 0 = true ∧ u.drain = none ∧ u.ready = [] ++ req2 :: [] ∧ req2.ready = true ∧ tokensMet u req2 = true) ∧
    (let s := oneCu drainCu; let u := cuOf s 0
     unitLive s 0 = true ∧ u.drain.map (·.elems) = some none ∧ phInEn (progHead u req2.prog) = false) ∧
    (let s := { oneCu { drainCu with drain := some { req := req2, sat := false, elem := [], elems := some [(0, 7)] } } with
       sws := [(0, outSw)] }
     let u := cuOf s 0; let h := progHead u 1
     unitLive s 0 = true ∧ siteCtx s 0 = some 0 ∧ phEn h 0 = true ∧ phEn h 1 = false ∧ phQd h 0 = 0x3FF ∧
     outCircuit s 0 req2 0 = some 1) := by decide +kernel

theorem test_slot_ready : nextIs (exec (.slotReady 0 1)
    (oneCu { cuAt [] with streamed := [passIn], handles := [(2, { accumH with st := .ready })] })) (fun t =>
      decide ((cuOf t 0).ready.map (fun r => (r.handle, r.slot, r.tag)) = [(2, 1, 5)])) = true := by decide +kernel

/-- A syllabus whose turn has one quantiser, of card 4, calibrated in HISTORY without a seed. -/
def syl4 : Syllabus :=
  { syl1 with file := file1.take 256 ++ bytesOf ([0x10000001, 1, 1, 0, 320, 48, 1] ++ List.replicate 9 0 ++
      [0x1100, 0x10000, 336, 0]) ++ leBytes 32 (9 + 256 + 2 ^ 20 + 4 * 2 ^ 104) }

/-- A step of tensor 4 that is under way, with a maximum of 6, in a run without units. -/
def mergeCtx (n : Tensor) : Ctx :=
  { inSt .running with strips := 0, syl := some syl4, run := some run1, tensors := [(4, n)] }
/-- A step of it that has ended and waits for its merge. -/
def lateCtx : Ctx :=
  { mergeCtx Tensor.fresh with tensors := [(4, Tensor.fresh), (516, { Tensor.fresh with active := true, count := 3, clamp := 1, maxAbs := 5 })] }
def stepN : Tensor := { Tensor.fresh with active := true, cur := some (one32, one32), maxAbs := 6, count := 2, sqe := 3 }

theorem test_hyp_merge :
    (let s := withCtx (mergeCtx stepN); let x := ctxOf s 0
     x.syl = some syl4 ∧ x.run = some run1 ∧ executes x = true ∧ lastOfSection syl4.file 0 = true ∧
     (fileQd syl4.file 4).isSome = true ∧ (sectionQd syl4.file 0 4).isSome = true ∧ lateOpen x 4 = false ∧
     (tensorOf s 0 4).active = true ∧ (tensorOf s 0 4).cur = some (one32, one32) ∧ unitsFin s 0 = true ∧ x.resets = []) ∧
    (let s := withCtx lateCtx; let x := ctxOf s 0
     x.syl = some syl4 ∧ (fileQd syl4.file 4).isSome = true ∧ lateOpen x 4 = true ∧ x.resets = [] ∧
     (let y := { x with tensors := [(772, { Tensor.fresh with active := true })] }
      lateOpen y 4 = true ∧ (sget Tensor.fresh y.tensors (lateKey 4)).active = false)) := by
  decide +kernel

theorem test_merge : nextIs (exec (.stepMerge 0 4) (withCtx (mergeCtx stepN))) (fun t =>
    decide ((cardOf (ctxOf t 0) 4).count = 2) && decide ((cardOf (ctxOf t 0) 4).maxAbs = 6) &&
    decide ((tensorOf t 0 4).hist = [6])) = true ∧
    nextIs (exec (.stepMerge 0 4) (withCtx lateCtx)) (fun t => decide ((cardOf (ctxOf t 0) 4).count = 3) &&
      decide ((cardOf (ctxOf t 0) 4).clamp = 1) && !(lateOpen (ctxOf t 0) 4)) = true := by decide +kernel

def heldN : Tensor := { Tensor.fresh with active := true, held := true, maxAbs := one32 }
def heldState : State := withCtx (mergeCtx heldN)

theorem test_hyp_held : let s := heldState; let x := ctxOf s 0
    x.syl = some syl4 ∧ x.run = some run1 ∧ executes x = true ∧ lastOfSection syl4.file 0 = true ∧ (cardQd x 4).map (·.1) = some 0 ∧
    holdsStep s 0 4 = true ∧ heldWhole s 0 0 false = true ∧ heldTurn s 0 0 false = true ∧
    0 < (tensorOf s 0 4).maxAbs ∧ s.hbmBad = [] ∧ s.health.split = 0 := by decide +kernel

theorem test_held_release : nextIs (exec (.heldStepRelease 0 ⟨4, ⟨[], [], []⟩⟩) heldState) (fun t => !(tensorOf t 0 4).held) = true := by
  decide +kernel


/-- A token meets the slot that waits with its tag, and its credit goes back (R126, R127). -/
theorem test_token : nextIs (exec (.steeringToken 0 (leAt token5.word.data 0 4))
    (oneCu { cuAt (ent 3 16 1 head0) with tokIn := [token5], ready := [req2], steered := 1 })) (fun t =>
      decide ((cuOf t 0).ready.map (·.tok0) = [some 2]) && decide ((cuOf t 0).tokIn = []) && decide (t.credits.length = 1)) = true := by
  decide +kernel
/-! ## The Memory Unit -/

def oneMu (u : MU) : State := unitsOf [] [(1, u)]
/-- An MU at work on a tile. -/
def muAt (stores : Mem) : MU := { MU.idle with stores := stores, run := true, fin := false, cur := some grant0 }
def iss0 : Issued := { id := 0, idx := 0, off := [0, 0, 0, 0, 0], tag := 5 }
/-- Descriptor 0 has been issued to generator 0; the scratchpad begins with 7, 8, 9, 10. -/
def issuedMu (d : Nat) : State :=
  oneMu { muAt (ent 8 128 0 d) with pend := [(0, some iss0)], spad := [(0, 7), (1, 8), (2, 9), (3, 10)] }

/-- The words of a descriptor. -/
def dwords (l : List Nat) : Nat := l.foldr (fun w a => w + 2 ^ 32 * a) 0
def ring3F : Nat := 0x3F * 2 ^ 26
/-- A load of four INT8 elements from address 0. -/
def tdLoad : Nat := dwords [2 ^ 28 + 9 * 2 ^ 24, ring3F, 0xFF * 2 ^ 16, 2 ^ 12, 4 * 2 ^ 16, 4 * 2 ^ 16]
def tdStore : Nat := tdLoad + 2 ^ 23
/-- A gather of `n` rows of four bytes by the indices at 64. -/
def gather (n : Nat) : Nat :=
  dwords [2 * 2 ^ 28 + 9 * 2 ^ 24, ring3F, ring3F + 64, n * 2 ^ 16, 2 * 2 ^ 8, 4, 4, 0xFF * 2 ^ 16 + 1, 1]
/-- A copy of four INT8 elements from 0 to 64. -/
def copy4 : Nat := dwords ([3 * 2 ^ 28 + 9 * 2 ^ 24, ring3F, 0xFF * 2 ^ 16, 0, 4 * 2 ^ 16, 4 * 2 ^ 16] ++
  List.replicate 18 0 ++ [ring3F + 64, 1, 0, 0, 0, 0, 1])

theorem test_hyp_descriptors :
    (let s := issuedMu 0
     isMu 1 = true ∧ unitLive s 1 = true ∧ pendOf (muOf s 1) 0 = some iss0 ∧ (genOf (muOf s 1) 0).iss = none ∧ iss0.id < 256 ∧
     issReason s 1 0 iss0 = some 2) ∧
    (let s := issuedMu (gather 0)
     unitLive s 1 = true ∧ issReason s 1 0 iss0 = none ∧ issZero s 1 iss0 = true ∧ mayEnter (muOf s 1) (accessesOf s 1 iss0) 5 = .go) ∧
    (let s := issuedMu tdLoad; let u := muOf s 1; let d := issDesc u iss0
     unitLive s 1 = true ∧ issReason s 1 0 iss0 = none ∧ issZero s 1 iss0 = false ∧ u.sb = [] ∧
     (∀ a ∈ accessesOf s 1 iss0, a.ring = 0x3F) ∧ mayEnter u (accessesOf s 1 iss0) 5 = .go ∧ dType d = 1 ∧ dDir d = false ∧
     conflictAt (dBase d) (walkOf (fmtBits (dFmt d)) (walkOrder d) (issDims s 1 iss0)) = none) ∧
    (let s := issuedMu (gather 2); let u := muOf s 1; let d := issDesc u iss0
     unitLive s 1 = true ∧ issReason s 1 0 iss0 = none ∧ issZero s 1 iss0 = false ∧ u.sb = [] ∧
     (∀ a ∈ accessesOf s 1 iss0, a.ring = 0x3F) ∧ mayEnter u (accessesOf s 1 iss0) 5 = .go ∧ dType d = 2 ∧ dDir d = false) ∧
    (let s := issuedMu copy4; let u := muOf s 1; let d := issDesc u iss0
     let walk := lcdWalk d (fmtBits (dFmt d)) (issDims s 1 iss0)
     unitLive s 1 = true ∧ issReason s 1 0 iss0 = none ∧ issZero s 1 iss0 = false ∧ u.sb = [] ∧
     (∀ a ∈ accessesOf s 1 iss0, a.ring = 0x3F) ∧ mayEnter u (accessesOf s 1 iss0) 5 = .go ∧ dType d = 3 ∧
     (∀ f ∈ hmFoots s 1 iss0 [0, 0], u.foot.any (overlaps f) = false ∧ u.foot.length < 128) ∧
     conflictAt (dBase d) (walk.map (·.1)) = none ∧ conflictAt (lDbase d) (walk.map (·.2)) = none) := by decide +kernel

/-- A load sends its elements in one word; a copy puts them at 64 (R153, R172). -/
theorem test_load_and_copy :
    nextIs (exec (.tileDescriptor 1 0 .clean) (issuedMu tdLoad)) (fun t =>
      decide ((muOf t 1).outq.map (fun e => (e.word.data.take 5, e.word.tag, e.word.last)) = [([7, 8, 9, 10, 0], 5, true)])) = true ∧
    nextIs (exec (.layoutCopyDescriptor ⟨1, .clean⟩ 0) (issuedMu copy4)) (fun t =>
      decide (mread (muOf t 1).spad 64 5 = [7, 8, 9, 10, 0]) && decide (mread (muOf t 1).spad 0 4 = [7, 8, 9, 10])) = true := by
  decide +kernel

/-- Rows 0 and 0 (the indices read zero) of four bytes (R168). -/
theorem test_gather : nextIs (exec (.gatherScatterDescriptor ⟨1, .clean⟩ 0) (issuedMu (gather 2))) (fun t =>
    decide ((muOf t 1).outq.map (fun e => e.word.data.take 9) = [[7, 8, 9, 10, 7, 8, 9, 10, 0]])) = true := by decide +kernel

/-- An issue entry: descriptor 0, twice, then the end. -/
def entry0 (wait : Nat) : Nat := wait * 2 ^ 24 + 0x3FF + 2 ^ 32
def listMu (wait base rep : Nat) : State :=
  oneMu { muAt (ent 8 128 0 tdLoad ++ ent 10 16 0 (entry0 wait) ++ ent 11 16 0 (base * 2 ^ 32 + 2 ^ 64)) with
    lists := [(0, { pos := 0, rep := rep, fin := false, waitSince := none })] }

theorem test_hyp_lists :
    (let s := listMu 0xFF 0 0; let u := muOf s 1; let p := listOf u 0
     isMu 1 = true ∧ unitLive s 1 = true ∧ u.run = true ∧ u.fin = false ∧ p.fin = false ∧ p.pos ≠ 0x3FF ∧ u.cur.isSome = true ∧
     pendOf u 0 = none ∧ listCond u 0 = none ∧ p.rep < ieRm1 (stEnt u.stores 0x0A 16 p.pos)) ∧
    (let s := listMu 0xFF 0 1; let u := muOf s 1; let p := listOf u 0
     unitLive s 1 = true ∧ listCond u 0 = none ∧ ieRm1 (stEnt u.stores 0x0A 16 p.pos) ≤ p.rep) ∧
    (let s := listMu 0 1 0; let u := muOf s 1
     unitLive s 1 = true ∧ (listCond u 0).isSome = true ∧ (listCond u 0).all (fun c => testWait s 1 c 0 == .unmet) = true) ∧
    (let s := listMu 0 0x7FFFFFFF 1; let u := muOf s 1
     unitLive s 1 = true ∧ (listCond u 0).isSome = true ∧ (listCond u 0).all (fun c => testWait s 1 c 1 == .past) = true) := by
  decide +kernel

theorem test_issue : nextIs (exec (.issueEntry ⟨1, .clean⟩ 0) (listMu 0xFF 0 0)) (fun t =>
    decide ((pendOf (muOf t 1) 0).map (·.id) = some 0) && decide ((listOf (muOf t 1) 0).rep = 1)) = true := by decide +kernel

/-- An EAD of four INT8 elements between HBM4E address `a` and scratchpad address 0, a read (0) or a write (1). -/
def ead (dir a : Nat) : Nat :=
  dwords [4 * 2 ^ 28 + 9 * 2 ^ 24 + dir * 2 ^ 22, ring3F, 0xFF * 2 ^ 16 + 1, 0, a, 0, 0, 0, 4 * 2 ^ 16, 4 * 2 ^ 16]
def eadStores (dir a : Nat) : Mem := ent 9 128 0 (ead dir a) ++ ent 13 4 0 (2 ^ 20)
def iss256 : Issued := { iss0 with id := 256 }
def eadMu (a : Nat) : State := oneMu { muAt (eadStores 0 a) with pend := [(4, some iss256)] }
def ead0 : Ead :=
  { iss := iss256, slots := [0], key := 1, sent := true, blockedSince := none, words := 1, due := 0, wdone := 0, need := 1, got := 0,
    buf := [], done := 0 }
/-- The request for its one word, which brings some bytes where it writes. -/
def req0 (bs : List Byte := []) : CtlReq := { site := 1, queue := 0, key := 1, n := 0, data := bs }
/-- One whose request has been sent; HBM holds 1, 2, 3, 4 from 128 on, the scratchpad 7, 8, 9, 10 from 0 on. -/
def sentMu (dir : Nat) (e : Ead) : State :=
  { oneMu { muAt (eadStores dir 128) with
      queues := [(0, [e])], sb := [{ id := 1, write := dir = 0, lo := 0, hi := 4 }],
      spad := [(0, 7), (1, 8), (2, 9), (3, 10)] } with hbm := [(128, 1), (129, 2), (130, 3), (131, 4)] }
def eadWrite : Ead := { ead0 with need := 0, done := 4 }
def eadBack : Ead := { ead0 with wdone := 1, got := 1, buf := [1, 2, 3, 4] }
def eadFull : Ead := { eadBack with done := 4 }

theorem test_hyp_ead_enters :
    (let s := eadMu (2 ^ 30); let u := muOf s 1; let d := issDesc u iss256
     isMu 1 = true ∧ unitLive s 1 = true ∧ pendOf u 4 = some iss256 ∧ queueEads u 0 = [] ∧ 256 ≤ iss256.id ∧
     descReason d true (shapeAt s 1) (shapeDeclared s 1) (fun r => (ringShape u.stores r).1 != 0)
       (fun q => qbOutSlots (queueBind u.stores q) != 0) iss256.off = none ∧ eQueue d = 0 ∧ issZero s 1 iss256 = false ∧
     eadHull d (fmtBits (dFmt d)) (issDims s 1 iss256) = some (2 ^ 30, 2 ^ 30 + 4) ∧
     firstOutside (ctxOf s 0).extents 64 (2 ^ 30) 4 = some (2 ^ 30)) ∧
    (let s := eadMu 128; let u := muOf s 1; let d := issDesc u iss256
     unitLive s 1 = true ∧ issZero s 1 iss256 = false ∧ siteCtx s 1 = some 0 ∧
     eadHull d (fmtBits (dFmt d)) (issDims s 1 iss256) = some (128, 132) ∧ (132 : Int) ≤ hbmTop s ∧
     firstOutside (ctxOf s 0).extents 64 128 4 = none ∧ s.health.split = 0 ∧ u.sb = [] ∧
     (∀ a ∈ accessesOf s 1 iss256, a.ring = 0x3F) ∧ mayEnter u (accessesOf s 1 iss256) 5 = .go ∧ u.hmEn = false) := by
  decide +kernel

/-- A read from a stack of wing 1 by a unit of wing 0, split from it. -/
def farEad : State :=
  { oneMu { muAt (eadStores 0 16384) with queues := [(0, [ead0])] } with health := { base.health with split := 1 } }

theorem test_hyp_ead_moves :
    reqApart farEad req0 = true ∧
    (let s := sentMu 1 eadWrite
     reqApart s req0 = false ∧ eadDir s 1 eadWrite = 1 ∧ s.hbmBad = [] ∧ wordInside s 1 eadWrite 0 = [1024, 1032, 1040, 1048]) ∧
    (let s := sentMu 0 ead0
     reqApart s req0 = false ∧ eadDir s 1 ead0 = 0 ∧ unitLive s 1 = true ∧
     (∀ b ∈ wordInside s 1 ead0 0, sget false s.hbmBad (b / 256).toNat = false) ∧
     (∃ b ∈ wordInside s 1 ead0 0, sget false [(4, true)] (b / 256).toNat = true)) ∧
    (let s := sentMu 0 eadBack
     eadBack.done = 0 ∧ eadBits s 1 eadBack = 8 ∧ eadBack.buf.length = 4 ∧ (eadInside s 1 eadBack).length = 4 ∧
     eadEls s 1 eadBack = [(0, some 1024), (8, some 1032), (16, some 1040), (24, some 1048)] ∧
     (∀ p ∈ eadEls s 1 eadBack, 0 ≤ absBit (eadOrigin s 1 eadBack) p.1)) ∧
    (let s := sentMu 0 eadFull
     unitLive s 1 = true ∧ queueEads (muOf s 1) 0 = [eadFull] ∧ eadDone s 1 0 eadFull = true ∧
     (dSig (issDesc (muOf s 1) eadFull.iss) < 48 → (ctrOf s 1 (dSig (issDesc (muOf s 1) eadFull.iss))).value < 0x7FFFFFFF)) := by
  decide +kernel

/-- Four bytes move from HBM4E to the scratchpad, or back (R210, R213). -/
theorem test_ead :
    ((doReq (sentMu 1 eadWrite) (req0 [7, 8, 9, 10]) eadWrite).map fun t => mread t.hbm 128 5) = some [7, 8, 9, 10, 0] ∧
    ((doReq (sentMu 0 ead0) req0 ead0).map fun t => t.gridIn.map fun w => w.word.data.take 5) = some [[1, 2, 3, 4, 0]] ∧
    mread (muOf (storeRead (sentMu 0 eadBack) 1 0 eadBack) 1).spad 0 5 = [1, 2, 3, 4, 0] ∧
    nextIs (exec (.eadComplete 1 ⟨0, []⟩) (sentMu 0 eadFull)) (fun t => decide (queueEads (muOf t 1) 0 = []) &&
      decide ((muOf t 1).sb = [])) = true := by decide +kernel

/-- A store that has entered as number 2 behind the entries given. -/
def storeMu (sb : List SbEnt) (hm : Bool) : State :=
  oneMu { muAt (ent 8 128 0 tdStore) with
    sb := sb ++ [{ id := 2, write := true, lo := 0, hi := 4 }], nextId := 2, hmEn := hm,
    gens := [(0, { Gen.idle with iss := some iss0, slots := [0], key := 2 })] }
def olderWrite : SbEnt := { id := 1, write := true, lo := 2, hi := 6 }

theorem test_hyp_unblock :
    (let s := storeMu [] false; let u := muOf s 1; let y := genOf u 0
     isMu 1 = true ∧ unitLive s 1 = true ∧ y.iss = some iss0 ∧ y.started = false ∧ y.key ≠ 0 ∧ sbBlocked u y.key = false ∧
     dType (issDesc u iss0) = 1 ∧ dDir (issDesc u iss0) = true ∧ sget [] u.lanes 0 = []) ∧
    (∀ b, (let s := storeMu [olderWrite] b; let u := muOf s 1; let y := genOf u 0
      unitLive s 1 = true ∧ y.key ≠ 0 ∧ sbBlocked u y.key = true ∧ u.hmEn = b ∧
      haloWaits u y.key (dType (issDesc u iss0) != 2 && dHalo (issDesc u iss0)) = false)) ∧
    (let s := oneMu { muAt (ent 8 128 0 tdStore) with
                      gens := [(0, { Gen.idle with iss := some iss0, slots := [0], key := 2, started := true, done := 4 })] }
     unitLive s 1 = true ∧ (genOf (muOf s 1) 0).started = true ∧ genTotal s 1 iss0 ≤ (genOf (muOf s 1) 0).done ∧
     (dSig (issDesc (muOf s 1) iss0) < 48 → (ctrOf s 1 (dSig (issDesc (muOf s 1) iss0))).value < 0x7FFFFFFF)) := by
  decide +kernel

theorem test_unblock :
    nextIs (exec (.accessUnblock ⟨1, .clean⟩ 0) (storeMu [] false)) (fun t => (genOf (muOf t 1) 0).started) = true ∧
    nextIs (exec (.accessUnblock ⟨1, .clean⟩ 0) (storeMu [olderWrite] false)) (fun t => !(genOf (muOf t 1) 0).started &&
      decide ((genOf (muOf t 1) 0).blockedSince = some 0)) = true := by decide +kernel

/-- An uncorrectable word of a store is the fault SRAM, and a corrected one counts for the wing and changes nothing more (R418, R419). -/
theorem test_hyp_stores : (let s := listMu 0xFF 0 0; unitLive s 1 = true ∧ isMu 1 = true) ∧
    (let s := gatedCu 1; unitLive s 0 = true ∧ isCu 0 = true) := by decide +kernel

theorem test_stores :
    nextIs (exec (.issueEntry ⟨1, .bad 0x0A 0⟩ 0) (listMu 0xFF 0 0)) (fun t => decide ((ctxOf t 0).fault = 0x8003) &&
      decide (t.sramErr = [(1, 0x0A, 0)])) = true ∧
    nextIs (exec (.issueEntry ⟨1, .corrected⟩ 0) (listMu 0xFF 0 0)) (fun t => decide ((wingOf t 0).corrections = 1) &&
      decide ((pendOf (muOf t 1) 0).map (·.id) = some 0)) = true := by decide +kernel

/-! ## Grants, packets and HBM errors -/

/-- A tile counter of one dimension of two tiles, dynamic or static. -/
def tcd (static : Nat) : Nat := static * 2 ^ 30 + 2 * 2 ^ 16 * 2 ^ 64
def counterMu (static next : Nat) : State :=
  oneMu { muAt (ent 15 32 0 (tcd static)) with tcNext := next }

theorem test_hyp_tiles : ∀ static next, (static = 0 ∧ next = 0) ∨ (static = 1 ∧ next = 0) ∨ (static = 0 ∧ next = 2) →
    (let s := counterMu static next; let u := muOf s 1; let d := stEnt u.stores 0x0F 32 0
     isMu 1 = true ∧ unitLive s 1 = true ∧ recessing s 1 = false ∧ d ≠ 0 ∧ 0 < tcGroups d ∧ u.tcEnded.contains 0 = false ∧
     groupMembers s 1 0 = [1] ∧ grantRoom s 1 = true ∧ tcStatic d = decide (static = 1) ∧
     siteCtx s 1 = some 0 ∧ twinned s (ctxOf s 0) = false ∧
     (static = 0 → next = 0 → u.tcNext < tcTotal d (shapeAt s 1)) ∧ (static = 1 → 0 + 0 * 1 < tcTotal d (shapeAt s 1)) ∧
     (next = 2 → tcTotal d (shapeAt s 1) ≤ u.tcNext)) := by
  rintro a b (⟨rfl, rfl⟩ | ⟨rfl, rfl⟩ | ⟨rfl, rfl⟩) <;> decide +kernel

theorem test_tile_request : nextIs (exec (.tileRequest 1 0) (counterMu 0 0)) (fun t =>
    decide (t.flying.map (fun f => (f.1, f.2.tile, f.2.fin)) = [(1, 0, false)])) = true := by decide +kernel

def flyState (term : Nat) : State := { oneCu { cuAt [] with grants := [] } with flying := [(0, { grant0 with term := term })] }

theorem test_hyp_grants :
    (let s := flyState 0
     s.flying = [] ++ (0, grant0) :: [] ∧ grant0.term = unitTerm s 0 ∧ unitLive s 0 = true ∧ siteIsCu 0 = true) ∧
    (let s := flyState 3
     s.flying = [] ++ (0, { grant0 with term := 3 }) :: [] ∧ 3 ≠ unitTerm s 0) := by decide +kernel

/-- A packet of route 2 of site 1. -/
def packet (site term : Nat) (obj : Option Nat) : Packet :=
  { src := 1, route := 2, obj := obj, site := site, ctr := 4, inc := 1, term := term }
def meshState (p : Packet) (v : Nat) : State :=
  { unitsOf [(0, { cuAt [] with ctrs := [(4, { Ctr.zero with value := v })] })] [(1, muAt [])] with mesh := [p] }

/-- The failed primary has applied an increment of object 3 that its twin has not raised yet. -/
def cmp3 : Nat × Bool × Nat := (3, true, 1)
def cmpState : State :=
  { meshState (packet 4096 0 (some 3)) 0 with ctxs := [(0, { inSt .running with syl := some syl1, run := some run1, cmp := [cmp3] })] }
/-- The owner of object 3 is detained. -/
def orphanState : State :=
  { meshState (packet 4096 0 (some 3)) 0 with
    ctxs := [(0, { inSt .detention with syl := some syl1, run := some run1 })]
    objs := [(3, { Obj.none with valid := true, orphan := true })] }

theorem test_hyp_packets :
    (let s := meshState (packet 0 0 none) 0
     s.mesh = [] ++ packet 0 0 none :: [] ∧ siteCtx s 1 = some 0 ∧ executes (ctxOf s 0) = true ∧ 0 = unitTerm s 0 ∧
     (ctrOf s 0 4).value + 1 ≤ 0x7FFFFFFF) ∧
    (let s := meshState (packet 0 0 none) 0x7FFFFFFF
     siteCtx s 1 = some 0 ∧ 0x7FFFFFFF < (ctrOf s 0 4).value + 1) ∧
    (let s := meshState (packet 0 3 none) 0
     siteCtx s 1 = some 0 ∧ 3 ≠ unitTerm s 0) ∧
    (let s := meshState (packet 4096 0 (some 3)) 0
     siteCtx s 1 = some 0 ∧ executes (ctxOf s 0) = true ∧ (packet 4096 0 (some 3)).term = unitTerm s 1 ∧
     twinned s (ctxOf s 0) = false ∧ s.health.promoteAt = [] ∧ (ctxOf s 0).cmp = []) ∧
    (let s := cmpState
     siteCtx s 1 = some 0 ∧ executes (ctxOf s 0) = true ∧ (packet 4096 0 (some 3)).term = unitTerm s 1 ∧
     twinned s (ctxOf s 0) = false ∧ s.health.promoteAt = [] ∧ (ctxOf s 0).cmp = [] ++ cmp3 :: [] ∧ cmp3.1 = 3) ∧
    (let s := orphanState
     siteCtx s 1 = some 0 ∧ executes (ctxOf s 0) = false ∧ (packet 4096 0 (some 3)).term = unitTerm s 1 ∧
     s.health.promoteAt = [] ∧ onShadow s 1 = false ∧ (objOf s 3).orphan = true ∧ (objOf s 3).valid = true) := by decide +kernel

theorem test_packet : nextIs (exec (.signalPacket 1 2 .clean) (meshState (packet 0 0 none) 0)) (fun t =>
    decide ((ctrOf t 0 4).value = 1) && decide ((ctrOf t 0 4).lastSrc = 0x40084000)) = true := by decide +kernel

theorem test_hyp_watchdog : (let s := gatedCu 0
    unitLive s 0 = true ∧ waitStands s 0 0 = true ∧ externalWait s 0 0 = false) ∧ isMu 1 = true := by decide +kernel

/-- A read has met an uncorrectable word, and waits for its second read. -/
def metMu : State := { sentMu 0 ead0 with hbmBad := [(4, true)], ctl := [req0] }
/-- A pseudo-channel with nine bad words. -/
def wornChan : PChan := { PChan.good with badWords := 9 }

theorem test_hyp_hbm_errors :
    (let s := metMu
     isMu 1 = true ∧ unitLive s 1 = true ∧
     (queueEads (muOf s 1) 0).find? (readsNow s 1 0 (128 / 32)) = some ead0 ∧
     s.ctl = [req0] ∧ reqEad s req0 = some ead0 ∧ s.health.split = 0 ∧
     (∀ b ∈ wordInside s 1 ead0 0, sget false s.hbmBad (b / 256).toNat = true → (b / 256).toNat = 128 / 32)) ∧
    (4096 < hbmTop base ∧ 0 < numStacks base) ∧
    (let c := sget PChan.good base.pchans 5; ¬ (8 < c.badWords ∨ dget base 0x284002 < c.recent.length)) ∧
    (let s := { base with pchans := [(5, wornChan)] }; let c := sget PChan.good s.pchans 5
     8 < c.badWords ∧ c.failing = false ∧ 0 ∉ sparesUsed s 0) ∧
    (let s := { base with pchans := [(5, { PChan.good with recent := [0] })] }; let c := sget PChan.good s.pchans 5
     dget s 0x284002 < c.recent.length ∧ c.failing = false) ∧
    (let s := { base with pchans := ((List.range 4).map fun i => (i, { PChan.good with spare := some i })) ++ [(5, wornChan)] }
     (∀ m, m < 4 → m ∈ sparesUsed s 0) ∧ (sget PChan.good s.pchans 5).failing = false) ∧
    (let s := { base with pchans := [(5, { PChan.good with failing := true, copying := some 0 })] }
     (sget PChan.good s.pchans 5).copying = some 0 ∧ s.health.remaps.length < 64) := by decide +kernel

theorem test_hbm_retry : nextIs (exec (.hbmEccRetry 1 0 128 false) metMu) (fun t => decide (dget t 0x220002 = 1) &&
    decide (dget t 0x220007 = 128)) = true := by decide +kernel

/-! ## The fabric -/

/-- A circuit entry: operation, inputs, slots, outputs, Term. -/
def cEnt (op a b sa sb out term : Nat) : Nat :=
  2 ^ 63 + op * 2 ^ 60 + a * 2 ^ 57 + b * 2 ^ 54 + sa * 2 ^ 46 + sb * 2 ^ 38 + out * 2 ^ 30 + term * 2 ^ 22
def site33 : Nat := 33
/-- The switch of site 33 (row 1, column 1) with entry 0. -/
def swAt (e : Nat) : Switch := { Switch.idle with stores := cellsOf 0#8 0 (leBytes 8 e) }
def fabric (e : Nat) (f : Flight) : State := { base with sws := [(33, swAt e)], wires := [f] }
def flightAt (port term : Nat) : Flight :=
  ⟨33, port, 0, { data := bytes128 1, term := term, tag := 5, last := true, req := none }⟩

theorem test_hyp_fabric :
    (let s := fabric (cEnt 0 0 0 1 0 6 0) (flightAt 0 0); let w := swOf s 33
     s.wires = [] ++ flightAt 0 0 :: [] ∧ isGridPort 33 0 = false ∧ claim w 0 0 = some (0, 0) ∧ ceTerm (circuit w 0) = 0 ∧
     (outPorts (circuit w 0)).length ≠ 1) ∧
    (let s := fabric (cEnt 0 0 0 1 0 2 0) (flightAt 0 0); let w := swOf s 33
     claim w 0 0 = some (0, 0) ∧ ceTerm (circuit w 0) = 0 ∧ ceOp (circuit w 0) = 0 ∧ outPorts (circuit w 0) = [1] ∧
     neighbour 33 1 = some 34 ∧ neighbour 33 0 = some 1 ∧ bufOf w 0 0 = [] ∧ sget 0 w.used 1 < 2) ∧
    (let s := fabric 0 (flightAt 0 0); claim (swOf s 33) 0 0 = none) ∧
    (let s := fabric (cEnt 0 0 0 1 0 2 7) (flightAt 0 0); let w := swOf s 33
     claim w 0 0 = some (0, 0) ∧ ceTerm (circuit w 0) ≠ (flightAt 0 0).word.term) ∧
    (let s := fabric 0 (flightAt 8 3)
     s.wires = [] ++ flightAt 8 3 :: [] ∧ isGridPort 33 8 = false ∧ (flightAt 8 3).word.term ≠ unitTerm s 33) ∧
    (let s := { fabric 0 ⟨1, 8, 0, (flightAt 8 0).word⟩ with mus := [(1, muAt (ent 13 4 0 (2 ^ 10)))] }
     siteIsCu 1 = false ∧ isGridPort 1 8 = false ∧ 0 = unitTerm s 1 ∧ muLane (muOf s 1) 0 0 = 4 ∧ queueEads (muOf s 1) 0 = []) ∧
    (let s := fabric 0 (flightAt 8 0)
     s.wires = [] ++ flightAt 8 0 :: [] ∧ 0 = unitTerm s 33 ∧ siteIsCu 33 = true ∧ (flightAt 8 0).word.req = none) ∧
    (∀ b : Bool, (let s := { fabric 0 (flightAt 9 0) with cus := [(33, { cuAt [] with tokSlots := if b then 1#8 else 0#8 })] }
      s.wires = [] ++ flightAt 9 0 :: [] ∧ 0 = unitTerm s 33 ∧ siteIsCu 33 = true ∧ (cuOf s 33).tokSlots.getLsbD 0 = b)) := by
  decide +kernel

/-- A word that an attachment sends to grid-side port 1, for entry 0 of the switch of site 1 behind it. -/
def inState : State :=
  { base with sws := [(1, swAt (cEnt 0 0 0 1 0 4 0))], gridIn := [{ site := 1, port := 0, slots := 1, word := (flightAt 0 0).word }] }
/-- A circuit of entry 0 of site 1 goes out by grid-side port 1 and over bridge direction 0 in its slot 3. -/
def circ1 : RingCirc := { term := 0, site := 1, port := 0, entry := 0, hops := [(0, [3])], far := 97, slots := 1, bufs := [[]] }
def bridgeState (f : Flight) : State :=
  { base with sws := [(1, swAt (cEnt 0 2 0 1 0 1 0))], ring := [circ1], wires := [f] }
def ringFlight : Flight := { flightAt 0 0 with site := 2049 }
def farFlight : Flight := { flightAt 0 0 with site := 2432, slot := 3 }

theorem test_hyp_ring :
    (isGridPort 1 0 = true ∧ (ringEnter inState 1 0).map (·.1) = some ⟨1, 0, 0, (flightAt 0 0).word⟩) ∧
    (ringEnter base 1 0).map (·.1) = none ∧
    (let s := bridgeState ringFlight; let pl := gridPlace 1; let e := circuit (swOf s pl.1) ringFlight.port
     s.wires = [] ++ ringFlight :: [] ∧ ringFlight.site = 2048 + 1 ∧ pl = (1, 0) ∧ ceValid e = true ∧ ceTerm e = 0 ∧
     s.ring.find? (fun r => r.site = pl.1 && r.port = pl.2 && r.entry = ringFlight.port) = some circ1 ∧ circ1.hops = (0, [3]) :: []) ∧
    (let s := bridgeState farFlight
     s.wires = [] ++ farFlight :: [] ∧ farFlight.site = 2432 + 0 ∧ farFlight.slot ∈ [3] ∧ s.ring = [circ1] ∧
     circ1.term = farFlight.word.term ∧ circ1.bufs = [[]]) := by decide +kernel

/-- A word crosses the bridge in its circuit's slot and waits at the far endpoint, from where it enters the far wing (R196, R197). -/
theorem test_bridge :
    nextIs (exec (.fabricWord 2049 0 .clean) (bridgeState ringFlight)) (fun t =>
      decide (t.wires.map (fun f => (f.site, f.slot)) = [(2432, 3)])) = true ∧
    nextIs (exec (.fabricWord 2432 0 .clean) (bridgeState farFlight)) (fun t =>
      decide (t.ring.map (fun r => r.bufs.map List.length) = [[1]]) &&
      decide ((ringEnter t 513 0).map (·.1.site) = some 513)) = true := by decide +kernel

/-- A word that a neighbour link or a bridge has corrupted is counted and faults (R179, R418). -/
theorem test_link_fault :
    nextIs (exec (.fabricWord 33 0 .uncorrectable) (fabric (cEnt 0 0 0 1 0 6 0) (flightAt 0 0))) (fun t =>
      decide (dget t 0x230004 = 1) && decide (t.wires = [])) = true ∧
    nextIs (exec (.fabricWord 2049 0 .uncorrectable) (bridgeState ringFlight)) (fun t =>
      decide (dget t 0x230004 = 1) && decide (t.wires = [])) = true := by decide +kernel

/-- An MU with a word to send on its lane 0. -/
def laneState : State :=
  { oneMu { muAt [] with outq := [{ lane := 0, slots := 1, word := (flightAt 0 0).word, mark := none }] } with
    sws := [(1, swAt (cEnt 0 4 0 1 0 6 0))] }

theorem test_hyp_lane : let s := laneState
    siteIsCu 1 = false ∧ unitLive s 1 = true ∧
    (muOf s 1).outq = { lane := 0, slots := 1, word := (flightAt 0 0).word, mark := none } :: [] ∧ laneRoom s 1 4 1 = true ∧
    claim (swOf s 1) 4 (slotFrom 1 (s.fclk % 8)) = some (0, 0) ∧ ceTerm (circuit (swOf s 1) 0) = 0 ∧
    (outPorts (circuit (swOf s 1) 0)).length ≠ 1 := by decide +kernel

/-- A word goes on to the east neighbour in the next slot, and its credit north (R182, R183). -/
theorem test_forward : nextIs (exec (.fabricWord 33 0 .clean) (fabric (cEnt 0 0 0 1 0 2 0) (flightAt 0 0))) (fun t =>
    decide (t.wires.map (fun f => (f.site, f.port, f.slot)) = [(34, 3, 1)]) &&
    decide (t.credits.map (fun c => (c.site, c.port, c.slot)) = [(1, 2, 0)])) = true := by decide +kernel

def creditState (slot : Nat) : State :=
  { base with sws := [(33, { swAt (cEnt 0 0 0 1 0 2 0) with used := [(1, 1)] })], credits := [⟨33, 1, slot, 0⟩] }
/-- Entry 0 with words in its operands. -/
def loaded33 (e : Nat) (a b : List Flight) (used : Nat) : State :=
  { base with sws := [(33, { swAt e with bufs := (if a = [] then [] else [(0, a)]) ++ (if b = [] then [] else [(1, b)]),
                                         used := if used = 0 then [] else [(1, used)] })] }

theorem test_hyp_credits :
    (let s := creditState 1; let w := swOf s 33
     s.credits = [] ++ ⟨33, 1, 1, 0⟩ :: [] ∧ ceValid (circuit w 0) = true ∧ (ceOut (circuit w 0)).testBit 1 = true ∧
     (outSlots (circuit w 0)).testBit 1 = true ∧ ceTerm (circuit w 0) = 0 ∧ bufOf w 0 0 = []) ∧
    (let s := creditState 2; let w := swOf s 33
     ∀ i, i < 64 → (ceValid (circuit w i) && (ceOut (circuit w i)).testBit 1 && (outSlots (circuit w i)).testBit 2 &&
       ceTerm (circuit w i) = 0) = false) ∧
    (let s := loaded33 (cEnt 0 0 0 1 0 6 0) [flightAt 0 0] [] 0; let w := swOf s 33
     bufOf w 0 0 = flightAt 0 0 :: [] ∧ ceOp (circuit w 0) = 0 ∧ hasCredits s 33 0 = true) ∧
    (let s := loaded33 (cEnt 0 0 0 1 0 6 0) [flightAt 0 0] [] 2; let w := swOf s 33
     bufOf w 0 0 = flightAt 0 0 :: [] ∧ ceOp (circuit w 0) = 0 ∧ hasCredits s 33 0 = false) ∧
    (let s := loaded33 (cEnt 1 0 3 1 1 2 0) [flightAt 0 0] [flightAt 3 0] 0; let w := swOf s 33
     bufOf w 0 0 = flightAt 0 0 :: [] ∧ bufOf w 0 1 = flightAt 3 0 :: [] ∧ ceValid (circuit w 0) = true ∧
     ceOp (circuit w 0) = 1 ∧ hasCredits s 33 0 = true ∧ (flightAt 0 0).word.tag = (flightAt 3 0).word.tag) ∧
    (let f : Flight := { flightAt 3 0 with word := { (flightAt 3 0).word with tag := 6 } }
     let s := loaded33 (cEnt 1 0 3 1 1 2 0) [flightAt 0 0] [f] 0; let w := swOf s 33
     bufOf w 0 1 = f :: [] ∧ (flightAt 0 0).word.tag ≠ f.word.tag ∧ hasCredits s 33 0 = true) ∧
    (let s := { loaded33 (cEnt 1 0 3 1 1 2 0) [flightAt 0 0, flightAt 0 0] [] 0 with ctxs := [(0, { inSt .running with level := 2 })] }
     let w := swOf s 33
     ceValid (circuit w 0) = true ∧ ceOp (circuit w 0) = 1 ∧ 2 ≤ (bufOf w 0 0).length ∧ bufOf w 0 1 = [] ∧
     monitored s 33 = true) ∧
    (let s := { loaded33 (cEnt 1 0 3 1 1 2 0) [] [flightAt 3 0, flightAt 3 0] 0 with ctxs := [(0, { inSt .running with level := 2 })] }
     let w := swOf s 33
     bufOf w 0 0 = [] ∧ bufOf w 0 1 = flightAt 3 0 :: [flightAt 3 0] ∧ monitored s 33 = true) ∧
    (let s := { base with ctxs := [(0, { inSt .running with level := 2 })],
                          cus := [(33, { cuAt [] with window := [passIn], wgt := List.replicate 32 (flightAt 9 0) })] }
     siteIsCu 33 = true ∧ monitored s 33 = true ∧ imbalance s 33 64 = some (5, 4, 5)) ∧ monitored base 33 = false := by
  decide +kernel

theorem test_reduce : nextIs (exec (.reduceFire ⟨33, .clean⟩ 0) (loaded33 (cEnt 1 0 3 1 1 2 0) [flightAt 0 0] [flightAt 3 0] 0)) (fun t =>
    decide (t.wires.map (fun f => (f.site, f.port, f.slot)) = [(34, 3, 4)])) = true := by decide +kernel

/-! ## EtherCAT and the object dictionary -/

/-- Every check of a write, as a value. -/
def okWrite (s : State) (r : Requester) (term index sub v : Nat) : Bool :=
  reqOk r && decide (7 ≤ s.boot.step) && (match r with | .master => mailboxUp s | .host h => hostEnabled s h) &&
  (match locate s index sub with
    | .error _ => false
    | .ok o => decide (v < 2 ^ (8 * o.size)) && inRange s index sub v o && o.acc != .ro && (o.acc != .ecat || r == .master) &&
        !(leaseStops s r term o.acc)) && !(index = 0x1C33 && s.boot.alState == .op)

theorem acc {s : State} {r : Requester} {term index sub v : Nat} (h : okWrite s r term index sub v = true) :
    Accepted s r term index sub v := by
  unfold okWrite at h
  cases hl : locate s index sub with
  | error a => simp [hl] at h
  | ok o =>
    simp only [hl, Bool.and_eq_true, decide_eq_true_eq, bne_iff_ne, Bool.or_eq_true, beq_iff_eq, Bool.not_eq_true',
      Bool.and_eq_false_iff, decide_eq_false_iff_not] at h
    obtain ⟨⟨⟨⟨h1, h2⟩, h3⟩, ⟨⟨⟨h4, h5⟩, h6⟩, h7⟩, h8⟩, h9⟩ := h
    refine ⟨⟨h1, h2, ?_⟩, o, hl, h4, h5, h6, ?_, h8, ?_⟩
    · cases r <;> exact h3
    · intro he
      exact h7.resolve_left fun hn => hn he
    · rintro ⟨rfl, hop⟩
      rcases h9 with h9 | h9
      · exact h9 rfl
      · simp [hop] at h9

/-- `base` with an AL state and dictionary values. -/
def alState (a : AlState) (d : List (Nat × Nat)) : State := { base with boot := { base.boot with alState := a }, dict := d }
/-- `base` at a power-up step. -/
def atStep (n : Nat) : State := { base with boot := { base.boot with step := n, online := false } }

theorem test_hyp_master :
    (7 ≤ base.boot.step ∧ alCode .safeop ≤ alCode base.boot.alState + 1 ∧ base.boot.alState ≠ .op) ∧
    (let s := alState .op [(0x201101, 1)]
     7 ≤ s.boot.step ∧ s.boot.alState = .op ∧ AlState.init ≠ .op ∧ dget s 0x201101 = 1) ∧
    alCode base.boot.alState + 1 < alCode .op ∧
    (let s := atStep 7; 2 ≤ s.boot.step ∧ s.boot.step < 8 ∧ s.boot.plane = 0 ∧ 2 ≤ alCode .safeop) ∧ 8 ≤ base.boot.step ∧
    dget base 0x201101 ≠ 1 ∧
    base.ecatLink.getLsbD 0 ≠ false ∧
    (let s := alState .safeop [(0x250104, 1)]
     dget s 0x250104 = 1 ∧ (srcOf s 2).phase / 65536 + 1 < 2 ^ 48 ∧ dget s 0x1C3301 = 0 ∧ 2 ≤ alCode s.boot.alState) ∧
    mailboxUp base = true ∧ (let s := atStep 3; s.boot.step < 7 ∧ mailboxUp s = true ∧ 0x2100 ≠ 0x1000 ∧ 0x2100 ≠ 0x1018) := by
  decide +kernel

/-- The identity object's vendor and an object that does not exist (R397, R408). -/
theorem test_upload : (upload base .master 0x1018 1 false).1 = .ok [0x4C, 0x4A, 0x53, 0x00] ∧
    (upload base .master 0x1234 1 false).1 = .error 0x06020000 := ⟨rfl, rfl⟩

theorem test_sync0 : nextIs (exec .sync0Event (alState .safeop [(0x250104, 1)])) (fun t =>
    decide ((srcOf t 2).phase = 65536)) = true := by decide +kernel

/-- Host 1 with GID 5 is enabled, on an enabled host port 0 of address 0.0.0.7; SDO over UDP is at UDP port 50,000. -/
def hosted : State :=
  { base with dict := [(hostObj 1 1, 5), (hostObj 1 2, 1), (hportObj 0 1, 1), (hportObj 0 4, 7), (0x202001, 50000)] }
/-- Sent to that address and UDP port, from UDP port 40,000. -/
def toPort0 (bs : List Byte) (waiting : Nat := 0) : Datagram := ⟨0xFFFF00000007, 50000, 40000, bs, waiting⟩
/-- A datagram with a number: an operation on an object, with data. -/
def dgram (op index sub : Nat) (data : List Byte) (id : Nat := 9) : List Byte :=
  leBytes 4 0x4C440100 ++ leBytes 4 (id * 2 ^ 16 + op) ++ leBytes 4 (index * 2 ^ 16 + sub * 2 ^ 8) ++ leBytes 4 (data.length * 2 ^ 16) ++
  leBytes 4 0 ++ data

theorem test_hyp_udp :
    (7 ≤ hosted.boot.step ∧ hportUp hosted 0 = true ∧ hosted.health.split.getLsbD 0 = false ∧ hostByGid hosted 6 = none ∧
     hostByGid hosted 5 = some 1 ∧ ([] : List Byte).length < 20 ∧ toDictionary hosted 0 (toPort0 []) = true ∧
     toDictionary hosted 0 { toPort0 [] with dport := 50001 } = false) ∧
    (let d := dgram 2 0x2330 2 [3]
     20 ≤ d.length ∧ leAt d 2 2 = 0x4C44 ∧ 20 + leAt d 14 2 ≤ d.length ∧ leAt d 0 2 = 0x0100 ∧ udpOk d = true ∧
     fld (leAt d 4 1) 0 4 = 2 ∧ leAt d 6 2 = 9 ∧ (hostOf hosted 1).recent = []) ∧
    (let s := { hosted with hosts := [(1, { HostSt.absent with recent := [(9, 0, [1])] })] }
     (hostOf s 1).recent.find? (fun e => e.1 = 9 && decide (s.fclk ≤ e.2.1 + ms 2000)) = some (9, 0, [1])) ∧
    (let d := dgram 1 0x2330 2 []
     leAt d 0 2 = 0x0100 ∧ udpOk d = true ∧ fld (leAt d 4 1) 0 4 = 1) := by decide +kernel

theorem test_hyp_udp_upload : ∃ bs u, upload hosted (.host 1) 0x2330 2 false = (.ok bs, u) ∧ bs.length ≤ 1024 :=
  ⟨[0], hosted, rfl, by decide⟩

theorem test_hyp_reaches : Reaches base .master ∧ Reaches hosted (.host 1) := by
  constructor
  · exact ⟨by decide, by decide, by decide +kernel⟩
  · exact ⟨by decide, by decide, by decide +kernel⟩

/-- A number used again gets the same answer, to the port it came from, and nothing is done (R400, R401). -/
theorem test_udp_again : nextIs (exec (.sdoUdpDatagram 0 5 (toPort0 (dgram 2 0x2330 2 [3])))
    { hosted with hosts := [(1, { HostSt.absent with recent := [(9, 0, [1])] })] }) (fun t =>
      decide (t.out = [.udp 1 (some (5, 40000)) [1]]) && decide (ownGet t (.host 1) 0x2330 2 = 0)) = true ∧
    nextIs (exec (.sdoUdpDatagram 0 5 (toPort0 (dgram 2 0x2330 2 [3]) 64)) hosted) (fun t =>
      decide (t.out = []) && decide (dget t 0x202003 = 1)) = true := by decide +kernel

theorem test_hyp_judged :
    locate base 0x1234 1 = .error 0x06020000 ∧ locate hosted 0x2330 3 = .ok (ro 16) ∧ locate hosted 0x2720 5 = .ok (ecat 1 1 1) ∧
    locate hosted 0x2330 1 = .ok (rw 1 0 1) ∧ locate hosted 0x2330 2 = .ok (own 1 0 63) ∧ Requester.host 1 ≠ .master ∧
    (dictWrite base .master 0 0x2330 1 [2]).1 ≠ 0 ∧ leaseStops hosted (.host 1) 0 .rw = true ∧
    leaseStops base .master 0 .rw = false ∧ inRange base 0x2330 1 2 (rw 1 0 1) = false ∧
    inRange base 0x2330 2 3 (own 1 0 63) = true := by
  refine ⟨rfl, rfl, rfl, rfl, rfl, ?_⟩
  decide +kernel

/-- The order of R405: a write that is too long is refused before its lease is asked for. -/
theorem test_write_order : (dictWrite hosted (.host 1) 0 0x2330 1 [0, 0]).1 = 0x06070012 ∧
    (dictWrite hosted (.host 1) 0 0x2330 1 [0]).1 = 0x08000021 ∧ (dictWrite hosted (.host 1) 0 0x2330 3 [0, 0]).1 = 0x06010002 ∧
    (dictWrite hosted (.host 1) 0 0x2330 2 [9]).1 = 0 := by decide +kernel

theorem test_hyp_rows : writesOf base (.powerCapWrite .master 0 3000) = some (.master, 0, 0x2100, 1, 3000) ∧
    plainObj 0x2100 1 = true := by decide +kernel

theorem test_hyp_plain : Accepted base .master 0 0x2100 1 3000 := acc (by decide +kernel)

theorem test_power_cap : nextIs (exec (.powerCapWrite .master 0 3000) base) (fun t => decide (dget t 0x210001 = 3000)) = true := by
  decide +kernel

/-! ## Writes that act -/

def cardState : State := { withCtx { inSt .loaded with syl := some syl1 } with dict := [(0x242001, 4)] }
def gateState (g st : Nat) : State :=
  { base with gates := [(g, (st, 0))], mwins := [(2, { MWin.closed with st := 1 })] }
def leaseState : State := { base with lease := { Lease.never with holder := some 0, term := 1, expiry := 5 } }

theorem test_hyp_control :
    Accepted base .master 0 0x2100 5 1800 ∧
    (Accepted cardState .master 0 0x2420 3 1 ∧ (ctxOf cardState 0).syl.isSome = true ∧ inRun (ctxOf cardState 0) = false) ∧
    (Accepted base .master 0 0x2310 4 1 ∧ base.roll.state ≠ 1) ∧
    (let s := withCtx (inSt .loaded)
     Accepted s .master 0 0x2340 4 0 ∧ (ctxOf s 0).st = .loaded ∧ (ctxOf s 0).loading = none ∧ (ctxOf s 0).run = none ∧
     (ctxOf s 0).launches = [] ∧ (ctxOf s 0).lc = false ∧ (ctxOf s 0).recess = none ∧ (ctxOf s 0).resume = [] ∧
     (ctxOf s 0).resets = []) ∧
    (Accepted (gateState 5 0) .master 0 0x2060 5 0 ∧ gateRead (gateState 5 0) 5 = 1 ∧ (mwinOf (gateState 5 0) 2).st = 1) ∧
    Accepted (gateState 5 1) .master 0 0x2060 5 1 ∧ Accepted base .master 0 0x2010 1 1 ∧
    (Accepted base .master 0 0x2010 1 0 ∧ ∀ g, g < 6 → gateRead base g = 1) ∧
    (let s := { withCtx { inSt .loaded with launches := [launch1] } with gates := [(3, (1, 0))] }
     gateRead s 3 = 2 ∧ (ctxOf s 0).st = .loaded) ∧
    Accepted base .master 0 0x1003 0 0 ∧ (Accepted leaseState .master 0 0x2720 5 1 ∧ leased leaseState = true) := by
  refine ⟨acc ?_, ⟨acc ?_, ?_⟩, ⟨acc ?_, ?_⟩, ⟨acc ?_, ?_⟩, ⟨acc ?_, ?_⟩, acc ?_, acc ?_, ⟨acc ?_, ?_⟩, ?_, acc ?_, ⟨acc ?_, ?_⟩⟩ <;>
    decide +kernel

/-- A ceiling of 1,800 steps ACLK from 3,600 to 3,500 at once, a second write in the same window does not (R51), and VCMP then is
0.6 V + 1,700 · 0.2 V / 1,800, rounded up to 790 mV (R463). -/
theorem test_ceiling :
    nextIs (exec (.aclkCeilingWrite .master 0 1800) base) (fun t => decide (t.clk.aclk = 3500) && decide (t.clk.vcmp = 790)) = true ∧
    nextIs (exec (.aclkCeilingWrite .master 0 1800) { base with clk := { base.clk with stepped := true } }) (fun t =>
      decide (t.clk.aclk = 3600)) = true := by decide +kernel

/-- With nothing in flight a gate is quiesced at once; a memory window closes first (R413). -/
theorem test_gates : nextIs (exec (.gateDisable .master 0 1) base) (fun t => decide (gateRead t 1 = 0)) = true ∧
    nextIs (exec (.gateDisable .master 0 5) (gateState 5 0)) (fun t =>
      decide (gateRead t 5 = 2) && decide ((mwinOf t 2).st = 2)) = true := by decide +kernel

def rollState : State := { base with roll := { base.roll with state := 1 } }
def portState : State := { base with tports := [(3, { TPort.down with link := .disabled })] }
def offState : State :=
  { base with tports := [(3, { TPort.down with link := .up })], chans := [(195, { Chan.closed with st := .opened })] }

theorem test_hyp_ports :
    (rollState.roll.state = 1 ∧ (ctxOf rollState rollState.roll.ctx).st = .free) ∧ (Accepted portState .master 0 (0x2640 + 3) 1 1 ∧ (tportOf portState 3).link = .disabled) ∧
    (Accepted offState .master 0 (0x2640 + 3) 1 0 ∧ (chanOf offState (64 * 3 + 3)).st = .opened) ∧
    (Accepted base .master 0 (0x2730 + 1) 1 1 ∧ base.power.opticsOff.getLsbD 1 = false) ∧
    Accepted base .master 0 (0x2730 + 0) 1 0 ∧
    (Accepted base .master 0 (0x2730 + 0) 4 9 ∧ 9 ≠ dget base (hportObj 0 4)) ∧
    (Accepted base .master 0 (0x2730 + 0) 4 0 ∧ 0 = dget base (hportObj 0 4)) ∧
    (Accepted base .master 0 (0x2710 + 2) 1 7 ∧ (hostOf base 2).state ≠ 1 ∧ dget base (hostObj 2 2) ≠ 1) ∧
    (Accepted hosted .master 0 (0x2710 + 1) 2 1 ∧ dget hosted (hostObj 1 1) ≠ 0 ∧
      gidTaken hosted 1 (dget hosted (hostObj 1 1)) = false) := by
  refine ⟨?_, ⟨acc ?_, ?_⟩, ⟨acc ?_, ?_⟩, ⟨acc ?_, ?_⟩, acc ?_, ⟨acc ?_, ?_⟩, ⟨acc ?_, ?_⟩, ⟨acc ?_, ?_⟩, ⟨acc ?_, ?_⟩⟩ <;>
    decide +kernel

/-- A changed address drops the connections of the port (R396). -/
theorem test_address : nextIs (exec (.hostPortAddressWrite .master 0 0 4 9) base) (fun t => !(connOf t 0).live) = true ∧
    nextIs (exec (.hostPortAddressWrite .master 0 0 4 0) base) (fun t => (connOf t 0).live) = true := by decide +kernel

def entryBytes : List Byte := leBytes 16 (2 ^ 92)
/-- Timetable 0 on source 2 with a cycle of 1,000 steps, one entry, and context 0. -/
def ttDict : List (Nat × Nat) := [(0x250104, 1), (ttObj 0 2, 2), (ttObj 0 4, 1), (ttObj 0 5, 1000)]
def enableState : State := { base with dict := ttDict, entries := [(0, 2 ^ 92)] }
def badState : State := { base with dict := ttDict, entries := [(0, 7 * 2 ^ 92)] }
def enabledState (st : CtxSt) (r : Option Run) : State :=
  { base with dict := ttDict, tts := [(0, { Timetable.disabled with state := 1, count := 1 })],
              ctxs := [(0, { inSt st with run := r })], due := [{ tt := 0, entry := 0, cycle := 0, phase := 0, start := false }] }
def setWings (l : List WingSt) : State := { base with wings := l.map fun w => { Wing.active with st := w } }
def commitState (n : Nat) : State :=
  { base with boot := { base.boot with image := some { Image.initial with svn := 1 }, commit := n } }

theorem test_hyp_device :
    (Accepted base .master 0 0x2510 2 (leNat entryBytes) ∧ entryBytes.length = 16 ∧ entryLocked base (dget base 0x251001) = false) ∧
    (Accepted enableState .master 0 (0x2520 + 0) 1 1 ∧ (ttOf enableState 0).state ≠ 1 ∧
      rangeFault enableState 0 (dget enableState (ttObj 0 3)) (dget enableState (ttObj 0 4)) = none) ∧
    (Accepted badState .master 0 (0x2520 + 0) 1 1 ∧
      rangeFault badState 0 (dget badState (ttObj 0 3)) (dget badState (ttObj 0 4)) = some 0) ∧
    (Accepted (enabledState .running (some run1)) .master 0 (0x2520 + 0) 1 0 ∧
      (ttOf (enabledState .running (some run1)) 0).state = 1 ∧ inRun (ctxOf (enabledState .running (some run1)) 0) = true) ∧
    (Accepted (enabledState .loaded none) .master 0 (0x2520 + 0) 1 0 ∧ (ttOf (enabledState .loaded none) 0).state = 1 ∧
      inRun (ctxOf (enabledState .loaded none) 0) = false) ∧
    (Accepted base .master 0 (0x2520 + 0) 3 40 ∧ (ttOf base 0).state ≠ 1) ∧
    (Accepted base .master 0 0x2810 (0 + 1) 1 ∧ pairHeld base 0 = false ∧ 2 * 0 + 1 < base.wings.length ∧ (wingOf base 0).st = .active ∧
      (wingOf base 1).st = .active) ∧
    (Accepted base .master 0 (0x2820 + 3) 2 1 ∧ 3 < base.wings.length ∧ (wingOf base 3).st = .active) ∧
    (let s := setWings [.active, .fenced, .active, .active]
     Accepted s .master 0 (0x2820 + 1) 2 0 ∧ (wingOf s 1).st = .fenced ∧ s.health.split.getLsbD 1 = false ∧ isSmall s = false) := by
  refine ⟨⟨acc ?_, ?_⟩, ⟨acc ?_, ?_⟩, ⟨acc ?_, ?_⟩, ⟨acc ?_, ?_⟩, ⟨acc ?_, ?_⟩, ⟨acc ?_, ?_⟩, ⟨acc ?_, ?_⟩, ⟨acc ?_, ?_⟩, ⟨acc ?_, ?_⟩⟩ <;>
    decide +kernel

theorem test_hyp_resets :
    (Accepted (commitState 0) .master 0 0x2910 5 1 ∧ (commitState 0).boot.commit ≠ 1 ∧ commitBits (commitState 0) = [0]) ∧
    ((commitState 1).boot.commit = 1 ∧ rollback (commitState 1).fuse ≤ 1 ∧ (1 : Nat) ≤ 63) ∧
    (Accepted base .master 0 0x2930 3 1 ∧ base.attest.1 ≠ 1) ∧
    (let s := { base with attest := (1, [1]) }; s.attest.1 = 1) ∧
    (Accepted base .master 0 0x2900 2 0xA5 ∧ base.boot.commit ≠ 1) ∧ Accepted base .master 0 0x2900 2 0x5A := by
  refine ⟨⟨acc ?_, ?_⟩, ?_, ⟨acc ?_, ?_⟩, ?_, ⟨acc ?_, ?_⟩, acc ?_⟩ <;> decide +kernel

theorem test_commit : nextIs (exec (.commitComplete true) (commitState 1)) (fun t => decide (rollback t.fuse = 1) &&
    decide (t.boot.commit = 2)) = true := by decide +kernel

theorem test_twins_and_fence :
    nextIs (exec (.twinModeWrite .master 0 0 2) base) (fun t => decide ((wingOf t 0).st = .twinShadow) &&
      decide ((wingOf t 1).st = .twinPrimary)) = true ∧
    nextIs (exec (.wingFence .master 0 3) base) (fun t => decide ((wingOf t 3).st = .fenced)) = true := by decide +kernel

/-- A full reset starts again at step 1 with the power on; a plane reset stays at step 7 (R455, R456). -/
theorem test_resets :
    nextIs (exec (.fullResetRequest .master 0) base) (fun t => decide (t.boot.step = 1) && t.power.on && decide (t.conns = [])) = true ∧
    nextIs (exec (.planeResetRequest .master 0) base) (fun t => decide (t.boot.step = 7) && decide (t.boot.plane = 3) &&
      decide (t.conns = [])) = true := by decide +kernel


/-- A refused state request makes ERR blink (R470), and a complete-access download is refused (R397). -/
theorem test_master_refusals :
    nextIs (exec (.alStateRequest .op) base) (fun t => decide (errLed t = .blinking) && t.boot.alRefused) = true ∧
    nextIs (exec (.coeSdoDownload 0x2100 1 ⟨true, [0, 0]⟩) base) (fun t => decide (t.out.length = 1) &&
      decide (dget t 0x210001 = dget base 0x210001)) = true := by decide +kernel
/-! ## Power-up -/

/-- `base` in power-up step `n`, with a boot state changed from there. -/
def booting (n : Nat) : State := { base with boot := { Boot.off with step := n } }
def withTransfer (path : Nat) (d : List Byte) : State := setTransfer (booting 2) path { state := 1, data := d, since := 0 }
/-- An image without a body: a header for SJ-L4816-M, an all-zero key and signature, and SHA3-256 of nothing (R443). -/
def image0 : List Byte :=
  bytesOf ([0x49574653, 0x01000100, 1, 1, 0, 0, 0, 0] ++
    [0xF8C6FFA7, 0x66D71EBF, 0x5647C151, 0x62D661A0, 0x4DFF80F5, 0xFA493BE4, 0x4B0AD882, 0x4A43F880]) ++ List.replicate 4032 0
/-- The fuses hold the hash of the image's key in slot 0. -/
def keyFuses : Fuses := { Fuses.initial with keyHash := [BitVec.ofNat 256 (leNat (sha3 ((image0.drop 256).take 1312))), 0, 0, 0] }

theorem leNat_lt (l : List Byte) : leNat l < 256 ^ l.length := by
  induction l with
  | nil => decide
  | cons b l ih =>
    have := b.isLt
    simp only [leNat, List.length_cons, Nat.pow_succ]
    omega

theorem lanes_length (l : List Nat) : (l.flatMap (leBytes 8)).length = 8 * l.length := by
  induction l with
  | nil => rfl
  | cons a l ih => simp [List.flatMap_cons, ih]; omega

/-- A SHA3-256 digest fits 256 bits. -/
theorem sha3_lt (m : List Byte) : leNat (sha3 m) < 2 ^ 256 := by
  have h := leNat_lt (sha3 m)
  have hl : (sha3 m).length ≤ 32 := by
    have := lanes_length ((keccakAbsorb ((sha3Pad m).length / 136) (sha3Pad m) (List.replicate 25 0)).take 4)
    have h4 := List.length_take_le 4 (keccakAbsorb ((sha3Pad m).length / 136) (sha3Pad m) (List.replicate 25 0))
    simp only [sha3]
    omega
  calc leNat (sha3 m) < 256 ^ (sha3 m).length := h
    _ ≤ 256 ^ 32 := Nat.pow_le_pow_right (by decide) hl
    _ = 2 ^ 256 := by decide

/-- A four-byte image fails the first check, and stays a transfer of its path. -/
theorem test_hyp_image_refused : fetching (withTransfer 1 [1]) = true ∧ (transferOf (withTransfer 1 [1]) 1).state = 1 ∧
    imageRefused (withTransfer 1 [1]) (transferOf (withTransfer 1 [1]) 1).data = some 0x8011 := by decide +kernel

theorem image_ok {s : State} {f : List Byte} {z : Fuses} {n : Nat} (hz : s.fuse = z) (hn : fld (imgW f 3) 16 2 = n)
    (h1 : imageFormat f = true) (h2 : (imgW f 3).testBit (b2n (isSmall s)) = true)
    (h3 : (leNat (sha3 ((f.drop 256).take 1312)) != (z.keyHash.getD n 0).toNat || z.revoked.getLsbD n) = false)
    (h4 : Config.mldsaVerify ((f.drop 256).take 1312) (measurement f) ((f.drop 1568).take 2420) (ascii "SFWI") = true)
    (h5 : (sha3 (f.drop 4096) != (f.drop 32).take 32) = false) (h6 : ¬ fld (imgW f 3) 8 6 < rollback z) :
    imageRefused s f = none := by
  simp only [imageRefused, hz, hn, h1, h2, h3, h4, h5, if_neg h6, Bool.not_true, Bool.false_eq_true, if_false]

/-- An image that passes, where ML-DSA accepts its signature: the verification is uninterpreted (log entry 7). -/
theorem test_hyp_image (h : Config.mldsaVerify ((image0.drop 256).take 1312) (measurement image0) ((image0.drop 1568).take 2420)
      (ascii "SFWI") = true) :
    (transferOf { withTransfer 1 image0 with fuse := keyFuses } 1).data = image0 ∧
    imageRefused { withTransfer 1 image0 with fuse := keyFuses } image0 = none := by
  have h1 : imageFormat image0 = true := by decide +kernel
  have h2 : (imgW image0 3).testBit (b2n (isSmall { withTransfer 1 image0 with fuse := keyFuses })) = true := by decide +kernel
  have h0 : fld (imgW image0 3) 16 2 = 0 := by decide +kernel
  have h3 : (leNat (sha3 ((image0.drop 256).take 1312)) != (keyFuses.keyHash.getD 0 0).toNat || keyFuses.revoked.getLsbD 0) = false := by
    have := sha3_lt ((image0.drop 256).take 1312)
    have e : (keyFuses.keyHash.getD 0 0).toNat = leNat (sha3 ((image0.drop 256).take 1312)) := by
      show (BitVec.ofNat 256 _).toNat = _
      rw [BitVec.toNat_ofNat, Nat.mod_eq_of_lt this]
    rw [e]
    simp only [bne_self_eq_false, Bool.false_or]
    decide
  have h6 : (sha3 (image0.drop 4096) != (image0.drop 32).take 32) = false := by decide +kernel
  have h7 : ¬ fld (imgW image0 3) 8 6 < rollback keyFuses := by
    have hr : rollback keyFuses = 0 := by decide +kernel
    rw [hr]
    exact Nat.not_lt_zero _
  exact ⟨rfl, image_ok (z := keyFuses) rfl h0 h1 h2 h3 h h6 h7⟩

/-- A plane reset that has come to a step of its own. -/
def planeStep (n : Nat) : State := { booting 7 with boot := { (booting 7).boot with cause := 3, plane := n } }

theorem test_hyp_power_up :
    (let s := booting 1; s.power.on = true ∧ s.power.resetN = true ∧ s.boot.step = 1 ∧ s.boot.stopped = false) ∧
    (let s := booting 2; fetching s = true ∧ (transferOf s 1).state = 0) ∧
    (let s := withTransfer 1 []; fetching s = true ∧ (transferOf s 1).state = 1 ∧ ([] : List Byte).length ≤ 8192) ∧
    (let s := { booting 2 with boot := { (booting 2).boot with alState := .preop } }; fetching s = true ∧ s.boot.alState = .preop) ∧
    (let s := { booting 2 with boot := { (booting 2).boot with candidate := some ([], Image.initial) } }
     s.boot.step = 2 ∧ s.boot.candidate = some ([], Image.initial)) ∧
    (let s := booting 3
     s.boot.step = 3 ∧ s.boot.stopped = false ∧ 0 < numStacks s ∧
     4 < ((List.range 64).filter fun p => [0, 1, 2, 3, 4].contains (64 * 0 + p)).length ∧
     ((List.range (numStacks s)).all fun k => decide (((List.range 64).filter fun p => [65, 70].contains (64 * k + p)).length ≤ 4)) = true ∧
     6 ∈ (List.range 64).filter fun p => [65, 70].contains (64 * 1 + p)) ∧
    (let s := booting 4
     s.boot.step = 4 ∧ s.boot.stopped = false ∧ s.boot.plane ≠ 4 ∧ 1 < numWings s ∧ 1 < s.wings.length ∧ [1].contains 1 = true ∧ [1].contains 0 = false ∧
     s.fuse.pairs = [] ∧ s.boot.mc1 = true) ∧
    ((booting 5).boot.step = 5 ∧ (booting 5).boot.plane ≠ 3) ∧ (booting 6).boot.step = 6 ∧
    (let s := { booting 6 with health := { base.health with bridges := 1 } }
     s.boot.step = 6 ∧ joined s 1 = 15 ∧ (List.range 4).filter (fun i => s.health.bridges.getLsbD i) ≠ [] ∧ s.health.split = 0 ∧
     ∀ w, w < 4 → (wingOf s w).st ≠ .failed) ∧
    (let s := booting 7; s.boot.step = 7 ∧ s.boot.online = false ∧ s.boot.plane = 0 ∧ s.boot.cause ≠ 3) ∧
    (let s := planeStep 5; s.boot.step = 7 ∧ s.boot.online = false ∧ s.boot.cause = 3) := by
  decide +kernel

/-- An accepted image, fetched with the address that port 1 was offered. -/
def candBoot : Boot := { (booting 2).boot with candidate := some ([], Image.initial), offers := [(1, ⟨7, 9, [1]⟩)] }

/-- An offer that names a boot file starts the transfer and holds the address, which goes back at the end of step 3 (R441). -/
theorem test_dhcp :
    nextIs (exec (.dhcpOffer 1 ⟨7, 9, [1]⟩) (booting 2)) (fun t => decide (t.out = [.tftpRead 1 9 [1] 8192 16])) = true ∧
    nextIs (exec (.mc1ImageCheck false) { booting 2 with boot := candBoot }) (fun t => t.out.contains (.dhcpRelease 1 7) && t.boot.udsLocked &&
        decide (t.boot.offers = [])) = true := by decide +kernel

theorem test_training : nextIs (exec (.hbmTraining [65, 70]) (booting 3)) (fun t => decide (t.boot.step = 4) &&
    decide ((sget PChan.good t.pchans 70).spare = some 1)) = true ∧
    nextIs (exec (.hbmTraining [0, 1, 2, 3, 4]) (booting 3)) (fun t => t.boot.stopped && decide (t.boot.al = 0x8020)) = true := by
  decide +kernel

theorem test_hyp_one_pair : (∀ p, p < 17 → (17 * 1 + p ∈ [33] ∨ (1, p) ∈ (booting 4).fuse.pairs ↔ p = 16)) ∧
    (∀ n, n < 6 → (planeStep n).boot.plane = n) := by decide +kernel

/-- Pair 16 found failed at power-up is retired in place (R26, R421). -/
theorem test_self_test : nextIs (exec (.siteSelfTest [33] []) (booting 4)) (fun t => decide ((wingOf t 1).retired = some 16) &&
    decide ((wingOf t 1).st = .active)) = true := by decide +kernel

theorem test_online : nextIs (exec .contextsMayOpen (booting 7)) (fun t => t.boot.online && decide (t.boot.step = 8)) = true := by
  decide +kernel

/-! ## Power -/

def powerIs (p : Power) (fclk : Nat := 0) : State := { base with power := p, boot := Boot.off, fclk := fclk }
/-- Without PWR_EN, the input up. -/
def idleP : Power := { Power.none with input := true }
def clkState (k : Clk) : State := { base with clk := k }

theorem test_hyp_power :
    (let s := powerIs idleP (ms 100)
     s.power.pwrEn = false ∧ s.power.input = true ∧ powered s = false ∧ elapsed s s.power.fellAt (ms 100) = true) ∧
    (let s := powerIs idleP 5; powered s = false ∧ elapsed s s.power.fellAt (ms 100) = false ∧ s.power.latched = false) ∧
    (let s := powerIs { idleP with latched := true } 5
     powered s = false ∧ elapsed s s.power.fellAt (ms 100) = false ∧ s.power.latched = true) ∧
    (let p := { idleP with pwrEn := true, holdoff := true }; p.holdoff = true ∧ p.pwrEn = true ∧ p.input = true) ∧
    (let s := powerIs { Power.none with pwrEn := true }
     s.power.input = false ∧ s.power.pwrEn = true ∧ powered s = false ∧ s.power.latched = false ∧ s.power.holdoff = false) ∧
    (let s := powerIs { Power.none with fellAt := 0 } (ms 100)
     s.power.pwrEn = false ∧ powered s = false ∧ elapsed s s.power.fellAt (ms 100) = true ∧ s.power.input = false) ∧
    (let p := { Power.none with pwrEn := true, holdoff := true }; p.holdoff = true ∧ p.input = false) ∧
    (let p := { Power.none with latched := true }; p.input = false ∧ p.latched = true) ∧
    (∀ n, n < 10 → (let p := { idleP with seq := true, rows := n }; p.seq = true ∧ (n < 9 → p.rows + 1 < 10) ∧ (n = 9 → 10 ≤ p.rows + 1))) ∧
    (powered base = true ∧ base.power.pwrEn = true) ∧
    (base.power.resetN = true ∧ base.power.on = true) ∧
    (1 < base.wings.length ∧ base.power.off.getLsbD 1 = false ∧ (wingOf base 1).st = .active ∧ isSmall base = false) ∧
    (railsDue base).testBit 0 = true ∧ (railsDue base).testBit 13 = true ∧
    (6 ≤ hosted.boot.step ∧ dget hosted (hportObj 0 1) = 1 ∧ hosted.power.opticsOff.getLsbD 0 = false) := by decide +kernel

theorem test_hyp_sensors :
    firmwareRuns base = true ∧
    (let k := { base.clk with compute := [110, 0, 0, 0] }
     ((thermal k).any fun r => r.1.any fun x => decide (r.2.2.2 ≤ x)) = true) ∧
    (let k := { base.clk with compute := readings 4 [101], base := readings 4 [], stack := readings 16 [], optic := readings 4 [] }
     ((thermal k).any fun r => r.1.any fun x => decide (r.2.2.2 ≤ x)) = false ∧
     ((thermal k).any fun r => r.1.any fun x => decide (r.2.1 < x)) = true) ∧
    (let k := { base.clk with compute := readings 4 [], base := readings 4 [], stack := readings 16 [], optic := readings 4 [] }
     ((thermal k).any fun r => r.1.any fun x => decide (r.2.1 < x)) = false ∧
     ((thermal k).all fun r => r.1.all fun x => decide (x ≤ r.2.2.1)) = true) ∧
    (base.clk.cool < 9 ∧ 9 ≤ (clkState { base.clk with cool := 9 }).clk.cool ∧ firmwareRuns (clkState { base.clk with cool := 9 }) = true) ∧
    (dget base 0x210001 < 1 ∧ 100 * 0 ≤ 97 * dget base 0x210001 ∧ base.clk.below < 9) ∧
    (9 ≤ (clkState { base.clk with below := 9 }).clk.below ∧ firmwareRuns (clkState { base.clk with below := 9 }) = true) := by
  decide +kernel

/-- A mean above the cap lowers ACLK and VCMP with it (R48, R463): 0.6 V + 1,700 · 0.2 V / 1,800 is 790 mV, rounded up to 5 mV. -/
theorem test_window : nextIs (exec (.powerWindowEnd 1) base) (fun t => decide (t.clk.aclk = 3500) && decide (t.clk.vcmp = 790)) = true := by
  decide +kernel

/-- The seventh row's VHBMC comes before its VHBMQ, and the last row ends step 1 with PWR_OK (R462, R468). -/
theorem test_rails : nextIs (exec .railEnable (powerIs { idleP with seq := true, rows := 9 })) (fun t => pwrOk t &&
    decide (t.boot.step = 1)) = true ∧
    nextIs (exec .railEnable (powerIs { idleP with seq := true })) (fun t => decide (t.power.rails = 1)) = true := by decide +kernel

/-- A compute die at 110 °C shuts the module down, one at 101 °C lowers ACLK (R478, R479). -/
theorem test_thermal : nextIs (exec (.thermalReading [110] [] [] []) base) (fun t => t.power.latched && !t.power.on) = true ∧
    nextIs (exec (.thermalReading [101] [] [] []) base) (fun t => decide (t.clk.thermTarget = 3500) && decide (t.clk.aclk = 3500)) = true := by
  decide +kernel

theorem test_power_loss : nextIs (exec .inputUndervoltage base) (fun t => !t.power.on && decide (t.boot = Boot.off)) = true := by
  decide +kernel

/-! ## Failures of parts -/

/-- Wing 1 with another spare state. -/
def wingState (x : Wing) : State := { base with wings := [Wing.active, x, Wing.active, Wing.active] }

theorem test_hyp_fail_pair :
    (let x := wingOf base 1
     1 < base.wings.length ∧ x.st ≠ .failed ∧ isSmall base = false ∧ x.retired = none ∧ x.retiring = none ∧ x.spareBad = false) ∧
    (let s := wingState { Wing.active with retiring := some (3, 0) }
     (wingOf s 1).st ≠ .failed ∧ (wingOf s 1).retired = none ∧ (wingOf s 1).retiring = some (3, 0) ∧ 3 ≠ 4 ∧ 1 < s.wings.length) ∧
    (let s := wingState { Wing.active with retired := some 3 }
     (wingOf s 1).st ≠ .failed ∧ (wingOf s 1).retired = some 3 ∧ 1 < s.wings.length) := by decide +kernel

/-- A second failed pair fails the wing (R26). -/
theorem test_second_pair : (wingOf (failPair (wingState { Wing.active with retired := some 3 }) 1 4 0x3004) 1).st = .failed ∧
    (wingOf (failPair base 1 4 0x3004) 1).retiring = some (4, 0x3004) := by decide +kernel

def retireState (due : Bool) : State :=
  { wingState { Wing.active with retiring := some (3, 0x3004), remapDue := due } with
    ctxs := [(0, { inSt (if due then .loaded else .running) with strips := 2 ^ 19 })] }

theorem test_hyp_retirement :
    (let s := retireState false; let x := wingOf s 1
     1 < s.wings.length ∧ x.st ≠ .failed ∧ x.retired = none ∧ x.retiring = some (3, 0x3004) ∧ isSmall s = false ∧ x.remapDue = false ∧
     (ctxOf s 0).st = .running ∧ twinned s (ctxOf s 0) = false ∧ (ctxMask s (ctxOf s 0)).testBit (16 * 1 + 3) = true) ∧
    (let s := retireState true
     (wingOf s 1).remapDue = true ∧ (∀ e ∈ s.ctxs, e.2.holdSince = none ∧ e.2.teardown = none) ∧ s.health.remaps.length < 64) ∧
    (let s := { base with sramErr := [(7, 0, 16)] }
     siteHeld s 7 = false ∧ s.sramErr.contains (7, 0, 16) = true) ∧
    (siteHeld base 7 = false ∧ base.sramErr.contains (7, 0, 16) = false ∧ siteWing 7 < base.wings.length) := by decide +kernel

theorem test_retirement :
    nextIs (exec (.pairRetirement 1 3 0x3004) (retireState false)) (fun t => (wingOf t 1).remapDue && decide ((ctxOf t 0).st = .detention)) = true ∧
    nextIs (exec (.pairRemap 1 true) (retireState true)) (fun t => decide ((wingOf t 1).retired = some 3)) = true := by decide +kernel

/-- A run that holds a slot of bridge 3. -/
def bridgeCtx : Ctx := { inSt .running with run := some { run1 with bridge := [0, 0, 0, 0, 0, 0, 1] } }
/-- Two bridges of wing A are lost, and context 0 spans wings A and B. -/
def splitState : State := { base with health := { base.health with bridges := 5 }, ctxs := [(0, { inSt .running with strips := 1 + 2 ^ 16 })] }

/-- A context in any state that spans wing A and the rest. -/
def spanning (st : CtxSt) : State :=
  { base with health := { base.health with split := 0xE }, ctxs := [(0, { inSt st with strips := 1 + 2 ^ 16 })] }

theorem test_hyp_bridges :
    (base.health.bridges.getLsbD 3 = false ∧ onBridge bridgeCtx 3 = true ∧ bridgeCtx.st = .running ∧
     joined { base with health := { base.health with bridges := 8 } } 1 = 15) ∧
    (let s := { base with health := { base.health with bridges := 1 } }
     s.health.bridges.getLsbD 2 = false ∧ joined { base with health := { base.health with bridges := 5 } } 1 ≠ 15) ∧
    (let s := splitState
     s.wings.length = 4 ∧ (∀ w, w < 5 → (wingOf s w).st ≠ .twinShadow) ∧ s.health.split = 0 ∧ joined s 1 ≠ 15 ∧
     (joined s 1).testBit 1 = false ∧ (wingOf s 1).st ≠ .failed ∧ (joined s 1).testBit 0 = true ∧
     spansParts { s with health := { s.health with split := 0xE } } (joined s 1) (ctxOf s 0) = true ∧ (ctxOf s 0).st = .running) ∧
    (∀ st, (ctxOf (spanning st) 0).st = st ∧ spansParts (spanning st) 1 (ctxOf (spanning st) 0) = true) := by
  refine ⟨?_, ?_, ?_, ?_⟩
  · decide +kernel
  · decide +kernel
  · decide +kernel
  · intro st
    cases st <;> decide +kernel

theorem test_split : nextIs (exec .splitFence splitState) (fun t => decide (t.health.split = 0xE) && decide ((wingOf t 1).st = .fenced) &&
    decide ((ctxOf t 0).st = .detention)) = true := by decide +kernel

/-- The first pair runs as twins, with a fault of one of them on record, and its promotion may be under way. -/
def twinFaultState (primary : Bool) : State :=
  { setWings [.twinPrimary, .twinShadow, .active, .active] with ctxs := [(0, { inSt .running with twinFault := some (0, primary, 0x3004) })] }
def twinCtx : Ctx := { inSt .loaded with shadow := [(1048576, 65536)] }
def promoState : State :=
  { twinFaultState true with health := { base.health with promoteAt := [(0, some 0)] }, ctxs := [(5, twinCtx)] }

theorem test_hyp_twin_faults :
    (∀ p, wingsIn (ctxOf (twinFaultState p) 0).strips = 0 :: [] ∧ (ctxOf (twinFaultState p) 0).twinFault = some (0, p, 0x3004)) ∧
    (let s := promoState
     s.wings.length = 4 ∧ (wingOf s 1).st = .twinShadow ∧ (wingOf s (partner 1)).st = .twinPrimary ∧
     (sget none s.health.promoteAt (1 / 2)).isSome = true ∧
     (let x := ctxOf s 5
      x.st ≠ .free ∧ fld x.strips (16 * partner 1) 16 ≠ 0 ∧ x.promoted = false)) := by decide +kernel

theorem test_promotion : nextIs (exec (.promotionComplete 0) promoState) (fun t => decide ((wingOf t 1).st = .active) &&
    decide ((wingOf t 0).st = .fenced) && decide ((ctxOf t 5).strips = 2 ^ 16) && decide (hostAddr (ctxOf t 5) 64 = 1048640)) = true := by
  decide +kernel


/-- IDCODE of a base die and of a compute die at the present stepping (R469), and EXTEST only while RESET_n is low. -/
theorem test_idcode : scanIdcode State.reset 0 = 0x1C0B1B47#32 ∧ scanIdcode State.reset 1 = 0x1C0C1B47#32 ∧
    scanActive { State.reset with scan := [{ Tap.initial with ir := .extest }] } 0 = .bypass := by decide

/-- SAMPLE captures the level of a pad; under EXTEST, while RESET_n is low, the pad follows its boundary cell (R469). -/
theorem test_scan :
    (let s := scanCapture (scanSelect base 0 .sample) 0 [(.sideband 15, true)]; (tapOf s 0).cells = [(.sideband 15, true)]) ∧
    (let s := { base with power := { base.power with resetN := false } }
     sidebandOut (scanUpdate (scanSelect s 0 .extest) 0 [(.sideband 15, false)]) 0 15 = some false ∧
     sidebandOut (scanSelect s 0 .highz) 0 15 = none ∧ sidebandOut base 0 15 = some true) := by decide +kernel

/-- Every position of a receptacle carries one fibre or is dark (R472), and over a Type-B trunk a port's transmit lane meets the receive
lane of the port at the same place. -/
theorem test_fibres : (∀ p, p < 2 → ∀ k, k < 5 → trunk (fibreTx p k) = fibreRx p k ∧ fibreDark (fibreTx p k) = false) ∧
    ((List.range 10).map (fun i => fibreTx (i / 5) (i % 5)) ++ [11, 12, 13, 14] ++
      (List.range 10).map (fun i => fibreRx (1 - i / 5) (4 - i % 5))) = (List.range 24).map (· + 1) := by decide

/-- Every pin of J5 has one signal (R465). -/
theorem test_pins : ((List.range 40).all fun i => (sideband.filter fun e => e.2.2.contains (i + 1)).length = 1) = true := by decide

/-- VCMP at ACLK 3,000 MHz is 0.735 V (R463), a voltage 4 % off sets the VOLTAGE bit, and 6 % off fails the wing or the module (R464). -/
theorem test_rail_reading : regulates 13 3000 735 = true ∧ railReading 13 3600 768 = .voltageToleranceChange 13 false ∧
    railReading 19 3600 752 = .vcmpFault 1 ∧ railReading 0 3600 11280 = .railFault ∧
    inputReading 4590 5900 = [.inputStartThreshold, .voltageToleranceChange 32 false] := by decide
end Sys2Proof.Tests
end

section
/-! PROOFS. The quantiser: the integer rescale (R100), the window maximum (R91) and the target magnitudes (R89). -/

namespace Sys2Proof.Machine

/-! ## Rounding of the rescale -/

/-- The rounding term of R100: half of `2 ^ k`, and 0 where `k` is 0. -/
def halfTerm (k : Nat) : Int := if k = 0 then 0 else 2 ^ (k - 1)

/-- The u of R100: `p / 2 ^ k` rounded to the nearest integer, a half upward. -/
def roundShift (p : Int) (k : Nat) : Int := (p + halfTerm k) / (2 ^ k : Nat)

/-- What `convRescale` computes from the product `p` of its accumulator value and its multiplier. -/
theorem convRescale_eq (q mult shift a : Nat) :
    let p := signed 32 a * signed 32 mult
    let u := roundShift p shift
    let c := min ((fmtRange (qdFmt q)).2 - qdZero q) (max ((fmtRange (qdFmt q)).1 - qdZero q) u)
    (convRescale q mult shift a).code = unsignedOf (fmtBits (qdFmt q)) (c + qdZero q) ∧
      (convRescale q mult shift a).sat = (c != u) ∧ (convRescale q mult shift a).nan = false :=
  ⟨rfl, rfl, rfl⟩

theorem halfTerm_succ (k : Nat) : halfTerm (k + 1) = 2 ^ k := if_neg k.succ_ne_zero

/-- Twice the rounding term is `2 ^ k`, or one less where `k` is 0. -/
theorem two_mul_halfTerm_bounds (k : Nat) : 2 ^ k - 1 ≤ 2 * halfTerm k ∧ 2 * halfTerm k ≤ 2 ^ k := by
  cases k with
  | zero => decide
  | succ k => rw [halfTerm_succ, Int.pow_succ]; omega

theorem halfTerm_le {k : Nat} (hk : k ≤ 62) : halfTerm k ≤ 2 ^ 61 := by
  cases k with
  | zero => decide
  | succ k =>
    have hpow : 2 ^ k ≤ 2 ^ 61 := Nat.pow_le_pow_right Nat.two_pos (Nat.le_of_succ_le_succ hk)
    rw [halfTerm_succ]
    exact_mod_cast hpow

/-- `roundShift p k` is nearest to `p / 2 ^ k`, and of two that are equally near it is the larger. -/
theorem roundShift_nearest (p : Int) (k : Nat) :
    2 * p - 2 ^ k < 2 * roundShift p k * 2 ^ k ∧ 2 * roundShift p k * 2 ^ k ≤ 2 * p + 2 ^ k := by
  have hcast : ((2 ^ k : Nat) : Int) = 2 ^ k := Int.natCast_pow 2 k
  have hpos : (0 : Int) < 2 ^ k := Int.pow_pos (by decide)
  have hlow : roundShift p k * 2 ^ k ≤ p + halfTerm k := by
    rw [roundShift, hcast]
    exact Int.ediv_mul_le _ (Int.ne_of_gt hpos)
  have hhigh : p + halfTerm k < roundShift p k * 2 ^ k + 2 ^ k := by
    have hnext := Int.lt_ediv_add_one_mul_self (p + halfTerm k) hpos
    rw [Int.add_mul, Int.one_mul] at hnext
    rwa [roundShift, hcast]
  obtain ⟨hge, hle⟩ := two_mul_halfTerm_bounds k
  rw [Int.mul_assoc]
  constructor <;> omega

/-! ## The 64-bit range -/

theorem natAbs_signed_succ_le (n w : Nat) : (signed (n + 1) w).natAbs ≤ 2 ^ n := by
  have hlt : w % 2 ^ (n + 1) < 2 ^ (n + 1) := Nat.mod_lt _ (Nat.two_pow_pos _)
  simp only [signed, Nat.add_sub_cancel]
  rw [Nat.pow_succ] at hlt ⊢
  split <;> omega

/-- The product of two 32-bit values has at most 62 bits. -/
theorem natAbs_signed_mul_le (a b : Nat) : (signed 32 a * signed 32 b).natAbs ≤ 2 ^ 62 := by
  rw [Int.natAbs_mul]
  calc (signed 32 a).natAbs * (signed 32 b).natAbs
    _ ≤ 2 ^ 31 * 2 ^ 31 := Nat.mul_le_mul (natAbs_signed_succ_le 31 a) (natAbs_signed_succ_le 31 b)
    _ = 2 ^ 62 := (Nat.pow_add 2 31 31).symm

/-- The product and its sum with the rounding term lie in the signed 64-bit range. -/
theorem rescale_fits_64 (a mult : Nat) {shift : Nat} (hs : shift ≤ 62) :
    -2 ^ 63 ≤ signed 32 a * signed 32 mult ∧ signed 32 a * signed 32 mult + halfTerm shift < 2 ^ 63 := by
  have hprod := natAbs_signed_mul_le a mult
  have hterm := halfTerm_le hs
  generalize signed 32 a * signed 32 mult = p at hprod ⊢
  constructor <;> omega

/-- Settles O38: u is `roundShift` of the product, the nearest integer with a half upward. -/
theorem rescaleRoundsHalfUpAndClamps : Obligations.RescaleRoundsHalfUpAndClamps := by
  intro q mult shift a _ hshift z qmin qmax _ _ p v
  obtain ⟨hcode, hsat, hnan⟩ := convRescale_eq q mult shift a
  obtain ⟨hlow, hhigh⟩ := rescale_fits_64 a mult hshift
  exact ⟨roundShift p shift, roundShift_nearest p shift, hcode, by rw [hsat, bne_iff_ne], hnan, hlow, hhigh⟩

/-! ## The window maximum -/

theorem qdWindow_le (q : Nat) : qdWindow q ≤ 16 := Nat.mod_lt _ (by decide)

theorem windowMax_eq_max? (q : Nat) (hist : List Nat) : windowMax q hist = (hist.take (qdWindow q)).max?.getD 0 := by
  rw [windowMax, List.foldl_max, Nat.zero_max]

theorem mem_take_iff_exists_getElem? {α : Type} {l : List α} {n : Nat} {v : α} :
    v ∈ l.take n ↔ ∃ i, i < n ∧ l[i]? = some v := by
  simp only [List.mem_iff_getElem?, List.getElem?_take, Option.ite_none_right_eq_some]

theorem le_windowMax {q v : Nat} {hist : List Nat} (hv : v ∈ hist.take (qdWindow q)) : v ≤ windowMax q hist := by
  rw [windowMax_eq_max?]
  cases hm : (hist.take (qdWindow q)).max? with
  | none =>
    rw [List.max?_eq_none_iff.mp hm] at hv
    exact absurd hv List.not_mem_nil
  | some m => exact (List.max?_eq_some_iff.mp hm).2 v hv

theorem windowMax_mem {q : Nat} {hist : List Nat} (h : windowMax q hist ≠ 0) : windowMax q hist ∈ hist.take (qdWindow q) := by
  rw [windowMax_eq_max?] at h ⊢
  cases hm : (hist.take (qdWindow q)).max? with
  | none =>
    rw [hm] at h
    exact absurd rfl h
  | some m => exact List.max?_mem hm

/-- A window has at most 16 steps, so that the 16 the history keeps are enough for it. -/
theorem windowMax_take_16 (q : Nat) (hist : List Nat) : windowMax q (hist.take 16) = windowMax q hist := by
  rw [windowMax, windowMax, List.take_take, Nat.min_eq_left (qdWindow_le q)]

/-! ## The scale formed at a merge -/

theorem pushMax_hist (q n a : Nat) (cur : Option (Nat × Nat)) (t : Tensor) : (pushMax q n a cur t).hist = (a :: t.hist).take 16 := by
  unfold pushMax
  split <;> rfl

theorem pushMax_next_of_not_history {q : Nat} (hq : qdMode q ≠ 1) (n a : Nat) (cur : Option (Nat × Nat)) (t : Tensor) :
    (pushMax q n a cur t).next = [] := by
  have hb : (qdMode q != 1) = true := bne_iff_ne.mpr hq
  simp only [pushMax, hb, if_true]

theorem pushMax_next_of_history {q : Nat} (hq : qdMode q = 1) (n a : Nat) (cur : Option (Nat × Nat)) (t : Tensor) :
    (pushMax q n a cur t).next = (t.next.filter fun e => decide (n < e.1)) ++
      [(n + 1 + qdLag q, windowScale q (windowMax q (a :: t.hist)) (t.prev.or cur))] := by
  simp only [pushMax, hq, bne_self_eq_false, Bool.false_eq_true, if_false, windowMax_take_16]

/-- A merge adds at most the scale of step `n + LAG + 1`. -/
theorem mem_pushMax_next {q n a : Nat} {cur : Option (Nat × Nat)} {t : Tensor} {e : Nat × Nat × Nat × Nat}
    (he : e ∈ (pushMax q n a cur t).next) : e ∈ t.next ∨ e.1 = n + 1 + qdLag q := by
  by_cases hq : qdMode q = 1
  · rw [pushMax_next_of_history hq, List.mem_append, List.mem_singleton] at he
    exact he.imp (fun hold => (List.mem_filter.mp hold).1) (congrArg Prod.fst)
  · rw [pushMax_next_of_not_history hq] at he
    exact absurd he List.not_mem_nil

/-- Settles O39: the fold over the window bounds its steps and is one of them, and a merge in MODE HISTORY appends one scale. -/
theorem windowMaximumIsTheLargest : Obligations.WindowMaximumIsTheLargest := by
  refine ⟨fun q hist => ⟨fun i v hi hv => ?_, fun h => ?_⟩, fun q n a cur t => ⟨pushMax_hist q n a cur t, fun hq => ?_, ?_⟩⟩
  · exact le_windowMax (mem_take_iff_exists_getElem?.mpr ⟨i, hi, hv⟩)
  · exact mem_take_iff_exists_getElem?.mp (windowMax_mem h)
  · rw [pushMax_next_of_history hq]
    exact List.mem_append_right _ (List.mem_singleton_self _)
  · exact fun e he => mem_pushMax_next he

/-! ## The target magnitudes -/

theorem qdIntDest_iff (f : Fmt) : qdIntDest f = true ↔ f = .int8 ∨ f = .uint8 ∨ f = .int4 ∨ f = .uint4 := by
  cases f <;> decide

/-- For an integer destination F is the distance from the zero point to the nearer end of the range. -/
theorem qdTarget_of_intDest {q : Nat} (h : qdIntDest (qdFmt q) = true) :
    qdTarget q = min ((fmtRange (qdFmt q)).2 - qdZero q) (qdZero q - (fmtRange (qdFmt q)).1) := by
  obtain h | h | h | h := (qdIntDest_iff _).mp h <;> simp only [qdTarget, h]

/-- Settles O40, by the destination; the two examples are cases of `qdTarget_of_intDest`. -/
theorem targetMagnitudesAreThoseOfTheTable : Obligations.TargetMagnitudesAreThoseOfTheTable := by
  intro q
  refine ⟨?e4m3, ?e5m2, ?fp4, ?fp16, qdTarget_of_intDest, ?uint8, ?int8⟩
  case e4m3 | e5m2 | fp4 | fp16 => intro h; simp only [qdTarget, h]
  case uint8 | int8 =>
    intro h hz
    rw [qdTarget_of_intDest (by rw [h]; rfl), h, hz]
    rfl

end Sys2Proof.Machine
end
